-- ==== Sys2Proof/Word.lean ====
section
/-! DEFINITION. The words of the Freteper: bytes, the widths the manual names, and the identifiers of its parts. -/

namespace Sys2Proof

/-- One byte. -/
abbrev Byte := BitVec 8
/-- A 64-bit word: a Bantam general register, a global address, a time. -/
abbrev Word := BitVec 64

/-- Isle number, row-major from the north-west corner (R50). -/
abbrev Isle := Fin 64
/-- Strait port (R51). -/
abbrev Port := Fin 128
/-- Job context: 16 for each bridge card. -/
abbrev Ctx := Fin 64
/-- Bridge card. -/
abbrev Card := Fin 4
/-- Shore site (R51). -/
abbrev Site := Fin 32
/-- Sound number (03, Table 3). -/
abbrev SoundId := Fin 144
/-- Lane of a Strait port (R227). -/
abbrev Lane := Fin 32
/-- Laser, or grid channel, of a Strait port (R226). -/
abbrev Laser := Fin 36
/-- Ring of a Strait port: modulators of lanes 0 to 31, then drop filters of lanes 0 to 31 (11, Table 6). -/
abbrev Ring := Fin 64

/-- One Ox engine of one isle. -/
structure EngineId where
  isle : Isle
  engine : Fin 4
deriving DecidableEq, Repr

/-- One Bantam core of one isle. -/
structure CoreId where
  isle : Isle
  core : Fin 16
deriving DecidableEq, Repr

/-- One HBM stack of one isle. -/
structure StackId where
  isle : Isle
  stack : Fin 2
deriving DecidableEq, Repr

/-- One function of one bridge card: 0 physical, 1 to 15 virtual (R277). -/
structure FnId where
  card : Card
  fn : Fin 16
deriving DecidableEq, Repr

/-- A dictionary channel: N0, or the mailbox of a function (15, "Objects and subindexes"). -/
inductive Channel where
  | n0
  | mailbox (fn : FnId)
deriving DecidableEq, Repr

/-- Key of an isle's member `i` of `n`, for a table over all isles. -/
def EngineId.key (e : EngineId) : Nat := e.isle.val * 4 + e.engine.val
def CoreId.key (c : CoreId) : Nat := c.isle.val * 16 + c.core.val
def StackId.key (k : StackId) : Nat := k.isle.val * 2 + k.stack.val
def FnId.key (f : FnId) : Nat := f.card.val * 16 + f.fn.val

/-- Channel identifier of the session handshake (15): N0 is 0x0000, a mailbox 0x0100 + b × 16 + f. -/
def Channel.ident : Channel → Nat
  | .n0 => 0
  | .mailbox f => 0x100 + f.key

/-- Dictionary channel number: 0 for N0, 1 + key of its function for a mailbox. -/
def Channel.num : Channel → Nat
  | .n0 => 0
  | .mailbox f => 1 + f.key

end Sys2Proof
end

