-- ==== Sys2Proof/Syntax.lean ====
section
/-! DEFINITION. The commands of the block: one constructor of `Instr` per row of spec/opcode_table.json, with the operands
that the row's rule names. Plan commands carry the operand fields of their 32 bytes, at the manual's widths and with its
reserved bits left in, so that what the loader refuses can be written down and refused. -/

namespace Sys2Proof

/-! ### Plan commands (02, 04 to 06, 10, 12) -/

/-- A page reference or a global address, as a 64-bit operand (R131). -/
abbrev Side := BitVec 64

/-- FORK operands (06, Table 7). -/
structure ForkOps where
  parent : BitVec 32
  firstChild : BitVec 32
  children : BitVec 16
deriving DecidableEq, Repr

/-- SPLIT operands (06, Table 7). -/
structure SplitOps where
  list : BitVec 32
  first : BitVec 16
  count : BitVec 16
  reserve : BitVec 32
deriving DecidableEq, Repr

/-- RELEASE operands (06, Table 7). -/
structure ReleaseOps where
  first : BitVec 32
  lists : BitVec 32
deriving DecidableEq, Repr

/-- WLOAD operands (04, Table 5). -/
structure WloadOps where
  src : BitVec 32
  wfmt : Byte
  rows : BitVec 16
  srcStride : BitVec 16
deriving DecidableEq, Repr

/-- MATMUL operands (04, Table 6), with SWAP and ACC of ENGINE_FLAGS. -/
structure MatmulOps where
  swap : Bool
  acc : Bool
  inAddr : BitVec 32
  inStride : BitVec 16
  m : BitVec 16
  accRow : BitVec 16
  ifmt : Byte
  mask : Byte
deriving DecidableEq, Repr

/-- DRAIN operands (04, Table 7). -/
structure DrainOps where
  dst : BitVec 32
  dstClass : BitVec 4
  dstMode : BitVec 4
  ofmt : Byte
  rows : BitVec 16
  accRow : BitVec 10
  mask : BitVec 4
  func : Byte
  precise : Bool
  satFinite : Bool
  scale : Bool
  bias : Bool
  gateOp : BitVec 3
  dstStride : BitVec 16
  aux : BitVec 16
  slot : BitVec 12
  slots : BitVec 12
deriving DecidableEq, Repr

/-- ACCLOAD operands (R78). -/
structure AccloadOps where
  src : BitVec 32
  srcStride : BitVec 16
  rows : BitVec 16
  accRow : BitVec 16
  sfmt : Byte
deriving DecidableEq, Repr

/-- MASKSET operands (R79). -/
structure MasksetOps where
  src : BitVec 32
  first : Byte
  count : Byte
deriving DecidableEq, Repr

/-- KERNEL operands (05, Table 2), with ARGS, HBM and STRAIT of ENGINE_FLAGS. -/
structure KernelOps where
  args : Bool
  hbm : Bool
  strait : Bool
  entry : BitVec 16
  argLen : BitVec 16
  budget : BitVec 32
  arg : BitVec 32
  hbmKib : BitVec 32
  straitKib : BitVec 32
deriving DecidableEq, Repr

/-- COPY and MCAST operands (06, Table 6), with SRC_LIST and DST_LIST of ENGINE_FLAGS. -/
structure CopyOps where
  srcList : Bool
  dstList : Bool
  src : Side
  dst : Side
  count : BitVec 16
  axis : Bool
  run : BitVec 4
  first : Byte
deriving DecidableEq, Repr

/-- The group an LGEOM writes, with its fields (10, Table 4). -/
inductive LgeomOps where
  | src (cls : BitVec 4) (fmt : Byte) (offset : BitVec 32) (w h c : BitVec 16) (rowStride : BitVec 32) (pixStride : BitVec 16)
  | win (kw kh sx sy dx dy : BitVec 16)
  | pad (pl pr pt pb : BitVec 16)
  | dst (cls : BitVec 4) (fmt : Byte) (offset : BitVec 32) (c : BitVec 16) (rowStride : BitVec 32) (pixStride : BitVec 16)
deriving DecidableEq, Repr

/-- LWLOAD operands (10, Table 3). -/
structure LwloadOps where
  cls : BitVec 4
  src : BitVec 32
  len : BitVec 32
deriving DecidableEq, Repr

/-- Output rows that a Lamb command produces (R207). -/
structure OyRange where
  first : BitVec 16
  count : BitVec 16
deriving DecidableEq, Repr

/-- PATCH operands (10, Table 3). -/
structure PatchOps where
  oy : OyRange
  tapFirst : BitVec 16
  tapCount : BitVec 16
  cFirst : BitVec 16
  cCount : BitVec 16
deriving DecidableEq, Repr

/-- LCONV operands (10, Table 3). -/
structure LconvOps where
  oy : OyRange
  func : Byte
  bias : Bool
deriving DecidableEq, Repr

/-- POOL operands (10, Table 3). -/
structure PoolOps where
  oy : OyRange
  mode : Byte
deriving DecidableEq, Repr

/-- RESAMPLE operands (10, Table 3). -/
structure ResampleOps where
  oy : OyRange
  mode : Byte
  fx : Byte
  fy : Byte
deriving DecidableEq, Repr

/-- REGROUP operands (10, Table 3). -/
structure RegroupOps where
  oy : OyRange
  dir : Byte
  f : Byte
deriving DecidableEq, Repr

/-- WINDOW operands (12, Table 5). -/
structure WindowOps where
  mode : Byte
  rights : Byte
  peerUnit : Byte
  key : BitVec 32
  base : Word
  span : BitVec 32
deriving DecidableEq, Repr

/-- RGET, RPUT and RREDUCE operands (12, Table 5): REMOTE holds bits [63:16] of a global address. -/
structure RemoteOps where
  localList : Bool
  remote : BitVec 48
  loc : BitVec 48
  count : BitVec 16
  slot : BitVec 12
  slots : BitVec 12
  rfmt : BitVec 2
  unordered : Bool
deriving DecidableEq, Repr

/-- RSIGNAL operands (12, Table 5). -/
structure RsignalOps where
  unit : Byte
  isle : Byte
  counter : BitVec 16
  inc : BitVec 16
deriving DecidableEq, Repr

/-! ### Bantam formats (R113): every field of the word but MAJOR and the fixed FN -/

/-- Format A. -/
structure FmtA where
  d : BitVec 5
  a : BitVec 5
  b : BitVec 5
deriving DecidableEq, Repr
/-- Format I. -/
structure FmtI where
  d : BitVec 5
  a : BitVec 5
  imm : BitVec 16
deriving DecidableEq, Repr
/-- Format M. -/
structure FmtM where
  d : BitVec 5
  a : BitVec 5
  size : BitVec 2
  sx : Bool
  imm : BitVec 13
deriving DecidableEq, Repr
/-- Format B. -/
structure FmtB where
  a : BitVec 5
  b : BitVec 5
  off : BitVec 16
deriving DecidableEq, Repr
/-- Format V. -/
structure FmtV where
  vd : BitVec 4
  va : BitVec 4
  vb : BitVec 4
  p : BitVec 3
  etype : BitVec 3
deriving DecidableEq, Repr
/-- Format VM. -/
structure FmtVM where
  vd : BitVec 4
  a : BitVec 5
  p : BitVec 3
  etype : BitVec 3
  imm : BitVec 11
deriving DecidableEq, Repr
/-- Format X. -/
structure FmtX where
  vd : BitVec 4
  g : BitVec 5
  lane : BitVec 6
  etype : BitVec 3
deriving DecidableEq, Repr

/-! ### Memory and shape (03, 07) -/

/-- A target of reductions: HBM stack 0, HBM stack 1 or the isle store of an isle (classes 0x0 to 0x2). -/
structure TargetId where
  isle : Isle
  cls : Fin 3
deriving DecidableEq, Repr

/-- One reduce contribution to the 64-byte line at `offset` of its target (R157): `lanes` names the lanes, `data` gives the
64 bytes' lanes in the contribution format, lowest lane first. -/
structure Contribution where
  offset : BitVec 48
  slot : BitVec 12
  slots : BitVec 12
  unordered : Bool
  fmt : BitVec 2
  lanes : BitVec 32
  data : List Word
deriving DecidableEq, Repr

/-- What a scrubber reads (18, Table 1: activities 1, 5, 7, 8). -/
inductive ScrubTarget where
  | hbm (k : StackId)
  | isleStore (i : Isle)
  | operandStore (e : EngineId)
  | bantamStore (c : CoreId)
deriving DecidableEq, Repr

/-- What a read of one stored unit finds: each flipped 16-bit symbol of an HBM burst, or flipped bit of a 72-bit codeword, by its number,
with the flip of a symbol; and whether the stack's on-die ECC reports an uncorrectable severity (R152, R153, R164). -/
structure ReadFinding where
  flips : List (Nat × Nat)
  severe : Bool
deriving DecidableEq, Repr

/-- A unit in which every bit is as it was stored. -/
def ReadFinding.intact : ReadFinding := ⟨[], false⟩

/-- What a page mover's read finds of one burst of its pages: page of the command, byte of the page, and the finding (R153). -/
structure BurstFinding where
  page : Nat
  offset : Fin 65536
  found : ReadFinding
deriving DecidableEq, Repr

/-- A SPLIT, and the Sound that meets an uncorrectable error on the way of its pages, if one does (R68). -/
structure SplitCmd where
  ops : SplitOps
  soundError : Option SoundId
deriving DecidableEq, Repr

/-- What the pages of a COPY meet: a Sound with an uncorrectable error (R68), and a burst of the source with flipped bits (R153). -/
structure PageMeets where
  soundError : Option SoundId
  found : Option BurstFinding
deriving DecidableEq, Repr

/-- A load, and what its read finds of the stored unit (R152, R153, R164). -/
structure LoadM where
  fmt : FmtM
  found : ReadFinding
deriving DecidableEq, Repr

/-- A vector load, and what its read finds of the stored unit (R152, R153, R164). -/
structure LoadVM where
  fmt : FmtVM
  found : ReadFinding
deriving DecidableEq, Repr

/-- A failing cell of a bank pattern test (R166). -/
structure FailCell where
  subArray : Fin 144
  column : Fin 256
  row : Fin 512
  readOne : Bool
deriving DecidableEq, Repr

/-! ### Straits (11, 12) -/

/-- What a port learns at step 5 of link bring-up (12, Table 4). -/
structure PeerId where
  serial : List Byte
  pod : Byte
  port : Byte
  format : Nat
  ackSeq : BitVec 16
deriving DecidableEq, Repr

/-- The lanes lit and locked at step 4 of link bring-up, and the greatest skew between them in ns (R249, R254). -/
structure LaneLock where
  lanes : BitVec 32
  skew : Nat
deriving DecidableEq, Repr

/-- What the identity memory of a fibre cassette gives: its serial and the insertion loss of each fibre (R246). -/
structure CassetteId where
  serial : List Byte
  loss : List Nat
deriving DecidableEq, Repr

/-- A received flit: its 256 bytes, and of the codeword that it ends in the header and the number of symbols in error (R248, R250). -/
structure FlitIn where
  bytes : List Byte
  codeword : BitVec 20
  symbols : Nat
deriving DecidableEq, Repr

/-- EPOCH of a transaction (12, Table 3): the initiating pod number, its job context and its run number. -/
structure Epoch where
  pod : BitVec 6
  ctx : BitVec 6
  run : BitVec 16
deriving DecidableEq, Repr

/-- Header of a received request (12, Table 3). -/
structure ReqHeader where
  epoch : Epoch
  tag : BitVec 32
  key : BitVec 32
  addr : Word
  len : BitVec 16
deriving DecidableEq, Repr

/-! ### Bridges and the dictionary (13, 15) -/

/-- How a host read ended (R281, R284). -/
inductive HostRead where
  | data (bytes : List Byte)
  | failed
deriving DecidableEq, Repr

/-- A BAR2 access (R287). -/
inductive Bar2Op where
  | read (bytes : Fin 65)
  | write (bytes : List Byte)
deriving DecidableEq, Repr

/-- A stint that is ready on a shared engine, and since when (R305, R306). -/
structure ReadyStint where
  ctx : Ctx
  since : Nat
deriving DecidableEq, Repr

/-- An engine that several plans may share (R305): Ox0 to Ox3, the Lamb engine or the page mover. -/
structure SharedEngine where
  isle : Isle
  unit : Fin 6
deriving DecidableEq, Repr

/-- A resource whose clearing failed (R311), numbered as in 14, Table 5: 1 pseudo-channel, 2 way, 3 step, 4 counter, 5 core,
6 operand-store page. -/
structure ClearFailure where
  isle : Isle
  kind : Fin 7
  index : Nat
deriving DecidableEq, Repr

/-- A dictionary request: its channel and SEQ bit, and whether it came as an N0 broadcast (R321, R326). -/
structure Req where
  ch : Channel
  seq : Bool
  broadcast : Bool
deriving DecidableEq, Repr

/-- Object and subindex of a request (R314). -/
structure ObjName where
  index : BitVec 16
  sub : Byte
deriving DecidableEq, Repr

/-- A frame as the N0 receiver gets it (R319, R322): the low 8 bits of its characters in order; whether one carried a framing or parity error,
whether more than 10 bit times passed between two, and whether a character with its ninth bit set came before the end. -/
structure N0Frame where
  bytes : List Byte
  charError : Bool
  gap : Bool
  cut : Bool
deriving DecidableEq, Repr

/-! ### Narrows (16) -/

/-- Who makes a register access: the Holm, or the physical function of a bridge card (R343). -/
inductive UartMaster where
  | holm
  | bridge (c : Card)
deriving DecidableEq, Repr

/-- A character as the receiver samples it (R350). -/
structure RxChar where
  data : BitVec 9
  framing : Bool
  parityErr : Bool
  idleBefore : Bool
deriving DecidableEq, Repr

/-- A register write with no row of its own (R5, R10, R281, R362). -/
inductive RegWrite where
  | bar0 (fn : FnId) (offset : BitVec 26) (value : Word)
  | uart (port : Fin 2) (by_ : UartMaster) (offset : BitVec 12) (value : Word)
deriving DecidableEq, Repr

/-! ### Time, power, start-up, diagnostics (17 to 22) -/

/-- An Announce message as far as master selection reads it (R371, R372). -/
structure Announce where
  clock : Word
  portNumber : BitVec 16
  steps : BitVec 16
  utcOffset : Int
  best : Bool
deriving DecidableEq, Repr

/-- Source of an event record: bytes 4 to 7 of 17, Table 2, without the unit. -/
structure Source where
  isle : Byte
  block : Byte
  inst : Byte
deriving DecidableEq, Repr

/-- Outcome of an isle bring-up or retest (R401, R402): which test of 18, Table 7 failed for good (0 none), what stays healthy, what repairs
were made, and the stacks whose identity read or command/address training failed (R150). -/
structure RetestOutcome where
  failingTest : Fin 7
  microcodeOk : Bool
  ox : BitVec 4
  bantam : BitVec 16
  pc : BitVec 64
  lamb : Bool
  spareColumns : Nat
  banksRetired : List (Fin 33)
  stacksFailed : BitVec 2
deriving DecidableEq, Repr

/-- What an isle's bring-up attempts gave, in order (R437): at most three. -/
structure BringUp where
  isle : Isle
  attempts : List RetestOutcome
deriving DecidableEq, Repr

/-- Validity of a firmware slot as a boot ROM finds it (R434): a reason of FW_IMAGE_REJECTED, or none. -/
structure SlotCheck where
  slot : Fin 2
  component : Fin 5
  reason : Fin 4
deriving DecidableEq, Repr

/-- What the outside and the tests of start-up give (20, Table 5). -/
structure BootFacts where
  rejected : List SlotCheck
  storeUsable : Bool
  bringUps : List BringUp
  soundsBad : List SoundId
  inlet : Int
deriving DecidableEq, Repr, Inhabited

/-- Which restart a restart row is, for its cause byte (20, Table 9). -/
inductive RestartCause where
  | update | watchdog | request
deriving DecidableEq, Repr

/-- Wake sources of an isle in I2 (R420). -/
inductive WakeSource where
  | load (ctx : Ctx) | bar2 | packet | holm | background
deriving DecidableEq, Repr

/-- Where a trip temperature was read (R431). -/
inductive TripSource where
  | junction (isle : Isle)
  | inlet
deriving DecidableEq, Repr

/-- The commands of the block: one constructor per row of spec/opcode_table.json, in the table's order. -/
inductive Instr where
  /-- R23: A 10 µs pace window of an isle closes, and its exact average of the lowest monitor reading becomes PACE_NOW. -/
  | paceWindowClose (isle : Isle) (num den : Nat)
  /-- R32: A command whose token wait is armed starts once its counter reaches WAIT_TARGET and its predecessor has started. -/
  | commandWaitMet (ctx : Ctx) (strand : Nat)
  /-- R32: A command completes once all its writes are visible, and its header signal adds SIGNAL_INC to the named counter. -/
  | commandComplete (ctx : Ctx) (strand : Nat)
  /-- R46: A token message arriving over a Sound is applied to its counter, or discarded and counted as stale when its run is no longer active. -/
  | tokenMessage (ctx : Ctx) (run : BitVec 16) (isle : Isle) (counter : BitVec 12) (inc : BitVec 10) (soundError : Option SoundId)
  /-- R47: Every 1 ms the Holm checks whether every strand of a run waits with nothing in flight, and halts the job with TOKEN_DEADLOCK. -/
  | tokenDeadlockCheck
  /-- R49: Once in-flight commands of a halted job complete, the completion record with the fault code is written and the lease returns to the free pool. -/
  | jobHaltComplete (ctx : Ctx)
  /-- R284: When every strand has completed and every OUT copy is written, the run ends and its completion and accounting records are written. -/
  | runEnd (ctx : Ctx)
  /-- R31: The isle-control NOP command only waits and signals, costing 4 beats. -/
  | nop (ctx : Ctx) (strand : Nat)
  /-- R31: The isle-control BG_WINDOW command leaves the strand's engine idle for foreground work for DURATION so background work may use it. -/
  | bgWindow (ctx : Ctx) (strand : Nat) (duration : BitVec 32)
  /-- R137: FORK copies the parent's inherited entries into each child list and adds CHILDREN to the count of each named frame, all or nothing. -/
  | fork (ctx : Ctx) (ops : ForkOps)
  /-- R138: SPLIT gives each listed page a frame of count 1, copying a shared frame into the next reserve frame or keeping an unshared one. -/
  | split (ctx : Ctx) (ops : SplitCmd)
  /-- R139: RELEASE decrements the count of every frame named by the given lists and sets their entries to null. -/
  | release (ctx : Ctx) (ops : ReleaseOps)
  /-- R75: The Ox WLOAD command loads a weight tile into the shadow registers. -/
  | wload (ctx : Ctx) (e : EngineId) (ops : WloadOps)
  /-- R76: The Ox MATMUL command streams input rows through the active tile into accumulator rows, optionally swapping tiles first. -/
  | matmul (ctx : Ctx) (e : EngineId) (ops : MatmulOps)
  /-- R77: The Ox DRAIN command passes accumulator rows through the gate pipeline to a destination, possibly as reduce contributions. -/
  | drain (ctx : Ctx) (e : EngineId) (ops : DrainOps)
  /-- R78: The Ox ACCLOAD command loads accumulator rows from the operand store. -/
  | accload (ctx : Ctx) (e : EngineId) (ops : AccloadOps)
  /-- R79: The Ox MASKSET command loads mask table entries from the operand store. -/
  | maskset (ctx : Ctx) (e : EngineId) (ops : MasksetOps)
  /-- R92: One patrol test vector of an Ox engine runs in background time and abandons at its boundary when a foreground command arrives. -/
  | oxPatrolVector (e : EngineId) (miscompare : Option (Fin 132)) (foreground : Bool)
  /-- R93: An Ox command without completion within twice its cost plus 20 µs halts the job and disables the engine. -/
  | oxStall (e : EngineId) (opcode : Byte)
  /-- R97: The Bantam KERNEL command initialises the core's registers and budgets and starts executing at ENTRY. -/
  | kernel (ctx : Ctx) (c : CoreId) (ops : KernelOps)
  /-- R98: Once the implicit scope-3 fence after HALT completes, the KERNEL command completes and its header signal is applied. -/
  | kernelComplete (c : CoreId)
  /-- R115: Bantam ADD writes A plus B to D. -/
  | add (c : CoreId) (f : FmtA)
  /-- R115: Bantam SUB writes A minus B to D. -/
  | sub (c : CoreId) (f : FmtA)
  /-- R115: Bantam AND writes the bitwise and of A and B. -/
  | and (c : CoreId) (f : FmtA)
  /-- R115: Bantam OR writes the bitwise or of A and B. -/
  | or (c : CoreId) (f : FmtA)
  /-- R115: Bantam XOR writes the bitwise exclusive or of A and B. -/
  | xor (c : CoreId) (f : FmtA)
  /-- R107: Bantam SHL shifts A left by B[5:0]. -/
  | shl (c : CoreId) (f : FmtA)
  /-- R107: Bantam SHR shifts A right logically by B[5:0]. -/
  | shr (c : CoreId) (f : FmtA)
  /-- R107: Bantam SAR shifts A right arithmetically by B[5:0]. -/
  | sar (c : CoreId) (f : FmtA)
  /-- R115: Bantam SLT writes 1 when A is less than B, signed. -/
  | slt (c : CoreId) (f : FmtA)
  /-- R115: Bantam SLTU writes 1 when A is less than B, unsigned. -/
  | sltu (c : CoreId) (f : FmtA)
  /-- R115: Bantam MUL writes the low 64 bits of the product. -/
  | mul (c : CoreId) (f : FmtA)
  /-- R115: Bantam MULH writes the high 64 bits of the signed product. -/
  | mulh (c : CoreId) (f : FmtA)
  /-- R115: Bantam MULHU writes the high 64 bits of the unsigned product. -/
  | mulhu (c : CoreId) (f : FmtA)
  /-- R107: Bantam DIV divides signed, rounding toward zero, with defined results for zero and overflow. -/
  | div (c : CoreId) (f : FmtA)
  /-- R107: Bantam DIVU divides unsigned, giving all ones for division by zero. -/
  | divu (c : CoreId) (f : FmtA)
  /-- R107: Bantam REM gives the signed remainder matching DIV. -/
  | rem (c : CoreId) (f : FmtA)
  /-- R107: Bantam REMU gives the unsigned remainder matching DIVU. -/
  | remu (c : CoreId) (f : FmtA)
  /-- R115: Bantam MIN writes the signed minimum of A and B. -/
  | min (c : CoreId) (f : FmtA)
  /-- R115: Bantam MAX writes the signed maximum of A and B. -/
  | max (c : CoreId) (f : FmtA)
  /-- R115: Bantam CLZ writes the leading zero count of A. -/
  | clz (c : CoreId) (f : FmtA)
  /-- R115: Bantam POPC writes the population count of A. -/
  | popc (c : CoreId) (f : FmtA)
  /-- R115: Bantam ADDI writes A plus the immediate. -/
  | addi (c : CoreId) (f : FmtI)
  /-- R115: Bantam SLTI writes 1 when A is below the signed immediate. -/
  | slti (c : CoreId) (f : FmtI)
  /-- R115: Bantam ANDI ands A with the zero-extended immediate. -/
  | andi (c : CoreId) (f : FmtI)
  /-- R115: Bantam ORI ors A with the zero-extended immediate. -/
  | ori (c : CoreId) (f : FmtI)
  /-- R115: Bantam XORI exclusive-ors A with the zero-extended immediate. -/
  | xori (c : CoreId) (f : FmtI)
  /-- R115: Bantam SHLI shifts A left by IMM[5:0]. -/
  | shli (c : CoreId) (f : FmtI)
  /-- R115: Bantam SHRI shifts A right logically by IMM[5:0]. -/
  | shri (c : CoreId) (f : FmtI)
  /-- R115: Bantam SARI shifts A right arithmetically by IMM[5:0]. -/
  | sari (c : CoreId) (f : FmtI)
  /-- R115: Bantam LUI writes the sign-extended immediate shifted left by 16. -/
  | lui (c : CoreId) (f : FmtI)
  /-- R100: Bantam LDL loads from the core's data store by local offset. -/
  | ldl (c : CoreId) (f : FmtM)
  /-- R100: Bantam STL stores to the core's data store by local offset. -/
  | stl (c : CoreId) (f : FmtM)
  /-- R100: Bantam LDG loads from a global address inside the lease, or from another unit through a remote window. -/
  | ldg (c : CoreId) (f : LoadM)
  /-- R100: Bantam STG stores to a global address inside the lease, or posts a write to another unit. -/
  | stg (c : CoreId) (f : FmtM)
  /-- R161: Bantam atomic ADD on the isle store returns the old value and writes the modular sum. -/
  | amoAdd (c : CoreId) (wide : Bool) (f : FmtA)
  /-- R161: Bantam atomic MIN writes the signed minimum and returns the old value. -/
  | amoMin (c : CoreId) (wide : Bool) (f : FmtA)
  /-- R161: Bantam atomic MAX writes the signed maximum and returns the old value. -/
  | amoMax (c : CoreId) (wide : Bool) (f : FmtA)
  /-- R161: Bantam atomic SWAP writes the operand and returns the old value. -/
  | amoSwap (c : CoreId) (wide : Bool) (f : FmtA)
  /-- R161: Bantam atomic CAS writes B when the old value equals D and returns the old value. -/
  | amoCas (c : CoreId) (wide : Bool) (f : FmtA)
  /-- R111: Bantam atomic FADD32 adds in FP32 and sets the run's non-reproducible flag. -/
  | amoFadd32 (c : CoreId) (f : FmtA)
  /-- R100: Bantam VLDL loads 64 bytes from the local data store. -/
  | vldl (c : CoreId) (f : FmtVM)
  /-- R100: Bantam VSTL stores 64 bytes to the local data store. -/
  | vstl (c : CoreId) (f : FmtVM)
  /-- R100: Bantam VLDG loads 64 bytes from a global address. -/
  | vldg (c : CoreId) (f : LoadVM)
  /-- R100: Bantam VSTG stores 64 bytes to a global address. -/
  | vstg (c : CoreId) (f : FmtVM)
  /-- R113: Bantam BEQ branches when A equals B. -/
  | beq (c : CoreId) (f : FmtB)
  /-- R113: Bantam BNE branches when A differs from B. -/
  | bne (c : CoreId) (f : FmtB)
  /-- R113: Bantam BLT branches when A is less than B, signed. -/
  | blt (c : CoreId) (f : FmtB)
  /-- R113: Bantam BGE branches when A is at least B, signed. -/
  | bge (c : CoreId) (f : FmtB)
  /-- R113: Bantam BLTU branches when A is less than B, unsigned. -/
  | bltu (c : CoreId) (f : FmtB)
  /-- R113: Bantam BGEU branches when A is at least B, unsigned. -/
  | bgeu (c : CoreId) (f : FmtB)
  /-- R113: Bantam JMP jumps by OFF. -/
  | jmp (c : CoreId) (off : BitVec 26)
  /-- R113: Bantam CALL jumps by OFF and writes the return address to g31. -/
  | call (c : CoreId) (off : BitVec 26)
  /-- R115: Bantam JR jumps to A and writes the return address to D. -/
  | jr (c : CoreId) (f : FmtA)
  /-- R108: Bantam VADD adds lane-wise. -/
  | vadd (c : CoreId) (f : FmtV)
  /-- R108: Bantam VSUB subtracts lane-wise. -/
  | vsub (c : CoreId) (f : FmtV)
  /-- R108: Bantam VMUL multiplies lane-wise. -/
  | vmul (c : CoreId) (f : FmtV)
  /-- R108: Bantam VFMA forms VD plus VA times VB, rounded once. -/
  | vfma (c : CoreId) (f : FmtV)
  /-- R108: Bantam VMIN takes the lane-wise minimum with the NaN and signed-zero rules. -/
  | vmin (c : CoreId) (f : FmtV)
  /-- R108: Bantam VMAX takes the lane-wise maximum with the NaN and signed-zero rules. -/
  | vmax (c : CoreId) (f : FmtV)
  /-- R115: Bantam VAND ands lane-wise. -/
  | vand (c : CoreId) (f : FmtV)
  /-- R115: Bantam VOR ors lane-wise. -/
  | vor (c : CoreId) (f : FmtV)
  /-- R115: Bantam VXOR exclusive-ors lane-wise. -/
  | vxor (c : CoreId) (f : FmtV)
  /-- R107: Bantam VSHL shifts integer lanes left. -/
  | vshl (c : CoreId) (f : FmtV)
  /-- R107: Bantam VSHR shifts integer lanes right logically. -/
  | vshr (c : CoreId) (f : FmtV)
  /-- R107: Bantam VSAR shifts integer lanes right arithmetically. -/
  | vsar (c : CoreId) (f : FmtV)
  /-- R115: Bantam VABS takes lane-wise absolute values. -/
  | vabs (c : CoreId) (f : FmtV)
  /-- R115: Bantam VNEG negates lane-wise. -/
  | vneg (c : CoreId) (f : FmtV)
  /-- R115: Bantam VSEL selects VA or VB per lane by predicate. -/
  | vsel (c : CoreId) (f : FmtV)
  /-- R110: Bantam VREDSUM sums unmasked lanes in ascending order into lane 0. -/
  | vredsum (c : CoreId) (f : FmtV)
  /-- R110: Bantam VREDMAX reduces unmasked lanes to their maximum in lane 0. -/
  | vredmax (c : CoreId) (f : FmtV)
  /-- R110: Bantam VREDMIN reduces unmasked lanes to their minimum in lane 0. -/
  | vredmin (c : CoreId) (f : FmtV)
  /-- R112: Bantam VCMP EQ writes a predicate of lane equality. -/
  | vcmpEq (c : CoreId) (f : FmtV)
  /-- R112: Bantam VCMP NE writes a predicate of lane inequality. -/
  | vcmpNe (c : CoreId) (f : FmtV)
  /-- R112: Bantam VCMP LT writes a predicate of signed less-than. -/
  | vcmpLt (c : CoreId) (f : FmtV)
  /-- R112: Bantam VCMP LE writes a predicate of signed less-or-equal. -/
  | vcmpLe (c : CoreId) (f : FmtV)
  /-- R112: Bantam VCMP LTU writes a predicate of unsigned less-than. -/
  | vcmpLtu (c : CoreId) (f : FmtV)
  /-- R109: Bantam VGATE applies a gate function code in COARSE mode to FP32 lanes. -/
  | vgate (c : CoreId) (fn : Byte) (f : FmtV)
  /-- R85: Bantam VCVT converts lanes between format codes with the output conversion rules. -/
  | vcvt (c : CoreId) (fn : Byte) (f : FmtV)
  /-- R115: Bantam BCAST writes G to every lane of VD. -/
  | bcast (c : CoreId) (f : FmtX)
  /-- R115: Bantam INSERT writes G to lane LANE of VD. -/
  | insert (c : CoreId) (f : FmtX)
  /-- R115: Bantam EXTRACT writes lane LANE to G. -/
  | extract (c : CoreId) (f : FmtX)
  /-- R115: Bantam PSET writes G to a predicate register. -/
  | pset (c : CoreId) (f : FmtX)
  /-- R115: Bantam PGET reads a predicate register into G. -/
  | pget (c : CoreId) (f : FmtX)
  /-- R104: Bantam TSIG applies an implicit scope-2 fence and then increments a leased counter. -/
  | tsig (c : CoreId) (f : FmtA)
  /-- R106: Bantam TWAIT holds the core until a counter reaches the target. -/
  | twait (c : CoreId) (f : FmtA)
  /-- R106: Bantam TREAD reads a counter's value into D. -/
  | tread (c : CoreId) (f : FmtA)
  /-- R103: Bantam FENCE holds later accesses until earlier accesses of its scope complete. -/
  | fence (c : CoreId) (f : FmtI)
  /-- R98: Bantam HALT ends the kernel, starts the implicit scope-3 fence and returns the core to keeper mode. -/
  | halt (c : CoreId) (f : FmtA)
  /-- R118: Bantam WAIT places the core in the power state PMODE selects, or completes at once on a pending wake. -/
  | wait (c : CoreId) (f : FmtA)
  /-- R116: Bantam BRK raises BREAKPOINT. -/
  | brk (c : CoreId) (f : FmtA)
  /-- R117: Bantam RESUME copies SAVED_STATUS into STATUS and continues at EPC. -/
  | resume (c : CoreId) (f : FmtA)
  /-- R115: Bantam RING sets the doorbell wake source of another core of the isle. -/
  | ring (c : CoreId) (f : FmtA)
  /-- R115: Bantam CSRR reads a control register into D. -/
  | csrr (c : CoreId) (f : FmtI)
  /-- R115: Bantam CSRW writes A to a control register, subject to keeper mode. -/
  | csrw (c : CoreId) (f : FmtI)
  /-- R102: An outstanding global access of a core completes and frees one of its eight outstanding places. -/
  | globalAccessComplete (c : CoreId)
  /-- R117: The timebase reaching TIMECMP sets wake source 3 of a core. -/
  | timecmpReached (c : CoreId)
  /-- R118: A core leaves nap, doze or off after its wake latency when an enabled wake source is set. -/
  | coreWake (c : CoreId)
  /-- R124: A core that retires nothing for 20 µs outside a wait halts its job and is disabled. -/
  | bantamStall (c : CoreId)
  /-- R121: Every 1 ms the housekeeping core forwards ECC, scrub, pace and patrol counts to the Holm. -/
  | housekeepingReport (isle : Isle)
  /-- R208: The Lamb LGEOM command writes one geometry group. -/
  | lgeom (ctx : Ctx) (isle : Isle) (ops : LgeomOps)
  /-- R210: The Lamb LWLOAD command copies bytes into the parameter buffer. -/
  | lwload (ctx : Ctx) (isle : Isle) (ops : LwloadOps)
  /-- R212: The Lamb PATCH command writes gathered tap and channel elements per output pixel. -/
  | patch (ctx : Ctx) (isle : Isle) (ops : PatchOps)
  /-- R213: The Lamb LCONV command computes a small convolution with bias, COARSE function and output conversion. -/
  | lconv (ctx : Ctx) (isle : Isle) (ops : LconvOps)
  /-- R214: The Lamb POOL command computes max or average pooling over the window. -/
  | pool (ctx : Ctx) (isle : Isle) (ops : PoolOps)
  /-- R215: The Lamb RESAMPLE command upsamples by nearest or bilinear interpolation. -/
  | resample (ctx : Ctx) (isle : Isle) (ops : ResampleOps)
  /-- R216: The Lamb REGROUP command moves pixels between space and channels. -/
  | regroup (ctx : Ctx) (isle : Isle) (ops : RegroupOps)
  /-- R224: One Lamb patrol vector runs in background time and abandons when a command arrives. -/
  | lambPatrolVector (isle : Isle) (miscompare : Option (Fin 2)) (foreground : Bool)
  /-- R225: A Lamb command without completion within twice its cost plus 20 µs halts the job and disables the engine. -/
  | lambStall (isle : Isle)
  /-- R132: The page mover COPY command copies whole pages between a source and a destination. -/
  | copy (ctx : Ctx) (isle : Isle) (ops : CopyOps) (meets : PageMeets)
  /-- R133: The page mover MCAST command copies pages to the same position in every isle of a row or column run. -/
  | mcast (ctx : Ctx) (isle : Isle) (ops : CopyOps) (soundError : Option SoundId)
  /-- R157: A reduce contribution arrives at an adder, opening its line entry if needed and being added in slot or arrival order. -/
  | reduceContribution (ctx : Ctx) (t : TargetId) (c : Contribution)
  /-- R158: A returned contribution is resent by its port after the next park-buffer or open-line release. -/
  | reduceResend (t : TargetId)
  /-- R151: Every 100 ms the controller tracks read timing drift in refresh slots. -/
  | hbmDriftTrack (k : StackId)
  /-- R162: Every 1 ms the controller reads its stack temperature and applies the thermal step for it. -/
  | hbmTemperatureReading (k : StackId) (temp : Int)
  /-- R163: After 10 s at or below 90 °C the stack leaves self-refresh, trains and rejoins the healthy mask. -/
  | hbmStackReturn (k : StackId) (failed : BitVec 32) (stackFailed : Bool) (temp : Int)
  /-- R391: A scrub step reads words or bursts of its target and writes back only corrected values. -/
  | hbmScrubPass (t : ScrubTarget) (offset : Nat) (found : ReadFinding) (cell : Fin 2 × Fin 256 × Fin 512) (endOfPass : Bool)
  /-- R169: At the next background window a marked row with count-0 frame is repaired by sPPR or hPPR, or its frame retired. -/
  | hbmRowRepair (k : StackId) (frame : BitVec 19) (repaired : Bool) (spareRows : List Nat)
  /-- R165: A bank due for test starts migrating into the spare bank through the side path. -/
  | bankRotationStep (isle : Isle)
  /-- R165: When migration ends, the spare takes the tested bank's logical place and that bank leaves the map. -/
  | bankMigrationDone (isle : Isle)
  /-- R166: A bank pattern test ends and its failing cells are classified into line and cell faults. -/
  | bankTestDone (isle : Isle) (cells : List FailCell)
  /-- R68: In the next background window the Holm tries spare-lane steering on a Sound out of service. -/
  | soundLaneSteering (sound : SoundId) (lane : Nat) (spare : Nat) (success : Bool)
  /-- R66: An isle hard fault puts it in FAILED, halts leasing jobs and removes it from the shape. -/
  | isleHardFault (isle : Isle) (block : Byte)
  /-- R67: A waiting planned shape change proceeds once no run of the older epoch is active. -/
  | shapeChangeProceed
  /-- R230: Every second the optical controller samples and normalises each lit laser's bias. -/
  | laserBiasSample (port : Port) (laser : Laser) (bias : Option (BitVec 16))
  /-- R234: Every 1 ms the controller feeds ring and laser heaters forward from the shore-site temperature. -/
  | ringFeedForward (site : Site) (temp : Int)
  /-- R234: A background step re-centres a modulator's set point by at most 0.5 GHz. -/
  | setPointTrim (port : Port) (lane : Lane) (step : Int)
  /-- R235: A ring finishes identify, sweep and pull-in and is locked. -/
  | ringLockAcquired (port : Port) (ring : Ring) (shift : Nat)
  /-- R236: A ring whose lock error exceeds ±2 GHz for 1 ms takes its lane out and searches near the held shift. -/
  | ringUnlocked (port : Port) (ring : Ring) (err : Int)
  /-- R236: A held search without relock within 2 ms falls back to full acquisition. -/
  | ringRelockTimeout (port : Port) (ring : Ring)
  /-- R237: A ring whose heater enters the margin band jumps one free spectral range, its lane out for at most 50 µs. -/
  | ringHop (port : Port) (ring : Ring)
  /-- R241: A due substitution lights the lowest spare and moves lane L to its channel through the lane-move sequence. -/
  | laserSubstitution (port : Port) (lane : Lane)
  /-- R241: Lane L returns to striping on the new channel and the old laser is turned off and marked worn. -/
  | laneReturned (port : Port) (lane : Lane)
  /-- R242: A substitution not back in striping within 50 µs reverts the lane to its old laser and is retried. -/
  | substitutionTimeout (port : Port) (lane : Lane)
  /-- R244: A spare laser is lit for 10 ms and passes or is marked failed. -/
  | spareLaserTest (port : Port) (laser : Laser) (bias : BitVec 16)
  /-- R245: Every in-service lane dark for 10 µs raises LOSS_OF_LIGHT, holds the drop filters and starts the retrain. -/
  | lossOfLight (port : Port) (brightest : Int)
  /-- R245: Every lane lit again for 10 µs makes the drop filters resume lock. -/
  | lightRestored (port : Port)
  /-- R245: One lane dark while others are lit leaves service and raises LANE_DARK. -/
  | laneDark (port : Port) (lane : Lane)
  /-- R246: A cassette presence contact open for 50 ms raises CASSETTE_REMOVED. -/
  | cassetteRemoved (c : Fin 8)
  /-- R246: A cassette presence contact closed for 50 ms raises CASSETTE_INSERTED. -/
  | cassetteInserted (c : Fin 8) (ident : CassetteId)
  /-- R241: A write of LANE_MOVE_NOW starts a substitution of the named lane at the next background slot. -/
  | laneMoveNow (req : Req) (value : BitVec 16)
  /-- R254: A port lights, locks, deskews, exchanges identity and sets up or resumes its link. -/
  | linkBringUp (port : Port) (peer : PeerId) (lock : LaneLock)
  /-- R256: A received flit is accepted in sequence or discarded with NAK_REQ, and its acknowledgement and credit fields are applied. -/
  | flitReceive (port : Port) (f : FlitIn)
  /-- R256: A sender whose ACK_SEQ has not advanced for 10 µs replays, and after 8 replays without progress retrains. -/
  | replayTimeout (port : Port)
  /-- R271: The 500 ms retrain timer expires and the link resets. -/
  | retrainTimerExpiry (port : Port)
  /-- R257: A LANE_MOVE link command takes a lane out of striping at the agreed codeword. -/
  | laneMove (port : Port) (lane : Lane) (channel : Laser) (at_ : BitVec 32)
  /-- R257: A LANE_DROP link command removes a dark or erring lane from striping at the agreed codeword. -/
  | laneDrop (port : Port) (lane : Lane) (at_ : BitVec 32)
  /-- R257: A LANE_ADD link command returns a relocked lane to striping at the agreed codeword. -/
  | laneAdd (port : Port) (lane : Lane) (at_ : BitVec 32)
  /-- R257: A lane symbol error ratio above 10^-4 over 1 s raises LANE_ERRORS and sends LANE_DROP. -/
  | laneErrors (port : Port) (lane : Lane)
  /-- R261: A received READ request is performed in TAG order through an export window or refused with a NAK. -/
  | straitRead (port : Port) (h : ReqHeader)
  /-- R261: A received posted WRITE is performed in TAG order through an export window or refused with a NAK. -/
  | straitWrite (port : Port) (h : ReqHeader) (mask : BitVec 64) (data : List Byte)
  /-- R267: A received REDUCE carries one contribution per line to the target adder. -/
  | straitReduce (port : Port) (h : ReqHeader) (slot slots : BitVec 12) (fmt : BitVec 2) (unordered : Bool) (data : List Byte)
  /-- R263: A received FENCE is answered with a fence-done once earlier requests are performed and acknowledged, clearing an epoch mark. -/
  | straitFence (port : Port) (epoch : Epoch) (tag : BitVec 32)
  /-- R268: A received TOKEN increments a counter in an export token window and may void the receiving run's bound. -/
  | straitToken (port : Port) (h : ReqHeader) (inc : BitVec 14) (void_ : Bool)
  /-- R260: Read data arrives and lands for an RGET or Bantam remote load. -/
  | completionReadData (port : Port) (tag : BitVec 32) (data : List Byte)
  /-- R263: A cumulative acknowledgement covers posted requests up to its TAG. -/
  | completionAck (port : Port) (tag : BitVec 32)
  /-- R264: A NAK fails the named request, poisoning its epoch for posted requests or failing a read. -/
  | completionNak (port : Port) (tag : BitVec 32) (cause : BitVec 4)
  /-- R263: A fence-done arrives and the fence completes, POISONED when its epoch is poisoned. -/
  | completionFenceDone (port : Port) (tag : BitVec 32) (cause : BitVec 4)
  /-- R263: The receiving port sends a cumulative acknowledgement within 1 µs of performing or after 64 unacknowledged requests. -/
  | ackSend (port : Port)
  /-- R264: A posted request unacknowledged 2 ms after sending, counted while UP, fails. -/
  | postedRequestTimeout (port : Port) (tag : BitVec 32)
  /-- R266: A READ without data within 2 ms fails and halts the reading job. -/
  | remoteReadTimeout (port : Port) (tag : BitVec 32)
  /-- R259: The Strait WINDOW command declares a window installed at launch, and in its place only waits and signals. -/
  | window (ctx : Ctx) (port : Port) (ops : WindowOps)
  /-- R260: The Strait RGET command reads remote pages into local pages. -/
  | rget (ctx : Ctx) (port : Port) (ops : RemoteOps)
  /-- R260: The Strait RPUT command posts local pages to a remote address. -/
  | rput (ctx : Ctx) (port : Port) (ops : RemoteOps)
  /-- R267: The Strait RREDUCE command posts reduce contributions to a remote address. -/
  | rreduce (ctx : Ctx) (port : Port) (ops : RemoteOps)
  /-- R263: The Strait RFENCE command completes when every posted request of the epoch is acknowledged or failed. -/
  | rfence (ctx : Ctx) (port : Port)
  /-- R268: The Strait RSIGNAL command sends a TOKEN to a counter of another unit. -/
  | rsignal (ctx : Ctx) (port : Port) (ops : RsignalOps)
  /-- R452: A unit held for reorder with no following unit within 10 µs is sent in its place. -/
  | reorderHoldTimeout (point : Fin 16)
  /-- R280: A write of the producer index to CTX_DOORBELL makes new entries available, or stops the ring when it is out of range. -/
  | ctxDoorbell (fn : FnId) (k : Fin 16) (value : BitVec 32)
  /-- R281: The bridge fetches the next ring entry, stopping the ring on a failed fetch. -/
  | entryFetch (ctx : Ctx) (entry : HostRead)
  /-- R282: A LOAD entry reads the image, validates it, admits it and places it, or refuses it. -/
  | load (ctx : Ctx) (image : HostRead)
  /-- R284: A LAUNCH entry checks its copy tables, reserves staging or waits, and reads IN buffers into staging. -/
  | launch (ctx : Ctx) (inTable outTable : HostRead) (buffers : HostRead)
  /-- R284: Once staging holds the IN data, the unit fills the run's lists and the bridge accepts the launch. -/
  | launchAccept (ctx : Ctx)
  /-- R282: An UNLOAD entry returns the lease and leaves the context EMPTY. -/
  | unload (ctx : Ctx)
  /-- R284: An IN copy's last page becomes visible, it signals its counter and the next IN copy starts. -/
  | inCopyComplete (ctx : Ctx)
  /-- R284: An OUT copy starts once its counter reaches VALUE. -/
  | outCopyStart (ctx : Ctx) (index : Fin 256)
  /-- R284: An OUT copy writes its last page into host memory and frees its staging. -/
  | outCopyComplete (ctx : Ctx)
  /-- R281: A write of CTX_CONTROL ENABLE starts or stops ring fetching. -/
  | ctxEnable (fn : FnId) (k : Fin 16) (enable : Bool)
  /-- R293: A write of 1 to CTX_CONTROL STOP halts the running run with HOST_STOP. -/
  | ctxStop (fn : FnId) (k : Fin 16)
  /-- R281: Clearing CTX_STATUS RING_ERROR restarts fetching from CTX_RING_CONS. -/
  | ctxStatusClear (fn : FnId) (k : Fin 16)
  /-- R277: A write of CTX_OWNER reassigns an EMPTY disabled context, or is ignored and sets CONFIG_ERROR. -/
  | ctxOwner (fn : FnId) (k : Fin 16) (value : BitVec 32)
  /-- R297: A write of 0x5EA7 by a card of the same serial reattaches held contexts and delivers their records. -/
  | fnReattach (fn : FnId) (value : BitVec 32)
  /-- R297: A write of 0xD15C discards the contexts held in HALTED_LINK. -/
  | fnDiscard (fn : FnId) (value : BitVec 32)
  /-- R291: A write of the consumer index frees queue places, delivers pending records and restarts moderation. -/
  | evqCons (fn : FnId) (value : BitVec 32)
  /-- R288: The bridge writes records and then the producer index to host memory as posted writes. -/
  | evqRecordWrite (fn : FnId)
  /-- R291: EVQ_MOD_TIME passing since the first unsignalled record raises MSI-X vector 0. -/
  | evqModTimeout (fn : FnId)
  /-- R287: A host BAR2 access is performed through a valid segment in owned pseudo-channels or refused. -/
  | bar2Access (fn : FnId) (window : Fin 4) (segment : Fin 1024) (offset : BitVec 26) (op : Bar2Op)
  /-- R286: A write of a BAR2 segment entry maps a segment, or is ignored and sets CONFIG_ERROR. -/
  | bar2SegmentWrite (fn : FnId) (index : Fin 4096) (value : Word)
  /-- R292: A write of 1 to MBX_DOORBELL sends the mailbox request to the Holm, or sets OVERRUN or NOT_READY. -/
  | mbxDoorbell (fn : FnId) (value : BitVec 32)
  /-- R295: A function-level reset halts the function's runs, unloads plans and resets its registers within 100 ms. -/
  | functionReset (fn : FnId)
  /-- R294: From PERST# release the bridge answers configuration requests with retry status for at most 500 ms. -/
  | perstRelease (card : Card) (refclk : Bool)
  /-- R297: A bridge presence contact open for 50 ms fails outstanding work, halts its runs and holds its contexts. -/
  | bridgeRemoved (card : Card)
  /-- R297: A bridge presence contact closed for 50 ms starts the card, discarding held contexts of another serial once its link is up. -/
  | bridgeInserted (card : Card) (serial : List Byte) (version : List Byte)
  /-- R298: A shore link going down with the card present pauses host copies and starts the 2 s retry timer. -/
  | shoreLinkRetrain (card : Card)
  /-- R298: The shore link returns within 2 s and replay resumes without loss. -/
  | shoreLinkRetrained (card : Card)
  /-- R298: The 2 s retry timer expires and the bridge is treated as removed. -/
  | shoreLinkRetryExpiry (card : Card)
  /-- R297: Held contexts not reattached 60 s after the shore link is up are discarded. -/
  | contextDiscardTimeout (card : Card)
  /-- R306: At a stint boundary or when idle, a shared engine grants the next stint by served bits, priority and readiness. -/
  | stintGrant (e : SharedEngine) (ready : List ReadyStint)
  /-- R310: The clearing of a returned lease finishes and waiting LOADs continue admission. -/
  | leaseClearDone (ctx : Ctx) (failed : List ClearFailure)
  /-- R327: A Wailest READ returns an object's flags, type and value, or an error. -/
  | wailestRead (req : Req) (obj : ObjName)
  /-- R328: A Wailest WRITE sets an object that has no row of its own, or is refused. -/
  | wailestWrite (req : Req) (obj : ObjName) (value : List Byte)
  /-- R330: A READ_BLOCK takes or reads a snapshot of a large object and returns a segment. -/
  | readBlock (req : Req) (obj : ObjName) (offset : BitVec 32) (count : Byte)
  /-- R331: A WRITE_BLOCK collects a segment and applies the whole value at LAST. -/
  | writeBlock (req : Req) (obj : ObjName) (offset : BitVec 32) (bflags : Byte) (data : List Byte)
  /-- R332: A NOTIFY acknowledges TAKEN records and returns up to three queued event records. -/
  | notify (req : Req) (taken : Byte)
  /-- R336: A SESSION CHALLENGE or read of SESSION_CHALLENGE returns a fresh nonce for the channel. -/
  | sessionChallenge (req : Req) (byRead : Bool)
  /-- R336: A SESSION RESPOND or write of SESSION_RESPONSE checks the HMAC and opens a Custodian session or counts a failure. -/
  | sessionResponse (req : Req) (byWrite : Bool) (response : List Byte)
  /-- R337: A SESSION CLOSE ends the channel's session. -/
  | sessionClose (req : Req)
  /-- R336: A SESSION STATE returns SESSION_STATE as one byte. -/
  | sessionStateQuery (req : Req)
  /-- R322: An N0 frame with bad CRC, length, character errors or gaps is discarded without reply. -/
  | frameDiscard (frame : N0Frame)
  /-- R330: A read snapshot is dropped after 1 s without a READ_BLOCK on the channel. -/
  | snapshotTimeout (ch : Channel)
  /-- R331: A block write in collection is abandoned after 1 s without a segment. -/
  | blockWriteTimeout (ch : Channel)
  /-- R337: A session ends after 300 s without a request on its channel. -/
  | sessionExpiry (ch : Channel)
  /-- R337: A 60 s lock of session opening on a channel ends. -/
  | sessionLockExpiry (ch : Channel)
  /-- R334: A write of 1 to SAVE stores every RWP value in the parameter area. -/
  | save (req : Req) (value : List Byte)
  /-- R335: A write of 1 to RESTORE_DEFAULTS invalidates both copies of the parameter area. -/
  | restoreDefaults (req : Req) (value : List Byte)
  /-- R338: A Custodian write of KEY_ROTATE recovers and stores a new custodian key after checking its proof. -/
  | keyRotate (req : Req) (value : List Byte)
  /-- R350: A received character becomes a receive entry, subject to mute, address match and overrun. -/
  | rxCharacter (port : Fin 2) (c : RxChar)
  /-- R351: A line held at space for one character length places one break entry. -/
  | rxBreak (port : Fin 2)
  /-- R359: An idle line for RX_TIMEOUT bit times flushes the FIFO and closes the block. -/
  | rxTimeout (port : Fin 2)
  /-- R357: An owner read of UART_DATA pops an entry and clears the RC flags of the status mask. -/
  | uartDataRead (port : Fin 2) (by_ : UartMaster)
  /-- R355: An owner write of UART_DATA pushes a transmit entry. -/
  | uartDataWrite (port : Fin 2) (by_ : UartMaster) (value : BitVec 32)
  /-- R357: An owner read of UART_STATUS keeps the value read as the clear mask. -/
  | uartStatusRead (port : Fin 2) (by_ : UartMaster)
  /-- R355: A character or break finishes shifting out and the next entry starts or the driver is released. -/
  | txCharacterSent (port : Fin 2) (mismatch : Bool)
  /-- R354: A write of 1 to MUTE_NOW enters mute at once. -/
  | muteNow (port : Fin 2) (by_ : UartMaster)
  /-- R366: A write of 1 to RX_FLUSH empties the receive FIFO. -/
  | rxFlush (port : Fin 2) (by_ : UartMaster)
  /-- R366: A write of 1 to TX_FLUSH empties the transmit FIFO. -/
  | txFlush (port : Fin 2) (by_ : UartMaster)
  /-- R360: A write of RXDMA_CTRL EN starts receive DMA, writing FIFO contents first, or stops it with DISABLED. -/
  | rxdmaEnable (port : Fin 2) (by_ : UartMaster) (en : Bool)
  /-- R359: A write of 1 to RXDMA_CTRL CLOSE closes the open block with DISABLED. -/
  | rxdmaClose (port : Fin 2) (by_ : UartMaster)
  /-- R361: A write of TXDMA_CTRL EN starts transmit DMA of TXDMA_COUNT characters. -/
  | txdmaEnable (port : Fin 2) (by_ : UartMaster) (en : Bool) (bytes : List Byte)
  /-- R344: A change of NARROWS_OWNER resets the port and raises NARROWS_OWNER_CHANGED. -/
  | narrowsOwner (req : Req) (port : Fin 2) (value : List Byte)
  /-- R363: A write of N0_BAUD changes the N0 rate after the reply is sent. -/
  | n0Baud (req : Req) (value : List Byte)
  /-- R364: An address switch value stable for 1 s becomes the effective node address. -/
  | dipSwitchChange (value : Byte)
  /-- R362: A write of a register with no row of its own sets its fields, or is ignored out of range with CONFIG_ERR. -/
  | registerWrite (w : RegWrite)
  /-- R373: A Sync message updates the offset, stepping the timebase or driving the servo and the lock state. -/
  | ptpSync (offset : Int) (pathDelay : Int)
  /-- R372: An Announce message feeds master selection, which may select or change the master. -/
  | ptpAnnounce (a : Announce)
  /-- R372: No Announce within three intervals moves a LOCKED timebase to HOLDOVER. -/
  | announceTimeout
  /-- R372: The PTP port's link going down moves LOCKED to HOLDOVER. -/
  | ptpLinkDown
  /-- R374: TIME_ERROR_BOUND passing TIME_VALID_LIMIT in holdover raises TIME_VALID_LOST once. -/
  | timeValidLost
  /-- R374: Every 60 s the Holm stores the timebase and OPERATING_SECONDS as state records. -/
  | timebaseStateSave
  /-- R375: OPERATING_SECONDS advances once per second while the Holm is powered. -/
  | operatingSecond
  /-- R377: A coalescing window closes, delivering a non-empty follow-up and opening a new window, or going idle. -/
  | coalesceWindowClose (code : BitVec 16) (src : Source)
  /-- R378: The end of a cap second sends EVENT_SUMMARY to each destination that suppressed records. -/
  | capSecondEnd
  /-- R379: A queued record is programmed and verified into the next slot and its commit byte is set. -/
  | recordStoreProgram (retries : Nat)
  /-- R380: With fewer than 4 erased sectors, the oldest sector's state records are copied forward and it is erased. -/
  | rsReclaim
  /-- R382: A sector erase ends and the sector's health is judged for tired marks or retirement. -/
  | rsEraseComplete (sector : Fin 1024) (ms : Nat)
  /-- R389: An activity whose last complete cycle is older than its limit raises BACKGROUND_OVERDUE. -/
  | backgroundOverdue (activity : Fin 17) (isle : Byte) (inst : Byte) (ageSeconds : Nat)
  /-- R394: A Sound's spare lanes carry PRBS31 for 10 ms and failing lanes are marked failed. -/
  | soundSpareLaneTest (sound : SoundId) (failed : List Nat)
  /-- R395: Unused spare rows are pattern-tested through refresh slots and failures removed. -/
  | hbmSpareRowTest (k : StackId) (bank : Nat) (failed : Nat)
  /-- R400: A DRAIN write to ISLE_SERVICE starts a drain, waiting for or advancing the epoch as the isle leaves the shape. -/
  | isleDrain (req : Req) (isle : Isle)
  /-- R400: When no lease names the isle and no older-epoch run is active, the boundary is held and the isle powers off. -/
  | isleDrainComplete (isle : Isle)
  /-- R400: A drain not complete at DRAIN_TIMEOUT is forced, halting and unloading the remaining runs and plans. -/
  | drainTimeoutExpiry (isle : Isle)
  /-- R398: A write of ISLE_SERVICE_ABORT cancels a drain in phase 1. -/
  | isleServiceAbort (req : Req) (isle : Isle) (value : List Byte)
  /-- R401: A RETEST write powers the isle on and runs the self-tests with the boundary held. -/
  | isleRetest (req : Req) (isle : Isle)
  /-- R402: A retest ends, the isle holding in phase 5 on a pass or going to FAILED on a failure. -/
  | isleRetestComplete (isle : Isle) (o : RetestOutcome)
  /-- R422: A write of 1 to HOLD_RELEASE releases a held boundary of a ready domain, starting Sound tests for a retested isle. -/
  | holdRelease (req : Req) (sub : Byte) (value : List Byte)
  /-- R403: The rejoin Sound tests finish, keeping failing Sounds out or returning the isle to phase 5 without a route. -/
  | soundTestComplete (isle : Isle) (failed : List SoundId)
  /-- R403: A REJOIN write places the isle in phase 7 and requests its shape change. -/
  | isleRejoin (req : Req) (isle : Isle)
  /-- R403: An isle left 3,600 s in phase 5 or 6 without REJOIN is drained to phase 3. -/
  | rejoinIdleTimeout (isle : Isle)
  /-- R404: 60 s after an isle enters FAILED the Holm writes RETEST itself when AUTO_RETEST allows. -/
  | autoRetest (isle : Isle)
  /-- R416: Loss of every supply on a feed lowers the profile to P1 for feed B, or caps power. -/
  | feedLost (feed : Fin 2)
  /-- R416: A feed becomes present again. -/
  | feedRestored (feed : Fin 2)
  /-- R416: Feed B present for 10 s raises the profile to POWER_PROFILE. -/
  | feedBStable
  /-- R410: A supply losing AC or failing reduces the feed capacity and may cap power. -/
  | supplyFailed (supply : Fin 6) (cause : Fin 4)
  /-- R410: An inserted supply adds to its feed's capacity. -/
  | supplyInserted (supply : Fin 6) (serial : List Byte) (ac : Bool)
  /-- R410: A removed supply leaves its feed's capacity. -/
  | supplyRemoved (supply : Fin 6)
  /-- R411: A write of POWER_PROFILE requests a profile, lowering or raising it under the admissibility rules. -/
  | powerProfile (req : Req) (value : List Byte)
  /-- R411: A write of FEED_A_LIMIT or FEED_B_LIMIT is accepted only if the requested profile stays admissible. -/
  | feedLimitWrite (req : Req) (feed : Fin 2) (value : List Byte)
  /-- R413: A slewing set point reaches its target, completing a raise or starting HBM rate changes after a lowering. -/
  | setPointReached
  /-- R414: A stack holds requests, switches its pin rate through self-refresh and resumes at the new rate. -/
  | hbmRateChange (k : StackId)
  /-- R417: Available power at least L for 10 s lifts the cap. -/
  | powerCapCleared
  /-- R430: The hottest junction reaching 100 °C caps power. -/
  | thermalCap (isle : Isle) (temp : Int)
  /-- R430: The hottest junction at or below 90 °C for 10 s lifts the thermal cap. -/
  | thermalCapCleared (temp : Int)
  /-- R431: A junction at 110 °C for 100 ms or inlet at 45 °C for 60 s puts the wafer in W1. -/
  | thermalTrip (src : TripSource) (temp : Int)
  /-- R428: A fan below 70 % of commanded speed for 5 s has failed. -/
  | fanFailed (fan : Fin 10) (measured : Nat)
  /-- R427: A fan module is inserted. -/
  | fanInserted (fan : Fin 10)
  /-- R427: A fan module is removed and its flap closes the slot. -/
  | fanRemoved (fan : Fin 10)
  /-- R429: An inlet reading outside its permitted range for 60 s raises INLET_OUT_OF_RANGE. -/
  | inletOutOfRange (temp : Int)
  /-- R420: A wake source for an isle in I2 raises its rail, wakes its stacks and runs the wake check. -/
  | isleWake (isle : Isle) (src : WakeSource)
  /-- R420: The wake check ends, leaving the local port held or raising a hard fault. -/
  | isleWakeCheckDone (isle : Isle) (failing : Option Byte)
  /-- R420: The Holm wakes every isle in I2 at least every 60 s for background work. -/
  | periodicIsleWake
  /-- R423: A write of SITE_POWER powers a shore site off or on. -/
  | sitePower (req : Req) (site : Site) (value : List Byte)
  /-- R425: A write of 0 to WAFER_STATE_REQUEST brings the wafer from W1 to W0. -/
  | waferToW0 (req : Req) (boot : BootFacts)
  /-- R425: A write of 1 to WAFER_STATE_REQUEST puts the wafer in standby W1. -/
  | waferToW1 (req : Req)
  /-- R425: A write of 3 to WAFER_STATE_REQUEST stores state records and powers the unit off. -/
  | waferToW3 (req : Req)
  /-- R425: Available power at least 10,500 W for 10 s after POWER_INSUFFICIENT returns the wafer to W0. -/
  | powerRecoveredExit (boot : BootFacts)
  /-- R435: AC reaching an inlet or the power button in W3 runs the start-up sequence. -/
  | coldPowerUp (boot : BootFacts)
  /-- R435: A service level not reached within its start-up time raises START_LEVEL_LATE. -/
  | startLevelLate (level : Fin 4)
  /-- R440: RESET_REQUEST:01 halts runs, unloads plans, powers off isles and sites and reruns start-up steps 6 to 12. -/
  | warmReset (req : Req) (boot : BootFacts)
  /-- R444: A Holm restart request stops and restarts the management core and dictionary server. -/
  | holmRestart (req : Req)
  /-- R444: The restarted Holm takes over handed values and delivers held occurrences. -/
  | holmRestartComplete (rejected : List SlotCheck)
  /-- R445: A board controller restart request restarts its firmware with fans and supplies held. -/
  | boardControllerRestart (req : Req)
  /-- R446: A bridge restart request reloads the card's component, taking its links down. -/
  | bridgeRestart (req : Req) (card : Card)
  /-- R439: The Holm watchdog expiring after 1 s without heartbeat restarts the Holm. -/
  | holmWatchdog
  /-- R439: The board controller watchdog expiring after 2 s restarts the board controller. -/
  | boardControllerWatchdog
  /-- R441: A write of FW_STAGE_BEGIN erases the inactive slot and marks it STAGING. -/
  | fwStageBegin (req : Req) (value : List Byte)
  /-- R441: A write of FW_STAGE_DATA programs image bytes at ascending contiguous offsets. -/
  | fwStageData (req : Req) (value : List Byte)
  /-- R441: A write of FW_STAGE_END verifies the staged slot and marks it VALID or INVALID. -/
  | fwStageEnd (req : Req) (value : List Byte)
  /-- R442: A write of FW_ACTIVATE names a valid slot as trial and restarts the Holm and board controller. -/
  | fwActivate (req : Req) (value : List Byte)
  /-- R442: A write of FW_CONFIRM makes the trial slot active. -/
  | fwConfirm (req : Req) (value : List Byte)
  /-- R442: 300 s at S1 or above without a Holm restart confirms the trial slot. -/
  | fwTrialTimer
  /-- R443: A write of SECURITY_VERSION_COMMIT blows fuses to the running bundle's security version. -/
  | securityVersionCommit (req : Req) (value : List Byte)
  /-- R450: A Custodian write configures a field of an injection point, refused while armed. -/
  | injectPoint (req : Req) (point : Fin 16) (sub : Byte) (value : List Byte)
  /-- R456: A write of 1 to INJECT_ARM arms every enabled injection point. -/
  | injectArm (req : Req)
  /-- R456: A write of 0 to INJECT_ARM disarms injection within 10 µs. -/
  | injectDisarm (req : Req)
  /-- R456: INJECT_ARM_LIMIT elapsing after arming disarms injection. -/
  | injectArmLimitExpiry
  /-- R459: A write of STRAIT_LOOPBACK starts or ends a loopback of a Strait port, resetting its link. -/
  | straitLoopback (req : Req) (port : Port) (value : List Byte)
  /-- R459: A write of SHORE_LOOPBACK starts or ends a loopback of a shore link. -/
  | shoreLoopback (req : Req) (card : Card) (value : List Byte)
  /-- R459: A write of SOUND_LOOPBACK starts or ends a loopback of a Sound out of service. -/
  | soundLoopback (req : Req) (sound : SoundId) (value : List Byte)
  /-- R459: A loopback ends after LOOPBACK_DURATION and its error count is reported. -/
  | loopbackDurationExpiry (bits errors : Nat)
  /-- R474: A write of LOCATE blinks the LOCATE indicator for the given seconds, or stops it. -/
  | locate (req : Req) (value : List Byte)
  /-- R474: The LOCATE duration ends and the indicator stops. -/
  | locateExpiry
  /-- R474: A write of LAMP_TEST lights every indicator in each colour for 5 s. -/
  | lampTest (req : Req) (value : List Byte)
  /-- R474: The 5 s lamp test ends and every indicator returns to its present state. -/
  | lampTestEnd
  /-- R475: A press of at least 100 ms in W3 starts a cold power-up, and has no effect otherwise. -/
  | powerButton (ms : Nat) (boot : BootFacts)
  /-- R468: A change of the N0 termination switch acts at once and is reported within 1 s. -/
  | terminationSwitchChange (position : Fin 3)
  /-- R297: A bridge's shore link finishes training after an insertion or at start-up, setting PATH_READY, letting ring fetching start and discarding held contexts of a card with another serial. -/
  | shoreLinkUp (card : Card)
  /-- R355: The N1 CTS input changes, so that with FLOW set a held transmit character may start, and UART_STATUS CTS follows the line. -/
  | ctsChange (active : Bool)
  /-- R410: An installed supply whose feed is still present regains AC good and adds its 3,830 W to the feed's capacity and the available power. -/
  | supplyAcGood (supply : Fin 6)
  /-- R417: The measured input at the AC inlets exceeds L, and the unit caps its power so that the input stays within L. -/
  | inputAboveProfileLimit (watts : Nat)
  /-- R334: The parameter-area write of a SAVE finishes within 1.5 s, raising SETTINGS_SAVED or SETTINGS_SAVE_FAILED, setting the SAVE action state to done or failed and updating UNSAVED. -/
  | saveComplete (ok : Bool)
deriving DecidableEq, Repr

end Sys2Proof
end

