-- ==== Sys2Proof/Decode.lean ====
section
/-! DEFINITION. The word decoder over the rows of spec/opcode_table.json that give bits: no row of this table gives any, the commands of
the block are not words. The words of a Bantam core's instruction store have formats of their own (R113, R115); `decodeBantam` reads
them. -/

namespace Sys2Proof

/-- The command that a word of `nbits` bits spells by the table's bits: none, for any word. -/
def decodeTableWord (_nbits _w : Nat) : Option Instr := none

/-! ### Bantam instruction words (05, Tables 4 and 12) -/

/-- The field of `n` bits of a word whose lowest bit is `lo`. -/
def wordField (n lo w : Nat) : BitVec n := BitVec.ofNat n (w / 2 ^ lo)

def wordA (w : Nat) : FmtA := ⟨wordField 5 21 w, wordField 5 16 w, wordField 5 11 w⟩
def wordI (w : Nat) : FmtI := ⟨wordField 5 21 w, wordField 5 16 w, wordField 16 0 w⟩
def wordM (w : Nat) : FmtM := ⟨wordField 5 21 w, wordField 5 16 w, wordField 2 14 w, wordField 1 13 w == 1, wordField 13 0 w⟩
def wordB (w : Nat) : FmtB := ⟨wordField 5 21 w, wordField 5 16 w, wordField 16 0 w⟩
def wordV (w : Nat) : FmtV := ⟨wordField 4 22 w, wordField 4 18 w, wordField 4 14 w, wordField 3 11 w, wordField 3 8 w⟩
def wordVM (w : Nat) : FmtVM := ⟨wordField 4 22 w, wordField 5 17 w, wordField 3 14 w, wordField 3 11 w, wordField 11 0 w⟩
def wordX (w : Nat) : FmtX := ⟨wordField 4 22 w, wordField 5 17 w, wordField 6 11 w, wordField 3 8 w⟩

/-- An instruction of a core from the fields of its word. -/
abbrev Maker := CoreId → Nat → Instr

def makeA (i : CoreId → FmtA → Instr) : Maker := fun c w => i c (wordA w)
def makeI (i : CoreId → FmtI → Instr) : Maker := fun c w => i c (wordI w)
def makeM (i : CoreId → FmtM → Instr) : Maker := fun c w => i c (wordM w)
def makeB (i : CoreId → FmtB → Instr) : Maker := fun c w => i c (wordB w)
def makeJ (i : CoreId → BitVec 26 → Instr) : Maker := fun c w => i c (wordField 26 0 w)
def makeV (i : CoreId → FmtV → Instr) : Maker := fun c w => i c (wordV w)
def makeVM (i : CoreId → FmtVM → Instr) : Maker := fun c w => i c (wordVM w)
def makeX (i : CoreId → FmtX → Instr) : Maker := fun c w => i c (wordX w)

/-- MAJOR 0x01: FN 0x001 onwards. -/
def fnAlu : List Maker :=
  [.add, .sub, .and, .or, .xor, .shl, .shr, .sar, .slt, .sltu, .mul, .mulh, .mulhu, .div, .divu, .rem, .remu, .min, .max, .clz,
    .popc].map makeA

/-- MAJOR 0x14: FN 0x002 onwards, 32 bits at an even FN and 64 bits at an odd one. -/
def fnAmo : List Maker :=
  [(.amoAdd · false ·), (.amoAdd · true ·), (.amoMin · false ·), (.amoMin · true ·), (.amoMax · false ·), (.amoMax · true ·),
    (.amoSwap · false ·), (.amoSwap · true ·), (.amoCas · false ·), (.amoCas · true ·), .amoFadd32].map makeA

/-- MAJOR 0x30: FN 0x01 onwards. -/
def fnVec : List Maker :=
  [.vadd, .vsub, .vmul, .vfma, .vmin, .vmax, .vand, .vor, .vxor, .vshl, .vshr, .vsar, .vabs, .vneg, .vsel, .vredsum, .vredmax,
    .vredmin].map makeV

/-- MAJOR 0x31: FN 0x01 onwards. -/
def fnCmp : List Maker := [.vcmpEq, .vcmpNe, .vcmpLt, .vcmpLe, .vcmpLtu].map makeV

/-- MAJOR 0x34: FN 0x01 onwards. -/
def fnLane : List Maker := [.bcast, .insert, .extract, .pset, .pget].map makeX

/-- MAJOR 0x38: FN 0x001 onwards. -/
def fnToken : List Maker := [.tsig, .twait, .tread].map makeA

/-- MAJOR 0x3A: FN 0x001 onwards. -/
def fnSystem : List Maker := [.halt, .wait, .brk, .resume, .ring].map makeA

/-- The instruction of a list that begins at FN `first`. -/
def pickFn (l : List Maker) (first fn : Nat) : Option Maker := if fn < first then none else l[fn - first]?

/-- The instruction of a MAJOR and a word (05, Table 12). A reserved MAJOR or FN has none. -/
def majorOf (m w : Nat) : Option Maker :=
  let fnA := w % 2 ^ 11
  let fnV := w % 2 ^ 8
  match m with
  | 0x01 => pickFn fnAlu 1 fnA
  | 0x02 => some (makeI .addi)
  | 0x03 => some (makeI .andi)
  | 0x04 => some (makeI .ori)
  | 0x05 => some (makeI .xori)
  | 0x06 => some (makeI .shli)
  | 0x07 => some (makeI .shri)
  | 0x08 => some (makeI .sari)
  | 0x09 => some (makeI .slti)
  | 0x0A => some (makeI .lui)
  | 0x10 => some (makeM .ldl)
  | 0x11 => some (makeM .stl)
  | 0x12 => some (makeM fun c f => .ldg c ⟨f, .intact⟩)
  | 0x13 => some (makeM .stg)
  | 0x14 => pickFn fnAmo 2 fnA
  | 0x18 => some (makeVM .vldl)
  | 0x19 => some (makeVM .vstl)
  | 0x1A => some (makeVM fun c f => .vldg c ⟨f, .intact⟩)
  | 0x1B => some (makeVM .vstg)
  | 0x20 => some (makeB .beq)
  | 0x21 => some (makeB .bne)
  | 0x22 => some (makeB .blt)
  | 0x23 => some (makeB .bge)
  | 0x24 => some (makeB .bltu)
  | 0x25 => some (makeB .bgeu)
  | 0x26 => some (makeJ .jmp)
  | 0x27 => some (makeJ .call)
  | 0x28 => if fnA = 0 then some (makeA .jr) else none
  | 0x30 => pickFn fnVec 1 fnV
  | 0x31 => pickFn fnCmp 1 fnV
  | 0x32 => if fnV ≤ 0x0B then some fun c w => .vgate c (wordField 8 0 w) (wordV w) else none
  | 0x33 => some fun c w => .vcvt c (wordField 8 0 w) (wordV w)
  | 0x34 => pickFn fnLane 1 fnV
  | 0x38 => pickFn fnToken 1 fnA
  | 0x39 => some (makeI .fence)
  | 0x3A => pickFn fnSystem 1 fnA
  | 0x3B => some (makeI .csrr)
  | 0x3C => some (makeI .csrw)
  | _ => none

/-- The instruction that a word in the instruction store of a core spells; none for an unassigned MAJOR or FN, and so for the all-zero
word (R114). -/
def decodeBantam (c : CoreId) (w : Nat) : Option Instr := (majorOf (w / 2 ^ 26 % 64) w).map fun i => i c w

end Sys2Proof
end

