-- ==== Sys2Proof/Machine/Bytes.lean ====
section
/-! DEFINITION. Bytes and bit fields: little-endian words (R4), bit numbering from the least significant (R4). -/

namespace Sys2Proof.Machine

/-- The low `n` bytes of `v`, least significant first (R4). -/
def leBytes : Nat → Nat → List Byte
  | 0, _ => []
  | n + 1, v => BitVec.ofNat 8 v :: leBytes n (v / 256)

/-- The number that bytes spell, least significant first (R4). -/
def ofBytes : List Byte → Nat
  | [] => 0
  | b :: r => b.toNat + 256 * ofBytes r

/-- Bits [hi:lo] of a number. -/
def bits (v hi lo : Nat) : Nat := v / 2 ^ lo % 2 ^ (hi + 1 - lo)
def bit (v i : Nat) : Bool := v / 2 ^ i % 2 == 1

/-- Field of `n` bytes at byte `o` of a byte string. -/
def fieldAt (bs : List Byte) (o n : Nat) : Nat := ofBytes ((bs.drop o).take n)

/-- `n` bytes at byte `o`. -/
def slice {α : Type} (l : List α) (o n : Nat) : List α := (l.drop o).take n

/-- Two's complement reading of the low `w` bits. -/
def toInt (w v : Nat) : Int := if v % 2 ^ w < 2 ^ (w - 1) then (v % 2 ^ w : Nat) else (v % 2 ^ w : Nat) - (2 ^ w : Nat)
/-- Low `w` bits of an integer in two's complement. -/
def ofInt (w : Nat) (i : Int) : Nat := (i % (2 ^ w : Nat)).toNat

/-- Number of 1 bits among the low `n`. -/
def popcount : Nat → Nat → Nat
  | 0, _ => 0
  | n + 1, v => v % 2 + popcount n (v / 2)

/-- Smallest index below `n` whose bit is 1. -/
def lowestBit (v n : Nat) : Option Nat := (List.range n).find? (bit v)

def setBit (v i : Nat) : Nat := if bit v i then v else v + 2 ^ i
def clearBit (v i : Nat) : Nat := if bit v i then v - 2 ^ i else v

/-- Add to a counter of `w` bits that stops at its greatest value. -/
def satAdd (w v n : Nat) : Nat := Nat.min (v + n) (2 ^ w - 1)
/-- Add to a counter of `w` bits that wraps. -/
def wrapAdd (w v n : Nat) : Nat := (v + n) % 2 ^ w

/-- Of conditions that must not hold, each with the place of its field, the place of the first that holds. -/
def firstBad (l : List (Bool × Nat)) : Option Nat := (l.find? (·.1)).map (·.2)
def noneBad (l : List (Bool × Nat)) : Bool := l.all (!·.1)
/-- Is `v` outside `lo` to `hi`? -/
def beyond (v lo hi : Nat) : Bool := decide (v < lo) || decide (hi < v)

def ceilDiv (a b : Nat) : Nat := (a + b - 1) / b

/-- Is every element different from every other? -/
def allDistinct : List Nat → Bool
  | [] => true
  | x :: r => !(r.contains x) && allDistinct r

@[simp] theorem leBytes_length (n v : Nat) : (leBytes n v).length = n := by
  induction n generalizing v with
  | zero => rfl
  | succ n ih => simp [leBytes, ih]

theorem ofBytes_leBytes (n v : Nat) (h : v < 256 ^ n) : ofBytes (leBytes n v) = v := by
  induction n generalizing v with
  | zero => simp at h; simp [leBytes, ofBytes, h]
  | succ n ih =>
    have : v / 256 < 256 ^ n := by
      rw [Nat.div_lt_iff_lt_mul (by decide)]; simpa [Nat.pow_succ] using h
    simp [leBytes, ofBytes, ih _ this, BitVec.toNat_ofNat]; omega

end Sys2Proof.Machine
end

