-- ==== Sys2Proof/Machine/Codes.lean ====
section
/-! DEFINITION. Error codes: the Reed–Solomon code of an HBM burst (R152), SEC-DED words (R164), and the CRCs of flits and of Wailest frames
(R250, R320). -/

namespace Sys2Proof.Machine

/-! ### RS(36,32) over GF(2^16) (R152) -/

/-- Product in GF(2^w) of the field polynomial `poly`, over the low `n` bits of `b`. -/
def gfMul (w poly a : Nat) : Nat → Nat → Nat
  | 0, _ => 0
  | n + 1, b =>
    let r := gfMul w poly a n (b / 2)
    let d := if bit r (w - 1) then (r * 2) ^^^ poly else r * 2
    if bit b 0 then d ^^^ a else d

/-- x^16 + x^12 + x^3 + x + 1. -/
def hbmPoly : Nat := 0x1100B
def gf16Mul (a b : Nat) : Nat := gfMul 16 hbmPoly a 16 b
/-- α^n, where α is x. -/
def gf16Pow : Nat → Nat
  | 0 => 1
  | n + 1 => gf16Mul (gf16Pow n) 2

/-- Syndrome `j` of a burst, for the generator root α^j. Check symbols make the syndromes of what was stored 0, so those of a burst are those
of its flipped symbols. Symbol `i` of the 36 has the weight α^(i × j) (DESIGN CHOICE, log 164). -/
def rsSyndrome (flips : List (Nat × Nat)) (j : Nat) : Nat :=
  flips.foldl (fun acc f => acc ^^^ gf16Mul (f.2 % 65536) (gf16Pow (f.1 * j))) 0

/-- The one symbol whose flip would give the syndromes of `flips`. -/
def rsLocate (flips : List (Nat × Nat)) : Option Nat :=
  let s := rsSyndrome flips
  (List.range 36).find? fun i => s 0 != 0 && s 1 == gf16Mul (s 0) (gf16Pow i) && s 2 == gf16Mul (s 1) (gf16Pow i) &&
    s 3 == gf16Mul (s 2) (gf16Pow i)

/-- What a read of a stored unit comes to. -/
inductive ReadOutcome where
  | clean
  | corrected
  | uncorrectable
deriving DecidableEq, Repr

/-- The outcome of a read of a burst, and the flips left in it after the correction (R153): none where at most one symbol is in error. -/
def rsRead (found : ReadFinding) : ReadOutcome × List (Nat × Nat) :=
  if found.severe then (.uncorrectable, [])
  else if (List.range 4).all fun j => rsSyndrome found.flips j == 0 then (.clean, found.flips)
  else match rsLocate found.flips with
    | some i => (.corrected, found.flips ++ [(i, rsSyndrome found.flips 0)])
    | none => (.uncorrectable, [])

/-- Data symbol `i` of a burst after the flips of `l`: bytes 2i and 2i + 1. -/
def flipBurst (l : List (Nat × Nat)) (data : List Byte) : List Byte :=
  (List.range 32).flatMap fun i => leBytes 2 ((l.filter (·.1 == i)).foldl (fun v f => v ^^^ (f.2 % 65536)) (fieldAt data (2 * i) 2))

/-! ### SEC-DED (72,64) (R55, R164) -/

/-- Bits of a 72-bit codeword that differ from what was stored. -/
def flippedBits (found : ReadFinding) : List Nat := (List.range 72).filter fun b => (found.flips.map (·.1)).contains b

/-- Outcome of a read of a codeword. Three flips or more, which the code does not promise to detect, are taken as detected (DESIGN CHOICE,
log 164). -/
def secDed (found : ReadFinding) : ReadOutcome :=
  if found.severe || decide (2 ≤ (flippedBits found).length) then .uncorrectable else if (flippedBits found).isEmpty then .clean else .corrected

/-! ### CRCs -/

/-- One bit of a CRC that shifts towards the most significant bit. -/
def crcUp (w poly c : Nat) : Nat := if bit c (w - 1) then (c * 2 % 2 ^ w) ^^^ poly else c * 2 % 2 ^ w
def crcUpByte (w poly : Nat) (c : Nat) (b : Byte) : Nat :=
  (List.range 8).foldl (fun c _ => crcUp w poly c) (c ^^^ (b.toNat * 2 ^ (w - 8)))
/-- A fold over bytes that evaluates each value before it goes on (the choice by its being 0 asks for it), so that evaluation stays shallow. -/
def foldBytes (f : Nat → Byte → Nat) : Nat → List Byte → Nat
  | c, [] => c
  | c, b :: l => if f c b = 0 then foldBytes f 0 l else foldBytes f (f c b) l
/-- CRC-16 of polynomial 0x1021 and initial value 0xFFFF, bits from the most significant (R320). -/
def crc16 (l : List Byte) : Nat := foldBytes (crcUpByte 16 0x1021) 0xFFFF l
/-- One bit of a CRC-32 that shifts towards the least significant bit: 0xEDB8_8320 is 0x04C1_1DB7 with its bits in reverse. -/
def crc32Bit (c : Nat) : Nat := if bit c 0 then (c / 2) ^^^ 0xEDB88320 else c / 2
def crc32Byte (c : Nat) (b : Byte) : Nat := (List.range 8).foldl (fun c _ => crc32Bit c) (c ^^^ b.toNat)
/-- The CRC-32 of IEEE 802.3, whose bits go from the least significant, with its initial ones and its final inversion (R250; the order of
the bits DEDUCED from the standard's name, log 164). -/
def crc32 (l : List Byte) : Nat := foldBytes crc32Byte 0xFFFFFFFF l ^^^ 0xFFFFFFFF

end Sys2Proof.Machine
end

