-- ==== Sys2Proof/Machine/Table.lean ====
section
/-! DEFINITION. Tables of plain data: a family of like things (isles, engines, ports, registers) as key and value pairs with
rising keys. A key that is not listed has the member's reset value, so a table that lists nothing is a family at reset. -/

namespace Sys2Proof.Machine

/-- A family of like things, keyed by number. -/
structure Table (α : Type) where
  rows : List (Nat × α) := []
deriving DecidableEq, Repr

/-- The value listed under `k`. -/
def listFind {α : Type} (k : Nat) : List (Nat × α) → Option α
  | [] => none
  | (j, v) :: r => if j = k then some v else listFind k r

/-- List `v` under `k`, in place of what stood there, keys rising. -/
def listPut {α : Type} (k : Nat) (v : α) : List (Nat × α) → List (Nat × α)
  | [] => [(k, v)]
  | (j, w) :: r => if k < j then (k, v) :: (j, w) :: r else if j = k then (k, v) :: r else (j, w) :: listPut k v r

/-- List nothing under `k`. -/
def listDrop {α : Type} (k : Nat) : List (Nat × α) → List (Nat × α)
  | [] => []
  | (j, w) :: r => if j = k then listDrop k r else (j, w) :: listDrop k r

def Table.find? {α : Type} (t : Table α) (k : Nat) : Option α := listFind k t.rows
/-- The member `k`, at its reset value `d` where nothing is listed. -/
def Table.get {α : Type} (t : Table α) (d : α) (k : Nat) : α := (t.find? k).getD d
def Table.put {α : Type} (t : Table α) (k : Nat) (v : α) : Table α := ⟨listPut k v t.rows⟩
def Table.drop {α : Type} (t : Table α) (k : Nat) : Table α := ⟨listDrop k t.rows⟩
def Table.upd {α : Type} (t : Table α) (d : α) (k : Nat) (f : α → α) : Table α := t.put k (f (t.get d k))
def Table.has {α : Type} (t : Table α) (k : Nat) : Bool := (t.find? k).isSome
def Table.keys {α : Type} (t : Table α) : List Nat := t.rows.map (·.1)
def Table.values {α : Type} (t : Table α) : List α := t.rows.map (·.2)
/-- Every listed member changed by `f`. -/
def Table.map {α : Type} (t : Table α) (f : Nat → α → α) : Table α := ⟨t.rows.map fun r => (r.1, f r.1 r.2)⟩
/-- Only the listed members that `p` keeps. -/
def Table.keep {α : Type} (t : Table α) (p : Nat → α → Bool) : Table α := ⟨t.rows.filter fun r => p r.1 r.2⟩
/-- A table from values, keyed from `k` upward. -/
def Table.ofList {α : Type} (k : Nat) : List α → Table α
  | [] => {}
  | v :: r => (Table.ofList (k + 1) r).put k v

theorem listFind_put_same {α : Type} (k : Nat) (v : α) (l : List (Nat × α)) : listFind k (listPut k v l) = some v := by
  induction l with
  | nil => simp [listPut, listFind]
  | cons x r ih =>
    obtain ⟨j, w⟩ := x
    simp only [listPut]
    split
    · simp [listFind]
    · split <;> rename_i h <;> simp [listFind, h, ih]

theorem listFind_put_other {α : Type} {k j : Nat} (v : α) (l : List (Nat × α)) (h : j ≠ k) :
    listFind j (listPut k v l) = listFind j l := by
  induction l with
  | nil => simp [listPut, listFind, Ne.symm h]
  | cons x r ih =>
    obtain ⟨i, w⟩ := x
    simp only [listPut]
    split
    · simp [listFind, Ne.symm h]
    · split <;> rename_i hi
      · subst hi; simp [listFind, Ne.symm h]
      · simp [listFind, ih]

theorem listFind_drop_same {α : Type} (k : Nat) (l : List (Nat × α)) : listFind k (listDrop k l) = none := by
  induction l with
  | nil => rfl
  | cons x r ih =>
    obtain ⟨j, w⟩ := x
    by_cases h : j = k <;> simp [listDrop, listFind, h, ih]

theorem listFind_drop_other {α : Type} {k j : Nat} (l : List (Nat × α)) (h : j ≠ k) :
    listFind j (listDrop k l) = listFind j l := by
  induction l with
  | nil => rfl
  | cons x r ih =>
    obtain ⟨i, w⟩ := x
    by_cases hi : i = k
    · subst hi; simp [listDrop, listFind, ih, Ne.symm h]
    · simp [listDrop, listFind, hi, ih]

@[simp] theorem Table.find?_put_same {α : Type} (t : Table α) (k : Nat) (v : α) : (t.put k v).find? k = some v :=
  listFind_put_same k v t.rows
@[simp] theorem Table.find?_put_other {α : Type} (t : Table α) {k j : Nat} (v : α) (h : j ≠ k) :
    (t.put k v).find? j = t.find? j := listFind_put_other v t.rows h
@[simp] theorem Table.get_put_same {α : Type} (t : Table α) (d : α) (k : Nat) (v : α) : (t.put k v).get d k = v := by
  simp [Table.get]
@[simp] theorem Table.get_put_other {α : Type} (t : Table α) (d : α) {k j : Nat} (v : α) (h : j ≠ k) :
    (t.put k v).get d j = t.get d j := by simp [Table.get, h]
@[simp] theorem Table.find?_drop_same {α : Type} (t : Table α) (k : Nat) : (t.drop k).find? k = none :=
  listFind_drop_same k t.rows
@[simp] theorem Table.find?_drop_other {α : Type} (t : Table α) {k j : Nat} (h : j ≠ k) :
    (t.drop k).find? j = t.find? j := listFind_drop_other t.rows h
@[simp] theorem Table.get_upd_same {α : Type} (t : Table α) (d : α) (k : Nat) (f : α → α) :
    (t.upd d k f).get d k = f (t.get d k) := by simp [Table.upd]
@[simp] theorem Table.get_upd_other {α : Type} (t : Table α) (d e : α) {k j : Nat} (f : α → α) (h : j ≠ k) :
    (t.upd d k f).get e j = t.get e j := by simp [Table.upd, h]

end Sys2Proof.Machine
end

