-- ==== Sys2Proof/Machine/Record.lean ====
section
/-! DEFINITION. Records and the state of time and recording (17; 13, Table 14). -/

namespace Sys2Proof.Machine

/-- Payload of a completion record (13, Table 14). `success` chooses what bytes 53 to 63 hold: BOUND_NS, or DETAIL. -/
structure Completion where
  status : Nat
  ctx : Nat
  nonRepro : Bool
  refused : Bool
  run : Nat
  tag : Nat
  planId : Nat
  bound : Nat
  detail : List Byte
deriving DecidableEq, Repr

/-- Payload of an accounting record (13, Table 14). -/
structure Accounting where
  ctx : Nat
  run : Nat
  waitSum : Nat
  waitMax : Nat
  preempt : Nat
deriving DecidableEq, Repr

/-- Payload of a record. An event's payload is the list of the values its chapter names, in the order of the naming; the manual
gives most of them no byte positions (log 11). -/
inductive Payload where
  | completion (c : Completion)
  | account (a : Accounting)
  | values (v : List Nat)
  | text (b : List Byte)
deriving DecidableEq, Repr

/-- A record (R369). CLASS 1 completion, 2 event, 3 accounting. `job` is the job context for which an event is formed (R288). -/
structure Rec where
  cls : Nat
  severity : Nat
  code : Nat
  unit : Nat
  src : Source
  rep : Nat
  timeValid : Bool
  isVolatile : Bool
  armed : Bool
  saturated : Bool
  boundVoid : Bool
  first : Nat
  last : Nat
  opSeconds : Nat
  powerCycle : Nat
  job : Option Nat
  payload : Payload
deriving DecidableEq, Repr

/-- A coalescing window of one code and source (R377). -/
structure Coalesce where
  len : Nat
  opened : Nat
  follow : Option Rec
deriving DecidableEq, Repr

/-- What a destination has accepted and suppressed in this second (R378). -/
structure Cap where
  count : Nat := 0
  suppressed : Nat := 0
  codes : Table Nat := {}
  first : Nat := 0
  last : Nat := 0
deriving DecidableEq, Repr

/-- A stored slot: its store sequence number, and a record, or a state record of a kind (R379, R381). -/
inductive Slot where
  | event (seq : Nat) (r : Rec)
  | state (seq : Nat) (kind : Nat)
deriving DecidableEq, Repr

/-- A sector of the record store (R379, R382). -/
structure Sector where
  erases : Nat := 0
  seq : Nat := 0
  slots : List Slot := []
  used : Nat := 0
  erased : Bool := true
  closed : Bool := false
  erasing : Bool := false
  tired : Nat := 0
  retired : Bool := false
deriving DecidableEq, Repr

/-- Values kept as state records: the newest of each kind is current (R381). -/
structure StateRecords where
  timebase : Nat := 0
  hasTimebase : Bool := false
  opSeconds : Nat := 0
  powerCycles : Nat := 0
  epoch : Nat := 0
  shape : Nat := 0
  sounds : List Nat := []
deriving DecidableEq, Repr

/-- The record store, its write queue and the volatile ring (R379 to R384). -/
structure Store where
  sectors : Table Sector := {}
  writing : Option Nat := none
  nextSeq : Nat := 1
  nextSectorSeq : Nat := 1
  queue : List Rec := []
  held : List Rec := []
  lostNow : Nat := 0
  lostFirst : Nat := 0
  lostLast : Nat := 0
  lostTotal : Nat := 0
  stored : Nat := 0
  isVolatile : Bool := false
  critical : Bool := false
  ring : List Rec := []
  kept : StateRecords := {}
deriving DecidableEq, Repr

/-- Recorder: windows by code and source, caps by destination (R376 to R378), lines sent to the console (R365). -/
structure Recorder where
  windows : Table Coalesce := {}
  caps : Table Cap := {}
  console : List (List Byte) := []
  store : Store := {}
deriving DecidableEq, Repr

/-- TIME_STATE (R372). -/
inductive TimeState where
  | free | acquiring | locked | holdover
deriving DecidableEq, Repr

def TimeState.code : TimeState → Nat
  | .free => 0 | .acquiring => 1 | .locked => 2 | .holdover => 3

/-- Timebase and its discipline (R367 to R375; 17, Table 7). `base` is the counter and `frac` its 2^−32 ns fraction. -/
structure Clock where
  base : Nat := 0
  frac : Nat := 0
  incr : Nat := 4 * 2 ^ 32
  ticks : Nat := 0
  state : TimeState := .free
  fromHoldover : Bool := false
  lostRaised : Bool := false
  offset : Int := 0
  inRange : Nat := 0
  outRange : Nat := 0
  holdStart : Nat := 0
  holdSpent : Nat := 0
  master : Nat := 0
  masterPort : Nat := 0
  steps : Nat := 0
  pathDelay : Int := 0
  linkUp : Bool := false
  syncs : Nat := 0
  utcOffset : Int := 0
  opSeconds : Nat := 0
  powerCycles : Nat := 0
deriving DecidableEq, Repr

end Sys2Proof.Machine
end

