-- ==== Sys2Proof/Machine/StraitTypes.lean ====
section
/-! DEFINITION. State of the Strait ports: optics (11) and links with their transactions (12). -/

namespace Sys2Proof.Machine

/-! ### Optics -/

/-- LASER_STATUS state (11, Table 6). -/
inductive LaserState where
  | carrying | spare | failedSpare | worn | failed
deriving DecidableEq, Repr

def LaserState.code : LaserState → Nat
  | .carrying => 0 | .spare => 1 | .failedSpare => 2 | .worn => 3 | .failed => 4

/-- One laser: normalised bias in 10 µA, where one was sampled, whether LASER_HEADROOM_LOW was raised (R240), and seconds lit. -/
structure LaserSt where
  state : LaserState
  bias : Option Nat := none
  lowRaised : Bool := false
  lit : Bool := false
  litSeconds : Nat := 0
deriving DecidableEq, Repr

/-- RING_STATUS state (11, Table 6). -/
inductive RingState where
  | locked | acquiring | jumping | held | failed
deriving DecidableEq, Repr

def RingState.code : RingState → Nat
  | .locked => 0 | .acquiring => 1 | .jumping => 2 | .held => 3 | .failed => 4

/-- One ring: heater shift in 0.01 GHz, lock error in 0.1 GHz, a modulator's set point in 0.01 GHz (R228, R233, R234), and how often its full
acquisition has failed since it was last locked (11, Table 5). -/
structure RingSt where
  state : RingState := .acquiring
  fails : Nat := 0
  shift : Nat := 540000
  err : Int := 0
  setPoint : Int := 0
deriving DecidableEq, Repr

/-- Optical state of a port (11, Table 6). -/
inductive OpticState where
  | dark | acquiring | locked | loss | down
deriving DecidableEq, Repr

def OpticState.code : OpticState → Nat
  | .dark => 0 | .acquiring => 1 | .locked => 2 | .loss => 3 | .down => 4

/-- A substitution under way (R241, R242): its lane, its spare, and whether its LANE_MOVE has taken the lane out of striping. -/
structure Substitution where
  lane : Nat
  spare : Nat
  out : Bool
deriving DecidableEq, Repr

/-! ### Links -/

/-- STRAIT_LINK state (12, Table 10). -/
inductive LinkState where
  | down | training | up | retraining | fenced
deriving DecidableEq, Repr

def LinkState.code : LinkState → Nat
  | .down => 0 | .training => 1 | .up => 2 | .retraining => 3 | .fenced => 4

/-- Transaction types, completions by subtype (12, Table 3). -/
inductive TxKind where
  | read | write | reduce | fence | token | data | ack | nak | fenceDone
deriving DecidableEq, Repr

/-- A transaction (12, Table 3). `operand` holds a byte mask, or SLOT, SLOTS, RFMT and UNORDERED; `cause` the CAUSE or VOID. -/
structure Tx where
  kind : TxKind
  len : Nat := 0
  epoch : Epoch
  tag : Nat
  key : Nat := 0
  addr : Nat := 0
  operand : Nat := 0
  cause : Nat := 0
  data : List Byte := []
deriving DecidableEq, Repr

/-- Where read data lands: bytes of a page, with the page list and index that name it or noPlace, a general register (size, sign extension), a vector register under a predicate with
lanes of `lane` bytes; nowhere (a null page); or, for a posted write of a core, what its acknowledgement frees. -/
inductive Landing where
  | mem (addr list index : Nat)
  | reg (core d size : Nat) (sx : Bool)
  | vec (core vd mask lane : Nat)
  | ack (core : Nat)
  | nowhere
deriving DecidableEq, Repr

/-- A link command (R257; 12, Table 2): LINK_CMD, LINK_LANE, LINK_AT, LINK_CHANNEL; `mine` where this end sent it. -/
structure LinkCmd where
  cmd : Nat
  lane : Nat
  at_ : Nat
  channel : Nat
  mine : Bool
deriving DecidableEq, Repr
/-- A flit of this end (R250): its sequence number, whether it is control-only, its slots, the credits that it returns and its link
command. -/
structure Flit where
  seq : Nat
  control : Bool
  slots : List (List Byte)
  creditReq : Nat
  creditRsp : Nat
  creditTok : Nat
  link : Option LinkCmd
deriving DecidableEq, Repr
/-- A request that is waiting to be sent, or is outstanding (R252, R263, R266). `ctx` and `run` are its epoch's, `unit` the window's
unit. -/
structure Request where
  tx : Tx
  ctx : Nat
  run : Nat
  unit : Nat
  land : Landing := .nowhere
deriving DecidableEq, Repr

/-- One Strait port. The lane map holds the lanes in service. Sequence numbers are of flits; `fill` holds slots that do not fill a flit yet,
`replayBuf` the flits not yet acknowledged; `rxSlots` received slots of a transaction that is not whole, `reqs` and `rsps` the request and
token channels' and the response channel's buffers, in order of arrival; `held` the TAG of a REDUCE whose contributions the adder returned;
`linkCmds` the link commands agreed and not yet in effect; `rxCodeword` the peer's codeword count and `rxMap` its lane-map identifier;
`renumber` whether a write of POD_NUMBER took the link down; `toAck` the performed posted requests not yet acknowledged, up to `lastTag`; `refused` and `silent` the epochs refused
under R262 and under R454; `peerMove` the lane that the peer is moving, with its old channel; `due` the lanes due for
substitution, with `tries`: the spare and how often it failed; `nextTest` the laser from which the next spare test is looked for; `rxTop` the sequence number after the highest one seen. -/
structure PortSt where
  optic : OpticState := .dark
  lanes : List Nat := []
  txChan : Table Nat := {}
  rxChan : Table Nat := {}
  lasers : Table LaserSt := {}
  rings : Table RingSt := {}
  due : List Nat := []
  subst : Option Substitution := none
  peerMove : Option (Nat × Nat) := none
  tries : Table (Nat × Nat) := {}
  nextTest : Nat := 0
  exhausted : Bool := false
  losses : Nat := 0
  substitutions : Nat := 0
  hops : Nat := 0
  link : LinkState := .down
  peer : Option PeerId := none
  txSeq : Nat := 0
  fill : List (List Byte) := []
  replayBuf : List Flit := []
  rxSeq : Nat := 0
  rxTop : Nat := 0
  nakReq : Bool := false
  replays : Nat := 0
  tag : Nat := 0
  creditReq : Nat := 2048
  creditRsp : Nat := 2048
  creditTok : Nat := 64
  rspRoom : Nat := 2048
  owedReq : Nat := 0
  owedRsp : Nat := 0
  owedTok : Nat := 0
  rxSlots : List (List Byte) := []
  reqs : List Tx := []
  rsps : List Tx := []
  held : Option Nat := none
  linkCmds : List LinkCmd := []
  rxCodeword : Nat := 0
  rxMap : Nat := 0
  renumber : Bool := false
  queue : List Request := []
  answers : List Tx := []
  open_ : List Request := []
  refused : List Epoch := []
  silent : List Epoch := []
  toAck : Nat := 0
  lastTag : Nat := 0
  retrainStart : Option Nat := none
  replayed : Nat := 0
  crcErrors : Nat := 0
  cwCorrected : Nat := 0
  cwBad : Nat := 0
  retrains : Nat := 0
  resets : Nat := 0
  naksIn : Nat := 0
  naksOut : Nat := 0
deriving DecidableEq, Repr

/-- A fibre cassette (11, Table 6), with the insertion loss of each fibre in 0.01 dB as its identity memory gives it (R246). -/
structure CassetteSt where
  loss : List Nat := []
  present : Bool := true
  serial : List Byte := []
  insertions : Nat := 0
  changed : Nat := 0
deriving DecidableEq, Repr

/-- Does a core wait for this landing? -/
def Landing.blocks : Landing → Bool
  | .reg _ _ _ _ | .vec _ _ _ _ => true
  | _ => false

structure StraitSt where
  ports : Table PortSt := {}
  siteTemp : Table Int := {}
  cassettes : Table CassetteSt := {}
deriving DecidableEq, Repr

end Sys2Proof.Machine
end

