-- ==== Sys2Proof/Machine/Flits.lean ====
section
/-! DEFINITION. Byte forms of the Straits (12, Tables 2 and 3): transactions in slots of 32 bytes, slots in flits of 256 bytes. -/

namespace Sys2Proof.Machine

/-! ### Transactions in slots (R251) -/

/-- Number that stands at EPOCH (12, Table 3). -/
def epochWord (e : Epoch) : Nat := e.pod.toNat + e.ctx.toNat * 64 + e.run.toNat * 4096

/-- TYPE, and SUBTYPE of a completion (12, Table 3). -/
def TxKind.code : TxKind → Nat × Nat
  | .read => (1, 0) | .write => (2, 0) | .reduce => (3, 0) | .fence => (4, 0) | .token => (5, 0)
  | .data => (6, 0) | .ack => (6, 1) | .nak => (6, 2) | .fenceDone => (6, 3)

/-- The kind of a TYPE and SUBTYPE; a reserved one has none. -/
def TxKind.ofCode (type sub : Nat) : Option TxKind := match type, sub with
  | 1, _ => some .read | 2, _ => some .write | 3, _ => some .reduce | 4, _ => some .fence | 5, _ => some .token
  | 6, 0 => some .data | 6, 1 => some .ack | 6, 2 => some .nak | 6, 3 => some .fenceDone
  | _, _ => none

def TxKind.isCompletion : TxKind → Bool
  | .data | .ack | .nak | .fenceDone => true
  | _ => false

/-- Does a transaction of the kind bring data slots? A READ's LEN is what it asks for, a NAK's that of the refused request. -/
def TxKind.brings : TxKind → Bool
  | .write | .reduce | .data => true
  | _ => false

/-- FLAGS: VOID of a TOKEN, SUBTYPE and CAUSE of a completion. -/
def Tx.flags (t : Tx) : Nat :=
  if t.kind.isCompletion then t.kind.code.2 + t.cause * 16 else if t.kind = .token then t.cause else 0

/-- The header slot (12, Table 3). -/
def Tx.header (t : Tx) : List Byte :=
  leBytes 1 t.kind.code.1 ++ leBytes 1 t.flags ++ leBytes 2 t.len ++ leBytes 4 (epochWord t.epoch) ++ leBytes 4 t.tag ++
    leBytes 4 t.key ++ leBytes 8 t.addr ++ leBytes 8 t.operand

/-- Bytes in slots of 32, the last filled with zeros. -/
def slotsOf : Nat → List Byte → List (List Byte)
  | 0, _ => []
  | n + 1, l => (l.take 32 ++ List.replicate (32 - (l.take 32).length) 0) :: slotsOf n (l.drop 32)

/-- Slots of a transaction: its header and its data (R251). -/
def Tx.slots (t : Tx) : Nat := 1 + ceilDiv t.data.length 32

/-- The slots of a transaction, in order. -/
def Tx.slotBytes (t : Tx) : List (List Byte) := t.header :: slotsOf (ceilDiv t.data.length 32) t.data

/-- The transaction of a header slot, without its data; none where TYPE or SUBTYPE is reserved. -/
def readHeader (b : List Byte) : Option Tx :=
  let flags := fieldAt b 1 1
  (TxKind.ofCode (fieldAt b 0 1) (flags % 16)).map fun k =>
    { kind := k, len := fieldAt b 2 2,
      epoch := ⟨BitVec.ofNat 6 (fieldAt b 4 4), BitVec.ofNat 6 (fieldAt b 4 4 / 64), BitVec.ofNat 16 (fieldAt b 4 4 / 4096)⟩,
      tag := fieldAt b 8 4, key := fieldAt b 12 4, addr := fieldAt b 16 8, operand := fieldAt b 24 8,
      cause := if k.isCompletion then flags / 16 else flags }

/-- Length, alignment and the 4-KiB rule of a memory request (R251). -/
def spanOk (addr len : Nat) : Bool :=
  decide (1 ≤ len) && decide (len ≤ 4096) && addr % Nat.min len 64 == 0 && decide (addr % 4096 + len ≤ 4096)

/-- A header with a reserved value or bit, or a field out of its range (R6, R8; 12, Tables 3 and 8), is rejected. -/
def headerOk (b : List Byte) (t : Tx) : Bool :=
  decide (fieldAt b 4 4 < 2 ^ 28) && (match t.kind with
  | .read => t.cause == 0 && spanOk t.addr t.len && t.operand == 0
  | .write => t.cause == 0 && spanOk t.addr t.len && (decide (t.len ≤ 64) || t.operand == 0)
  | .reduce => t.cause == 0 && spanOk t.addr t.len && t.addr % 64 == 0 && t.len % 64 == 0 && decide (t.operand < 2 ^ 27)
  | .fence => t.cause == 0 && t.len == 0 && t.operand == 0
  | .token => decide (t.cause < 2) && t.len == 0 && decide (t.addr < 2 ^ 32) && !(beyond (t.addr / 2 ^ 18) 1 1023) && t.operand == 0
  | .data => t.cause == 0 && decide (1 ≤ t.len) && decide (t.len ≤ 4096) && t.operand == 0
  | .ack => t.cause == 0 && t.len == 0 && t.operand == 0
  | .nak => !(beyond t.cause 1 6) && decide (t.len ≤ 4096)
  | .fenceDone => decide (t.cause ≤ 6) && t.len == 0 && t.operand == 0)

/-- Data slots that follow a header. -/
def Tx.dataSlots (t : Tx) : Nat := if t.kind.brings then ceilDiv t.len 32 else 0

/-- What the head of a slot stream holds: a whole transaction, something rejected with the number of its slots, or too little yet. -/
inductive Parsed where
  | tx (t : Tx) (rest : List (List Byte))
  | rejected (t : Option Tx) (n : Nat) (rest : List (List Byte))
  | more
deriving DecidableEq, Repr

/-- Read the head of a slot stream. A rejected transaction goes with its data slots; a reserved TYPE or SUBTYPE has none (log 57). -/
def parseSlots : List (List Byte) → Parsed
  | [] => .more
  | b :: rest => match readHeader b with
    | none => .rejected none 1 rest
    | some t =>
      if rest.length < t.dataSlots then .more
      else if !(headerOk b t) then .rejected (some t) (1 + t.dataSlots) (rest.drop t.dataSlots)
      else .tx { t with data := ((rest.take t.dataSlots).flatten).take (if t.kind.brings then t.len else 0) } (rest.drop t.dataSlots)

/-! ### Flits (R250; 12, Table 2) -/

/-- The 252 bytes of a flit that its CRC covers, with the ACK_SEQ and NAK_REQ of the moment of sending. -/
def Flit.body (f : Flit) (ack : Nat) (nak : Bool) : List Byte :=
  leBytes 2 f.seq ++ leBytes 2 ack ++ leBytes 1 ((if f.control then 1 else 0) + if nak then 4 else 0) ++
    leBytes 1 (2 ^ f.slots.length - 1) ++ leBytes 2 0 ++ leBytes 2 f.creditReq ++ leBytes 2 f.creditRsp ++ leBytes 2 f.creditTok ++
    (match f.link with
      | some c => leBytes 1 c.cmd ++ leBytes 1 c.lane ++ leBytes 4 c.at_ ++ leBytes 1 c.channel
      | none => leBytes 7 0) ++
    leBytes 7 0 ++ f.slots.flatten ++ List.replicate (32 * (7 - f.slots.length)) 0

/-- The 256 bytes of a flit. -/
def Flit.bytes (f : Flit) (ack : Nat) (nak : Bool) : List Byte := f.body ack nak ++ leBytes 4 (crc32 (f.body ack nak))

/-- A flit with the named bits flipped (R452): bit `n` is bit n mod 8 of byte n / 8. -/
def flipBits (l : List Byte) (flips : List Nat) : List Byte :=
  flips.foldl (fun l n => l.modify (n / 8) fun b => b ^^^ BitVec.ofNat 8 (2 ^ (n % 8))) l

/-- The link header of a received flit. -/
structure LinkHeader where
  seq : Nat
  ack : Nat
  kind : Nat
  nak : Bool
  valid : Nat
  creditReq : Nat
  creditRsp : Nat
  creditTok : Nat
  link : Option LinkCmd
deriving DecidableEq, Repr

def readLink (b : List Byte) : LinkHeader :=
  { seq := fieldAt b 0 2, ack := fieldAt b 2 2, kind := fieldAt b 4 1 % 4, nak := bit (fieldAt b 4 1) 2, valid := fieldAt b 5 1
    creditReq := fieldAt b 8 2, creditRsp := fieldAt b 10 2, creditTok := fieldAt b 12 2
    link := if fieldAt b 14 1 = 0 then none else some ⟨fieldAt b 14 1, fieldAt b 15 1, fieldAt b 16 4, fieldAt b 20 1, false⟩ }

/-- Length and CRC of a flit (R250). -/
def flitIntact (b : List Byte) : Bool := b.length == 256 && fieldAt b 252 4 == crc32 (b.take 252)

/-- A link header with a reserved value or bit (R6, R8; 12, Table 2). -/
def flitReserved (b : List Byte) : Bool :=
  decide (2 ≤ fieldAt b 4 1 % 4) || decide (8 ≤ fieldAt b 4 1) || decide (128 ≤ fieldAt b 5 1) || fieldAt b 6 2 != 0 ||
    decide (4 ≤ fieldAt b 14 1) || fieldAt b 21 7 != 0

/-- The valid slots of a flit, in order. -/
def validSlots (b : List Byte) : List (List Byte) :=
  ((List.range 7).filter (bit (fieldAt b 5 1))).map fun n => slice b (28 + 32 * n) 32

end Sys2Proof.Machine
end

