-- ==== Sys2Proof/Config.lean ====
section
/-! DEFINITION. What manufacture or the world fixes and the manual does not give as a number, and the free values.
Every constant here is opaque: no proof can see its value, so a claim holds whatever it is. -/

namespace Sys2Proof.Config

/-- R64: the isles not enabled at manufacture, four at the most, since the licensed shape holds at least 60. UNVERIFIED which; log 10. -/
opaque unlicensedIsle : Fin 4 → Option (Fin 64)
/-- R64: is an isle in the licensed shape? -/
def licensed (i : Nat) : Bool := decide (i < 64) && (List.range 4).all fun n => (unlicensedIsle (Fin.ofNat 4 n)).map (·.val) != some i
/-- R64: the licensed shape, bit n for isle n. -/
def licensedShape : BitVec 64 := BitVec.ofNat 64 (((List.range 64).filter licensed).map (2 ^ ·)).sum
/-- 0x1001 UNIT_SERIAL, 12 ASCII bytes `FW1-` and 8 digits; log 10. -/
opaque unitSerial : List Byte
/-- R336: the 32-byte custodian key set at manufacture; log 10. -/
opaque custodianKey : List Byte
/-- R240: initial (manufacture) bias of laser `n` of port `p`, in 10 µA; log 10. -/
opaque laserInitialBias : Port → Laser → Nat
/-- R167, R395: spare rows present at manufacture in a bank of a stack; log 10. -/
opaque hbmSpareRows : Nat
/-- R433: does this ECDSA P-384 signature over this SHA-384 digest verify under the Salraette key? The key is not in the
manual; log 9. -/
opaque signatureValid : List Byte → List Byte → Bool
/-- R336: the byte of index `i` of the `n`-th nonce of the Holm's random source. A free value; log 8. -/
opaque nonceByte : Nat → Nat → Byte
/-- R86: the PRECISE value of function code `f` at FP32 bits `x` that an engine aims at, where the table gives no exact result. A free
value, which Sys2Proof.Machine.preciseGate holds within the manual's 2 ulp of BF16; log 7. -/
opaque preciseGate : Nat → BitVec 32 → BitVec 32
/-- A free 64-bit value for the `n`-th result that the manual leaves without a value; log 13. -/
opaque freeWord : Nat → BitVec 64
/-- A free 64-bit value that only the given numbers decide, so that the same operation on the same data has the same result (R16); log 13. -/
opaque freeOf : List Nat → BitVec 64

/-- Byte `i` of the payload of an event record of code `c` with values `v`: the manual gives most events no byte positions. A free
value; log 11. -/
opaque payloadByte : Nat → List Nat → Nat → Byte
/-- Version number that ISLE_MICROCODE shows for the microcode of a bundle of this VERSION; log 10. -/
opaque microcodeVersion : List Byte → Nat

/-- Stands for q_t of a transfer that enters the wafer at an edge isle outside the lease, by Sound port (isle × 4 + direction): R180
gives no share there. A free value; log 152. -/
opaque unleasedShare : Nat → Nat

/-- What a sensor shows: the reading of the object of this key (index × 256 + subindex, a LASER_STATUS launch counted on from it) at a
tick. The manual names the reading and gives no value; a free value, log 74. -/
opaque sensor : Nat → Nat → Nat
/-- The text that a STR object shows while there is nothing to show (an absent part's serial), by object key. A free value; log 74. -/
opaque unsetText : Nat → List Byte

/-- What the tests of the `n`-th bring-up give where the command that starts it carries no facts: a WRITE of WAFER_STATE_REQUEST or of
RESET_REQUEST through the general write rows. A free value; log 94. -/
opaque bootFacts : Nat → BootFacts

end Sys2Proof.Config
end

