-- ==== Sys2Proof/Machine/Console.lean ====
section
/-! DEFINITION. The lines that the Holm sends on the console (16, R365; 20, R438). -/

namespace Sys2Proof.Machine

/-- Names of the event codes: the first code of a run of consecutive codes, and their names (17, Table 8). -/
def eventRuns : List (Nat × List String) :=
  [(0x0100, ["PROFILE_CHANGED", "FEED_LOST", "FEED_RESTORED", "SUPPLY_FAILED", "SUPPLY_REMOVED", "SUPPLY_INSERTED", "POWER_CAPPED",
   "POWER_CAP_CLEARED", "POWER_INSUFFICIENT", "HBM_RATE_CHANGED"]), (0x0110, ["FAN_FAILED", "FAN_REDUNDANCY_LOST", "FAN_REMOVED",
   "FAN_INSERTED"]), (0x0118, ["INLET_OUT_OF_RANGE", "THERMAL_CAP", "THERMAL_CAP_CLEARED", "THERMAL_TRIP"]), (0x0120,
   ["WAFER_STATE_CHANGED", "HOLD_RELEASED", "HOLD_WAKE_CHECK_FAILED"]), (0x0210, ["PACE_BELOW_FLOOR", "PACE_RESTORED"]), (0x0220,
   ["SHAPE_CHANGED", "ISLE_FAILED", "ISLE_STRANDED", "SOUND_UNCORRECTABLE", "SOUND_LANE_STEERED", "SHAPE_CHANGE_WAITING"]), (0x0230,
   ["SERVICE_LEVEL_CHANGED"]), (0x0240, ["OX_ARRAY_PARITY", "OX_STALL", "OX_DISABLED"]), (0x0250, ["BANTAM_DOUBLE_FAULT",
   "BANTAM_DISABLED", "BANTAM_STALL", "HOUSEKEEPING_MOVED"]), (0x0260, ["LAMB_PARITY", "LAMB_STALL", "LAMB_DISABLED"]), (0x0300,
   ["HBM_CORRECTED", "HBM_UNCORRECTABLE", "HBM_ROW_REPAIRED", "HBM_FRAME_RETIRED", "HBM_TRAINING_FAILED"]), (0x0310, ["HBM_THROTTLE",
   "HBM_THROTTLE_CLEAR", "HBM_THERMAL_PROTECT"]), (0x0320, ["ISLE_STORE_CORRECTED", "ISLE_STORE_UNCORRECTABLE", "SENSE_LINE_OPEN",
   "ISLE_STORE_ROW_SPARED", "ISLE_STORE_BANK_RETIRED", "ISLE_STORE_NO_SPARE", "ISLE_STORE_STEP_DISABLED"]), (0x0330,
   ["OX_OPERAND_CORRECTED", "OX_OPERAND_UNCORRECTABLE", "BANTAM_STORE_CORRECTED", "BANTAM_STORE_UNCORRECTABLE"]), (0x0340,
   ["PAGE_SHARED_WRITE", "REFCOUNT_FULL"]), (0x0350, ["REDUCE_SLOT_ERROR", "REDUCE_PARK_FULL"]), (0x0401, ["LASER_HEADROOM_LOW",
   "LASER_SUBSTITUTED", "LASER_SPARES_EXHAUSTED", "LASER_FAILED", "PORT_WIDTH_REDUCED", "PORT_DOWN", "RING_UNLOCKED", "RING_HOP",
   "RING_LOCK_FAILED", "LANE_DARK", "LOSS_OF_LIGHT", "LIGHT_RESTORED", "SPARE_LASER_FAILED", "CASSETTE_REMOVED", "CASSETTE_INSERTED"])] ++
  [(0x0420, ["LINK_UP", "LINK_RETRAIN", "LINK_RETRAINED", "LINK_RESET", "PEER_CHANGED", "POD_NUMBER_CONFLICT", "LANE_ERRORS"]), (0x0428,
   ["WRITE_LOST_REMOTE", "FENCE_POISONED", "REMOTE_READ_FAILED", "REMOTE_ACCESS_REFUSED"]), (0x0500, ["BRIDGE_INSERTED", "BRIDGE_REMOVED",
   "BRIDGE_LOST", "SHORE_LINK_RETRAIN", "SHORE_LINK_RETRAINED", "SHORE_LINK_UP", "CONTEXTS_REATTACHED", "CONTEXTS_DISCARDED"]), (0x0510,
   ["EVQ_OVERFLOW", "RING_ENTRY_INVALID", "BAR2_ACCESS_REFUSED", "RING_FETCH_FAILED"]), (0x0520, ["RUN_COMPLETE", "LOAD_COMPLETE",
   "UNLOAD_COMPLETE", "RUN_ACCOUNT"]), (0x0601, ["PLAN_MAGIC_BAD", "PLAN_LAYOUT_BAD", "RESERVED_NONZERO", "PROFILE_TOO_LOW",
   "COMMAND_INVALID", "LEASE_VIOLATION", "LENGTH_OVER_BUFFER", "PAGE_LIST_BOUNDS", "TOKEN_UNDECLARED", "TOKEN_IMBALANCE",
   "TOKEN_UNREACHABLE", "STINT_OVER_CAP", "BG_WINDOW_MISSING", "BOUND_MISMATCH", "BOUND_UNDERSTATED", "SHAPE_MISMATCH"]), (0x0620,
   ["TOKEN_SATURATED", "TOKEN_FINAL_MISMATCH", "TOKEN_DEADLOCK", "KERNEL_OVER_BUDGET", "ADDRESS_OUTSIDE_LEASE", "BOUND_OVERRUN",
   "BANTAM_EXCEPTION"]), (0x0630, ["KV_EXHAUSTED", "STRAIT_PEER_UNAVAILABLE"]), (0x0640, ["HOST_COPY_INVALID", "CONTEXT_BUSY",
   "HOST_STOP", "HOST_READ_FAILED", "FUNCTION_RESET", "STAGING_EXCEEDED"]), (0x0650, ["ADMIT_CONFLICT", "WEAVE_UNDERSTATED",
   "WEAVE_DISPLACES", "WEAVE_OVERRUN", "LEASE_CLEAR_FAILED"]), (0x0700, ["ISLE_DRAIN_STARTED", "ISLE_DRAINED", "ISLE_DRAIN_FORCED",
   "ISLE_RETEST_PASSED", "ISLE_RETEST_REDUCED", "ISLE_RETEST_FAILED", "ISLE_REJOINED", "ISLE_MICROCODE_FAILED"])] ++
  [(0x0710, ["BACKGROUND_OVERDUE"]), (0x0800, ["TIME_LOCKED", "TIME_HOLDOVER", "TIME_VALID_LOST", "TIME_STEPPED", "TIME_UNLOCKED",
   "PTP_MASTER_CHANGED", "PTP_LINK_DOWN"]), (0x0810, ["RS_SECTOR_TIRED", "RS_SECTOR_RETIRED", "RS_WEAR_CRITICAL", "RS_VOLATILE",
   "RS_RECORDS_DROPPED"]), (0x0820, ["EVENT_SUMMARY"]), (0x0901, ["NARROWS_FRAMING", "NARROWS_PARITY", "NARROWS_BREAK", "NARROWS_OVERRUN",
   "NARROWS_BUF_FULL", "NARROWS_CONTENTION", "NARROWS_OWNER_CHANGED", "N0_ADDRESS_CHANGED", "N0_ADDRESS_INVALID"]), (0x0A00,
   ["FAULT_INJECTION_ARMED", "FAULT_INJECTION_DISARMED", "INJECTION_FIRED", "LOOPBACK_STARTED", "LOOPBACK_ENDED"]), (0x0B10,
   ["OX_PATROL_FAIL", "OX_COLUMN_STEERED", "LAMB_PATROL_FAIL"]), (0x0B20, ["SOUND_SPARE_LANE_FAILED", "HBM_REPAIR_LOW"]), (0x0F00,
   ["UNIT_STARTED", "FW_IMAGE_REJECTED", "FW_ROLLBACK", "FW_STAGED", "FW_STAGE_FAILED", "FW_ACTIVATED", "FW_CONFIRMED", "HOLM_RESTARTED",
   "BOARD_CONTROLLER_RESTARTED", "WARM_RESET", "ISLE_BRINGUP_FAILED", "BRIDGE_FW_PENDING", "SECURITY_VERSION_COMMITTED",
   "START_LEVEL_LATE"]), (0x0F40, ["SESSION_OPENED", "SESSION_AUTH_FAILED", "SESSION_LOCKED", "SETTINGS_SAVED", "SETTINGS_SAVE_FAILED",
   "CUSTODIAN_KEY_ROTATED", "NOTIFY_OVERFLOW"])]

/-- The name of an event code. -/
def eventName (code : Nat) : String :=
  match eventRuns.find? fun r => decide (r.1 ≤ code) && decide (code < r.1 + r.2.length) with
  | some r => r.2.getD (code - r.1) ""
  | none => ""

/-- A text in 7-bit ASCII. -/
def ascii (t : String) : List Byte := t.toList.map fun c => BitVec.ofNat 8 c.toNat

/-- The lowest `w` digits of a number in a base up to 16, the highest first. DESIGN CHOICE: hexadecimal digits above 9 are A to F (log 181). -/
def digits (base : Nat) : Nat → Nat → List Byte
  | 0, _ => []
  | w + 1, v => digits base w (v / base) ++ [BitVec.ofNat 8 (v % base + (if v % base < 10 then 48 else 55))]

/-- A number below 10^20 in decimal with no leading zero. -/
def decimal (v : Nat) : List Byte :=
  let z := (digits 10 19 (v / 10)).dropWhile (· == 48)
  z ++ digits 10 1 v

/-- Seconds and nine digits of nanoseconds. DESIGN CHOICE: a point stands between them (log 181). -/
def timeText (ns : Nat) : List Byte := decimal (ns / 1000000000) ++ ascii "." ++ digits 10 9 ns

/-- Fields separated by single spaces and ended by CR LF. -/
def consoleLine (fields : List (List Byte)) : List Byte := (List.intersperse (ascii " ") fields).flatten ++ [13, 10]

/-- The line of an event record (R365). -/
def Rec.line (r : Rec) : List Byte :=
  consoleLine [timeText r.first, decimal r.severity, ascii "0x" ++ digits 16 4 r.code, ascii (eventName r.code),
    (List.intersperse (ascii ":") [decimal r.unit, decimal r.src.isle.toNat, decimal r.src.block.toNat, decimal r.src.inst.toNat]).flatten,
    ascii "rpt=" ++ decimal r.rep]

/-- Keywords of the steps of 20, Table 5 (R438). -/
def stepKeywords : List String :=
  ["bc", "power", "bridge", "holm", "store", "rails", "microcode", "isles", "air", "shape", "retry", "join"]

/-- The line that ends start-up step `n` at service level `level`; `now` is none before the timebase starts (R438). -/
def stepLine (n : Nat) (now : Option Nat) (level : Nat) : List Byte :=
  consoleLine [now.elim (ascii "-") timeText, ascii "boot", decimal n, ascii (stepKeywords.getD (n - 1) ""), ascii "S" ++ decimal level]

end Sys2Proof.Machine
end

