-- ==== Sys2Proof/Machine/CoreTypes.lean ====
section
/-! DEFINITION. State of the Bantam cores (05) and of the memories of an isle (07). -/

namespace Sys2Proof.Machine

/-- Power state of a core (05, Table 5). `run` is none of them. -/
inductive CorePower where
  | run | nap | doze | off
deriving DecidableEq, Repr

/-- An outstanding global access of a core (R102, R103): its FENCE scope, 1 to 3, and whether it awaits only a response of HBM or of
another unit (R99). -/
structure OpenAccess where
  scope : Nat
  clocked : Bool
deriving DecidableEq, Repr
/-- A kernel that has ended and whose implicit fence is open (R98): its job context, the address of its last instruction, and its accesses
still outstanding. -/
structure Draining where
  ctx : Nat
  pc : Nat
  outstanding : List OpenAccess
deriving DecidableEq, Repr
/-- One Bantam core (05, Tables 1, 14 to 17). Registers not listed hold 0. `outstanding` lists the outstanding global accesses of what the
core executes, oldest first; `waiting` is a wait for remote data; `draining` the kernels that have ended and whose implicit fence is open; `twait` is the counter (isle × 4,096 + index) and the target of the last TWAIT that had to wait (R106);
`lastDouble` is the tick of the last double fault. -/
structure CoreSt where
  g : Table Word := {}
  v : Table (BitVec 512) := {}
  p : Table Word := {}
  pc : Word := 0
  status : Word := 0
  cause : Word := 0
  epc : Word := 0
  trapAddr : Word := 0
  trapTab : Word := 0x2F000
  idlePc : Word := 0
  saved : Word := 0
  pmode : Word := 0
  wakeMask : Word := 0
  wakeCause : Word := 0
  timecmp : Word := 0
  watch : Word := 0
  beats : Nat := 0
  budget : Nat := 0
  hbmLeft : Nat := 0
  straitLeft : Nat := 0
  hbmOn : Bool := false
  straitOn : Bool := false
  job : Option Nat := none
  outstanding : List OpenAccess := []
  waiting : Bool := false
  draining : List Draining := []
  twait : Option (Nat × Nat) := none
  power : CorePower := .run
  disabled : Bool := false
  lastDouble : Option Nat := none
deriving DecidableEq, Repr

/-- BANTAM_STATUS counts of an isle (05, Table 18). -/
structure BantamCounts where
  housekeeper : Nat := 15
  kernels : Nat := 0
  exceptions : Nat := 0
  corrected : Nat := 0
  uncorrectable : Nat := 0
  lastCause : Word := 0
  lastEpc : Word := 0
  lastAddr : Word := 0
deriving DecidableEq, Repr

/-- An open reduce line (R157): its address, SLOTS, mode and format, the next expected slot of an ordered sum, the slots added, its
bytes at the opening, the accumulated lanes, and the contributions added, in order. A lane not listed has been named by no contribution. -/
structure OpenLine where
  offset : Nat
  ctx : Nat
  slots : Nat
  unordered : Bool
  fmt : Nat
  next : Nat
  added : List Nat
  prior : List Byte
  lanes : Table Nat
  adds : List Contribution
deriving DecidableEq, Repr

/-- A contribution held in the park buffer or returned to its port (R158), with the engine or port that sends it. -/
structure Parked where
  ctx : Nat
  src : Source
  c : Contribution
deriving DecidableEq, Repr

/-- A memory-side adder: one per stack and one per isle store (R157 to R160). -/
structure AdderSt where
  lines : Table OpenLine := {}
  park : List Parked := []
  returned : List Parked := []
  highWater : Nat := 0
  retries : Nat := 0
deriving DecidableEq, Repr

/-- One HBM stack (07, Tables 6 and 9; R150, R151, R162, R163, R169). `rate` is the pin rate in tenths of Gb/s; `watched` and `seen`
hold the frames with corrected reads in earlier passes and in this pass. -/
structure StackSt where
  trained : Bool := false
  temp : Int := 0
  step : Nat := 0
  below : Nat := 0
  selfRefresh : Bool := false
  coolSince : Option Nat := none
  rate : Nat := 64
  rateDue : Option Nat := none
  doubleRefresh : Bool := false
  drifts : Nat := 0
  corrected : Nat := 0
  uncorrectable : Nat := 0
  repaired : Nat := 0
  marked : List Nat := []
  watched : List Nat := []
  seen : List Nat := []
  sparesUsed : Table Nat := {}
  sparesFailed : Table Nat := {}
  spareBank : Option Nat := none
  repairLow : Bool := false
deriving DecidableEq, Repr

/-- The isle store of one isle (07, Table 9; R164 to R168). `place` maps a logical bank to its physical bank where it is not the
bank of the same number. -/
structure IsleStoreSt where
  spare : Option Nat := some 32
  place : Table Nat := {}
  next : Nat := 0
  head : List Nat := []
  migrating : Option Nat := none
  testing : Option Nat := none
  spareColumns : Table Nat := {}
  spareRows : Table Nat := {}
  cellLog : List Nat := []
  scrubRows : Table (List Nat) := {}
  retiredBanks : List Nat := []
  disabledSteps : BitVec 16 := 0
  corrected : Nat := 0
  uncorrectable : Nat := 0
  lineFaults : Nat := 0
  rotations : Nat := 0
deriving DecidableEq, Repr

/-- A cached line of an isle (R155): its address and the job that owns its way, most recently used first. -/
structure CacheLine where
  addr : Nat
  job : Nat
deriving DecidableEq, Repr

end Sys2Proof.Machine
end

