-- ==== Sys2Proof/Machine/DictTypes.lean ====
section
/-! DEFINITION. State of the object dictionary and its channels (15). -/

namespace Sys2Proof.Machine

/-- The session of a channel (R336). -/
inductive Session where
  | none | challenged | custodian
deriving DecidableEq, Repr

/-- A Wailest reply: ERROR bit and payload (R321, R327, R333). -/
structure Reply where
  error : Bool
  payload : List Byte
deriving DecidableEq, Repr

/-- The last request a channel performed (R325), with its reply. -/
structure Stored where
  seq : Bool
  fn : Nat
  index : Nat
  sub : Nat
  reply : Reply
deriving DecidableEq, Repr

/-- A snapshot (R330), or a block in collection (R331), of an object. -/
structure Block where
  index : Nat
  sub : Nat
  data : List Byte
deriving DecidableEq, Repr

/-- Losses of a notification queue (R332). -/
structure Losses where
  count : Nat
  first : Nat
  last : Nat
  delivered : Bool
deriving DecidableEq, Repr

/-- A dictionary channel. `opened` is the nonce that opened the session, `locked` the lock of R337. `sentOverflow` and `sentAlive` say which records the last NOTIFY reply carried, and
which of them are still queued; `failures` the ticks of failed responses. -/
structure ChanSt where
  session : Session := .none
  locked : Bool := false
  nonce : List Byte := []
  opened : List Byte := []
  failures : List Nat := []
  stored : Option Stored := none
  answer : Option Reply := none
  snapshot : Option Block := none
  block : Option Block := none
  queue : List Rec := []
  sentOverflow : Bool := false
  sentAlive : List Bool := []
  overflow : Option Losses := none
  overflowNext : Option Losses := none
  performed : Nat := 0
  repeats : Nat := 0
  errors : Nat := 0
  lost : Nat := 0
deriving DecidableEq, Repr

/-- State of a CMD object's action (R329): 0 idle, 1 running, 2 done, 3 failed; and its result code. -/
structure Action where
  state : Nat := 0
  result : Nat := 0
deriving DecidableEq, Repr

/-- One copy of the parameter area (R334). -/
structure SavedCopy where
  generation : Nat
  values : Table Nat
deriving DecidableEq, Repr

/-- The dictionary server. `probe` is what was last written to FRAME_PROBE. `values` holds every RW and RWP object that is not at its default, keyed by index × 256 + subindex. -/
structure Dict where
  ready : Bool := false
  values : Table Nat := {}
  chans : Table ChanSt := {}
  actions : Table Action := {}
  copies : Table SavedCopy := {}
  nextCopy : Nat := 0
  saving : Option SavedCopy := none
  key : Option (List Byte) := none
  nonces : Nat := 0
  probe : List Byte := []
  n0Discards : Nat := 0
  n0Broadcasts : Nat := 0
  n0Out : List (List Byte) := []
deriving DecidableEq, Repr

end Sys2Proof.Machine
end

