-- ==== Sys2Proof/Machine/InjectTypes.lean ====
section
/-! DEFINITION. State of fault injection and loopbacks (21). -/

namespace Sys2Proof.Machine

/-- An injection point (21, Table 1), with `holding` for a unit held for reorder (R452). -/
structure PointSt where
  enable : Bool := false
  target : Nat := 0
  inst : Nat := 0
  dir : Nat := 0
  layer : Nat := 0
  action : Nat := 0
  mode : Nat := 0
  skip : Nat := 0
  amount : Nat := 0
  flips : List Nat := []
  injected : Nat := 0
  eligible : Nat := 0
  holding : Bool := false
deriving DecidableEq, Repr

/-- A loopback under way (R459): target 1 Strait port, 2 Sound, 3 shore link. -/
structure Loop where
  target : Nat
  inst : Nat
  mode : Nat
deriving DecidableEq, Repr

structure InjectSt where
  armed : Bool := false
  time : Nat := 0
  chan : Nat := 0
  points : Table PointSt := {}
  loops : List Loop := []
  resTarget : Nat := 0
  resInst : Nat := 0
  resBits : Nat := 0
  resErrors : Nat := 0
deriving DecidableEq, Repr

end Sys2Proof.Machine
end

