-- ==== Sys2Proof/Machine/IsleTypes.lean ====
section
/-! DEFINITION. State of isles, Sounds and the wafer shape (03), pace monitors (02), frames (06), Ox engines (04) and shared
engines (14). -/

namespace Sys2Proof.Machine

/-- ISLE_STATE (03, Table 7). -/
inductive IsleState where
  | unlicensed | off | starting | serving | draining | testing | stranded | failed
deriving DecidableEq, Repr

def IsleState.code : IsleState → Nat
  | .unlicensed => 0 | .off => 1 | .starting => 2 | .serving => 3 | .draining => 4 | .testing => 5 | .stranded => 6 | .failed => 7

/-- Pace of an isle (R23, R24; 02, Table 9). `window` is the lowest floor pace in force so far in the open window. -/
structure PaceSt where
  now : Nat := 0
  minSeen : Nat := 0xFFFFFFFF
  lowWindows : Nat := 0
  below : Bool := false
  goodWindows : Nat := 0
  window : Nat := 0
deriving DecidableEq, Repr

/-- One isle: its state and healthy masks (03, Table 8), pace, sequencer and page counts (R46; 06, Table 10), KV_STATUS (09). -/
structure IsleSt where
  state : IsleState := .off
  ox : BitVec 4 := 0xF
  bantam : BitVec 16 := 0xFFFF
  pc : BitVec 64 := 0xFFFFFFFFFFFFFFFF
  lamb : Bool := true
  changed : Nat := 0
  pace : PaceSt := {}
  stale : Nat := 0
  nullAccess : Nat := 0
  maxCount : Nat := 0
  splitCopied : Nat := 0
  splitKept : Nat := 0
  forks : Nat := 0
  kvRefused : Nat := 0
  kvShort : Nat := 0
  kvTime : Nat := 0
deriving DecidableEq, Repr

/-- SOUND_STATE (03, Table 8). -/
inductive SoundState where
  | inService | out | steering
deriving DecidableEq, Repr

def SoundState.code : SoundState → Nat
  | .inService => 0 | .out => 1 | .steering => 2

/-- One Sound: the lanes replaced, each with its spare bit lane, the spare lanes that failed (R55, R394), and whether it is out of service
since manufacture (R64). -/
structure SoundSt where
  state : SoundState := .inService
  steered : List (Nat × Nat) := []
  spareFailed : List Nat := []
  fused : Bool := false
deriving DecidableEq, Repr

/-- A route table: the epoch it belongs to, the isles in the shape and the Sounds out of service (R57). -/
structure ShapeTable where
  epoch : Nat := 0
  mask : Nat := 0
  out : List Nat := []
deriving DecidableEq, Repr

/-- A planned change of the wafer shape (R66). -/
inductive ShapeChange where
  | drain (isle : Nat)
  | rejoin (isle : Nat)
  | unstrand (isle : Nat)
  | soundReturn (sound : Nat)
deriving DecidableEq, Repr

structure ShapeSt where
  cur : ShapeTable := {}
  old : Option ShapeTable := none
  published : Bool := false
  waiting : List ShapeChange := []
  level : Nat := 0
  shortfall : Nat := 0
deriving DecidableEq, Repr

/-- Frame table entry (06, Table 2). -/
structure Frame where
  count : Nat := 0
  retired : Bool := false
  copying : Bool := false
  job : Nat := 0
deriving DecidableEq, Repr

/-- A weight tile (R75): its format, its rows, and the bit patterns of the rows' 128 weights. -/
structure Tile where
  fmt : Nat := 0
  rows : Nat := 0
  weights : List (List Nat) := []
deriving DecidableEq, Repr

/-- An accumulator row: its type (R70) and its 128 lanes of 32 bits. -/
structure AccRow where
  isInt : Bool := false
  lanes : List Nat := []
deriving DecidableEq, Repr

/-- A mask table entry (R79). -/
structure MaskEntry where
  row : Nat := 0
  col : Nat := 0
deriving DecidableEq, Repr

/-- OX_STATUS state (04, Table 13). -/
inductive EngineState where
  | healthy | testing | disabled
deriving DecidableEq, Repr

def EngineState.code : EngineState → Nat
  | .healthy => 0 | .testing => 1 | .disabled => 2

/-- One Ox engine (04, Tables 1 and 13). A tile, row or mask entry that nothing has written holds zeros (log 163); `patrol` and `patrolAcc`
are the patrol weight registers and the 8 patrol rows (R92). `suspect` is the column of the last patrol miscompare. -/
structure EngineSt where
  active : Tile := {}
  shadow : Tile := {}
  acc : Table AccRow := {}
  masks : Table MaskEntry := {}
  patrol : Tile := {}
  patrolAcc : Table AccRow := {}
  state : EngineState := .healthy
  spares : Nat := 0
  corrected : Nat := 0
  passed : Nat := 0
  skipped : Nat := 0
  wraps : Nat := 0
  badClamp : Nat := 0
  suspect : Option Nat := none
  vector : Nat := 0
deriving DecidableEq, Repr

/-- Geometry groups of a Lamb engine (10, Table 4); offsets in 64-byte units. -/
structure LambImage where
  cls : Nat
  fmt : Nat
  offset : Nat
  w : Nat
  h : Nat
  c : Nat
  rowStride : Nat
  pixStride : Nat
deriving DecidableEq, Repr

structure LambWin where
  kw : Nat
  kh : Nat
  sx : Nat
  sy : Nat
  dx : Nat
  dy : Nat
deriving DecidableEq, Repr

structure LambPad where
  pl : Nat
  pr : Nat
  pt : Nat
  pb : Nat
deriving DecidableEq, Repr

/-- One Lamb engine (10, Tables 1 and 8): its groups, the bytes of its parameter buffer that an LWLOAD wrote, its counts, the unit of
the last patrol miscompare and the patrol's next vector. DST has no W and H of its own; they stand at 0. -/
structure LambSt where
  src : Option LambImage := none
  win : Option LambWin := none
  pad : Option LambPad := none
  dst : Option LambImage := none
  buf : List Byte := []
  state : EngineState := .healthy
  completed : Nat := 0
  passed : Nat := 0
  skipped : Nat := 0
  suspect : Option Nat := none
  vector : Nat := 0
deriving DecidableEq, Repr

/-- A shared engine's grant (R306): served bits, the job holding it, and the number of that job's run while the stint granted to it has
not started. -/
structure GrantSt where
  served : BitVec 64 := 0
  holder : Option Nat := none
  due : Option Nat := none
deriving DecidableEq, Repr

end Sys2Proof.Machine
end

