-- ==== Sys2Proof/Machine/Mem.lean ====
section
/-! DEFINITION. Byte memory in one canonical form: addresses strictly rising, and no entry equal to what an unlisted byte reads
as, which is zero (log 5). One space keyed by the global address without its unit field (R59). -/

namespace Sys2Proof.Machine

structure Mem where
  cells : List Host.Cell := []
deriving DecidableEq, Repr

/-- Canonical form of cells from address `lo` upward. -/
def cellsWf (lo : Nat) : List Host.Cell → Bool
  | [] => true
  | (a, b) :: r => decide (lo ≤ a) && b != 0 && cellsWf (a + 1) r

def Mem.wf (m : Mem) : Bool := cellsWf 0 m.cells

def Mem.read (m : Mem) (a : Nat) : Byte := (listFind a m.cells).getD 0
def Mem.write (m : Mem) (a : Nat) (b : Byte) : Mem := if b = 0 then ⟨listDrop a m.cells⟩ else ⟨listPut a b m.cells⟩

/-- `n` bytes from `a` upward. -/
def Mem.readBytes (m : Mem) (a : Nat) : Nat → List Byte
  | 0 => []
  | n + 1 => m.read a :: m.readBytes (a + 1) n

def Mem.writeBytes (m : Mem) (a : Nat) : List Byte → Mem
  | [] => m
  | b :: r => (m.write a b).writeBytes (a + 1) r

/-- Little-endian number of `n` bytes (R4). -/
def Mem.readLe (m : Mem) (a n : Nat) : Nat := ofBytes (m.readBytes a n)
def Mem.writeLe (m : Mem) (a n v : Nat) : Mem := m.writeBytes a (leBytes n v)

/-- `n` bytes from `a` upward become zero. -/
def Mem.clear (m : Mem) (a n : Nat) : Mem := ⟨m.cells.filter fun c => !(decide (a ≤ c.1) && decide (c.1 < a + n))⟩

/-- The bytes at the addresses that `p` names become zero. -/
def Mem.clearIf (m : Mem) (p : Nat → Bool) : Mem := ⟨m.cells.filter fun c => !(p c.1)⟩

/-- The listed bytes among `n` from `src`, moved to `dst`. -/
def movedCells (src dst n : Nat) (l : List Host.Cell) : List Host.Cell :=
  (l.filter fun c => decide (src ≤ c.1) && decide (c.1 < src + n)).map fun c => (c.1 - src + dst, c.2)

def Mem.writeCells (m : Mem) : List Host.Cell → Mem
  | [] => m
  | (a, b) :: r => (m.write a b).writeCells r

/-- `n` bytes copied from `src` to `dst`, as read before the copy. -/
def Mem.copy (m : Mem) (src dst n : Nat) : Mem := (m.clear dst n).writeCells (movedCells src dst n m.cells)

/-! ### The canonical form is kept -/

theorem cellsWf_cons {lo a : Nat} {b : Byte} {r : List Host.Cell} :
    cellsWf lo ((a, b) :: r) = true ↔ (lo ≤ a ∧ b ≠ 0) ∧ cellsWf (a + 1) r = true := by
  simp [cellsWf]

theorem cellsWf_mono {lo hi : Nat} (l : List Host.Cell) (h : lo ≤ hi) (w : cellsWf hi l = true) : cellsWf lo l = true := by
  cases l with
  | nil => rfl
  | cons c r =>
    have := cellsWf_cons.1 w
    exact cellsWf_cons.2 ⟨⟨by omega, this.1.2⟩, this.2⟩

theorem cellsWf_put {lo k : Nat} (v : Byte) (l : List Host.Cell) (hl : lo ≤ k) (hv : v ≠ 0)
    (w : cellsWf lo l = true) : cellsWf lo (listPut k v l) = true := by
  induction l generalizing lo with
  | nil => exact cellsWf_cons.2 ⟨⟨hl, hv⟩, rfl⟩
  | cons c r ih =>
    obtain ⟨a, b⟩ := c
    have ⟨⟨hla, hb⟩, hr⟩ := cellsWf_cons.1 w
    simp only [listPut]
    split
    · exact cellsWf_cons.2 ⟨⟨hl, hv⟩, cellsWf_cons.2 ⟨⟨by omega, hb⟩, hr⟩⟩
    · split
      · rename_i h; subst h; exact cellsWf_cons.2 ⟨⟨hl, hv⟩, hr⟩
      · exact cellsWf_cons.2 ⟨⟨hla, hb⟩, ih (by omega) hr⟩

theorem cellsWf_drop {lo : Nat} (k : Nat) (l : List Host.Cell) (w : cellsWf lo l = true) :
    cellsWf lo (listDrop k l) = true := by
  induction l generalizing lo with
  | nil => rfl
  | cons c r ih =>
    obtain ⟨a, b⟩ := c
    rw [cellsWf_cons] at w
    simp only [listDrop]
    split
    · exact ih (cellsWf_mono r (by omega) w.2)
    · exact cellsWf_cons.2 ⟨w.1, ih w.2⟩

theorem cellsWf_filter {lo : Nat} (p : Host.Cell → Bool) (l : List Host.Cell) (w : cellsWf lo l = true) :
    cellsWf lo (l.filter p) = true := by
  induction l generalizing lo with
  | nil => rfl
  | cons c r ih =>
    obtain ⟨a, b⟩ := c
    rw [cellsWf_cons] at w
    simp only [List.filter_cons]
    split
    · exact cellsWf_cons.2 ⟨w.1, ih w.2⟩
    · exact ih (cellsWf_mono r (by omega) w.2)

@[simp] theorem Mem.write_wf (m : Mem) (a : Nat) (b : Byte) (w : m.wf = true) : (m.write a b).wf = true := by
  unfold Mem.write
  split
  · exact cellsWf_drop a _ w
  · exact cellsWf_put b _ (Nat.zero_le a) ‹_› w

@[simp] theorem Mem.writeBytes_wf (m : Mem) (a : Nat) (bs : List Byte) (w : m.wf = true) : (m.writeBytes a bs).wf = true := by
  induction bs generalizing m a with
  | nil => exact w
  | cons b r ih => exact ih _ _ (m.write_wf a b w)

@[simp] theorem Mem.writeLe_wf (m : Mem) (a n v : Nat) (w : m.wf = true) : (m.writeLe a n v).wf = true := m.writeBytes_wf _ _ w

@[simp] theorem Mem.clear_wf (m : Mem) (a n : Nat) (w : m.wf = true) : (m.clear a n).wf = true := cellsWf_filter _ _ w

@[simp] theorem Mem.clearIf_wf (m : Mem) (p : Nat → Bool) (w : m.wf = true) : (m.clearIf p).wf = true := cellsWf_filter _ _ w

@[simp] theorem Mem.writeCells_wf (m : Mem) (l : List Host.Cell) (w : m.wf = true) : (m.writeCells l).wf = true := by
  induction l generalizing m with
  | nil => exact w
  | cons c r ih => exact ih _ (m.write_wf c.1 c.2 w)

@[simp] theorem Mem.copy_wf (m : Mem) (src dst n : Nat) (w : m.wf = true) : (m.copy src dst n).wf = true :=
  Mem.writeCells_wf _ _ (m.clear_wf dst n w)

/-! ### Reading after writing -/

@[simp] theorem Mem.read_write_same (m : Mem) (a : Nat) (b : Byte) : (m.write a b).read a = b := by
  unfold Mem.write
  split <;> rename_i h
  · simp [Mem.read, listFind_drop_same, h]
  · simp [Mem.read, listFind_put_same]

theorem Mem.read_write_other (m : Mem) {a c : Nat} (b : Byte) (h : c ≠ a) : (m.write a b).read c = m.read c := by
  unfold Mem.write
  split
  · simp [Mem.read, listFind_drop_other _ h]
  · simp [Mem.read, listFind_put_other _ _ h]

theorem Mem.read_writeBytes_outside (m : Mem) (a : Nat) (bs : List Byte) (c : Nat) (h : c < a ∨ a + bs.length ≤ c) :
    (m.writeBytes a bs).read c = m.read c := by
  induction bs generalizing m a with
  | nil => rfl
  | cons b r ih =>
    simp only [Mem.writeBytes, List.length_cons] at *
    rw [ih _ _ (by omega), m.read_write_other b (by omega)]

theorem Mem.readBytes_writeBytes_same (m : Mem) (a : Nat) (bs : List Byte) :
    (m.writeBytes a bs).readBytes a bs.length = bs := by
  induction bs generalizing m a with
  | nil => rfl
  | cons b r ih =>
    simp only [Mem.writeBytes, List.length_cons, Mem.readBytes, ih]
    rw [Mem.read_writeBytes_outside _ _ _ _ (by omega)]; simp

end Sys2Proof.Machine
end

