-- ==== Sys2Proof/Machine/NarrowsTypes.lean ====
section
/-! DEFINITION. State of the two Narrows ports (16, Tables 3, 4, 8 to 10). -/

namespace Sys2Proof.Machine

/-- The receive DMA block that is open (R358, R359). `place` is its byte offset in the buffer, `used` its character bytes so far. -/
structure RxBlock where
  place : Nat
  used : Nat := 0
  count : Nat := 0
  errors : Bool := false
  overrun : Bool := false
  first : Nat := 0
deriving DecidableEq, Repr

/-- One port. `rx` holds receive entries, `tx` transmit entries, each with whether transmit DMA pushed it; `shifter` is the entry being
shifted out and `txLeft` what transmit DMA has still to push. `flags` holds the flags of UART_STATUS [14:4], `mask` the clear mask of
R357, `ev` the event counters by flag bit, `counts` NARROWS_COUNTS by subindex. `rxEn` to `timeoutEn` are RXDMA_CTRL. -/
structure UartSt where
  rx : List Nat := []
  tx : List (Nat × Bool) := []
  shifter : Option (Nat × Bool) := none
  flags : Nat := 0
  mask : Nat := 0
  muted : Bool := false
  lostOne : Bool := false
  cts : Bool := false
  control : Nat := 0
  format : Nat := 0x008
  baud : Nat := 0x1A0B
  node : Nat := 1
  timing : Nat := 0x0A140101
  irqEn : Nat := 0
  rxBase : Nat := 0
  rxLen : Nat := 0
  rxEn : Bool := false
  rxTagged : Bool := false
  addrSplit : Bool := false
  timeoutEn : Bool := false
  rxBlock : Nat := 256
  rxTimeout : Nat := 32
  wptr : Nat := 0
  seq : Nat := 0
  block : Option RxBlock := none
  txBase : Nat := 0
  txCount : Nat := 0
  txEn : Bool := false
  txTagged : Bool := false
  txSent : Nat := 0
  txLeft : List Nat := []
  ev : Table Nat := {}
  counts : Table Nat := {}
deriving DecidableEq, Repr

end Sys2Proof.Machine
end

