-- ==== Sys2Proof/Machine/PlanTypes.lean ====
section
/-! DEFINITION. Plan images as the loader reads them (02; 06, Table 3), runs, job contexts, functions and bridge cards (13, 14). -/

namespace Sys2Proof.Machine

/-- Header fields (02, Table 1). -/
structure PlanHeader where
  magic : Nat
  format : Nat
  profile : Nat
  epoch : Nat
  length : Nat
  leaseOff : Nat
  leaseCount : Nat
  strandCount : Nat
  strandOff : Nat
  listOff : Nat
  listCount : Nat
  tokenOff : Nat
  tokenCount : Nat
  weaveNs : Nat
  pathBeats : Nat
  pathXfer : Nat
  pathStints : Nat
  pathWindow : Nat
  pathStrait : Nat
  boundNs : Nat
  planId : Nat
deriving DecidableEq, Repr

/-- Lease entry (02, Table 2). -/
structure LeaseEntry where
  isle : Nat
  flags : Nat
  ox : Nat
  bantam : Nat
  ways : Nat
  pcs : Nat
  tokenBase : Nat
  tokenSpan : Nat
  shares : List Nat
  scratchBase : Nat
  scratchSpan : Nat
deriving DecidableEq, Repr

/-- A command of a strand: its common header (02, Table 4) and its 20 operand bytes. -/
structure Cmd where
  opcode : Nat
  cls : Nat
  yield : Bool
  flags : Nat
  waitCounter : Nat
  waitTarget : Nat
  waitMode : Nat
  sigCounter : Nat
  sigIsle : Nat
  sigInc : Nat
  sigMode : Nat
  ops : List Byte
deriving DecidableEq, Repr

/-- Strand directory entry (02, Table 3) with the strand's commands. -/
structure Strand where
  isle : Nat
  cls : Nat
  inst : Nat
  cmdOff : Nat
  cmdCount : Nat
  cmds : List Cmd
deriving DecidableEq, Repr

/-- Page list directory entry (06, Table 3) with the entries of an IMAGE list. -/
structure PageList where
  entryOff : Nat
  isle : Nat
  kind : Nat
  flags : Nat
  target : Nat
  capacity : Nat
  inherit : Nat
  poolBase : Nat
  poolSpan : Nat
  entries : List Nat
deriving DecidableEq, Repr

/-- Token table entry (R29). -/
structure TokenDecl where
  isle : Nat
  counter : Nat
  initial : Nat
  final : Nat
deriving DecidableEq, Repr

structure Plan where
  header : PlanHeader
  leases : List LeaseEntry
  strands : List Strand
  lists : List PageList
  tokens : List TokenDecl
deriving DecidableEq, Repr

/-- How far a strand of a run has come: commands started and completed (R33). -/
structure StrandRun where
  started : Nat := 0
  completed : Nat := 0
deriving DecidableEq, Repr

/-- Host copy descriptor (13, Table 13). -/
structure HostCopy where
  host : Nat
  list : Nat
  index : Nat
  count : Nat
  counter : Nat
  isle : Nat
  value : Nat
deriving DecidableEq, Repr

/-- A run of a loaded plan (R40, R282, R284). `halted` is the fault code of R49; `lists` holds the entries of the page lists, an
unlisted entry being null (R128); `outStarted` the staging pages that each OUT copy under way holds; `unclosed` the isles whose open pace
window holds the last command completed (R48); `parkFull` whether a contribution of the run was returned (R159). -/
structure Run where
  number : Nat
  tag : Nat
  start : Nat
  accepted : Bool
  halted : Option Nat := none
  strands : Table StrandRun := {}
  lists : Table (Table Nat) := {}
  boundVoid : Bool := false
  nonRepro : Bool := false
  poisoned : Bool := false
  ins : List HostCopy := []
  outs : List HostCopy := []
  staged : List (List Byte) := []
  inDone : Nat := 0
  outStarted : Table Nat := {}
  outDone : Table Bool := {}
  waitSum : Nat := 0
  waitMax : Nat := 0
  preempt : Nat := 0
  unclosed : List Nat := []
  parkFull : Bool := false
deriving DecidableEq, Repr

/-- CTX_STATUS STATE (13, Table 10). -/
inductive CtxState where
  | empty | loading | loaded | running | haltedLink
deriving DecidableEq, Repr

def CtxState.code : CtxState → Nat
  | .empty => 0 | .loading => 1 | .loaded => 2 | .running => 3 | .haltedLink => 4

/-- CTX_ACCOUNT (14, Table 7). -/
structure Account where
  runs : Nat := 0
  waitSum : Nat := 0
  waitMax : Nat := 0
  preempt : Nat := 0
  stints : Nat := 0
  refusals : Nat := 0
  lastRefusal : Nat := 0
deriving DecidableEq, Repr

/-- A submission entry under way (13, Table 11). -/
structure Entry where
  op : Nat
  sflags : Nat
  tag : Nat
  bytes : List Byte
deriving DecidableEq, Repr

/-- A job context (13, Tables 6, 9 and 10). `waiting` is a validated plan whose admission waits (R311, R420); `clearing` holds the
leases being cleared after their return (R310). -/
structure CtxSt where
  state : CtxState := .empty
  owner : Nat := 0
  plan : Option Plan := none
  waiting : Option Plan := none
  run : Option Run := none
  runNo : Nat := 0
  ringBase : Word := 0
  ringSize : BitVec 32 := 0
  doorbell : BitVec 32 := 0
  cons : BitVec 32 := 0
  enable : Bool := false
  ringError : Bool := false
  entry : Option Entry := none
  clearing : List Plan := []
  account : Account := {}
  postedFailed : Nat := 0
deriving DecidableEq, Repr

/-- A function of a bridge card: event queue, mailbox, segments (13, Tables 4, 5, 7 and 8; R285 to R291). -/
structure FnSt where
  evqBase : Word := 0
  evqSize : BitVec 32 := 0
  evqProdAddr : Word := 0
  evqCons : BitVec 32 := 0
  evqEnable : Bool := false
  modCount : Nat := 1
  modTime : Nat := 100
  filter : Nat := 2
  prod : BitVec 32 := 0
  pend : List Rec := []
  holm : List Rec := []
  reserved : Nat := 0
  dropped : Table Nat := {}
  droppedSince : Table Nat := {}
  dropFirst : Nat := 0
  dropLast : Nat := 0
  unsignalled : Nat := 0
  urgent : Bool := false
  modStart : Option Nat := none
  configError : Bool := false
  ringError : Bool := false
  mbxReq : List Byte := []
  mbxRsp : List Byte := []
  mbxDone : Bool := false
  mbxBusy : Bool := false
  mbxOverrun : Bool := false
  mbxNotReady : Bool := false
  msixTable : Table Word := {}
  msixPba : Nat := 0
  segments : Table Word := {}
deriving DecidableEq, Repr

/-- Shore link states (13, Table 17). -/
inductive ShoreLink where
  | down | training | up | retrying
deriving DecidableEq, Repr

/-- A bridge card (13, Table 17; R297, R298; 20, BRIDGE_FW). `stagingQueue` holds the contexts whose LAUNCH waits for staging, in the
order in which they reached the heads of their rings (R284). `upSince` is when the present state of the shore link began, `crsUntil` when
configuration requests stop being answered with retry status (R294), `sris` the clocking chosen at PERST#. -/
structure CardSt where
  present : Bool := true
  serial : List Byte := []
  version : List Byte := []
  heldSerial : Option (List Byte) := none
  upSince : Option Nat := none
  link : ShoreLink := .down
  retrains : Nat := 0
  removals : Nat := 0
  stagingFree : Nat := 131072
  stagingReady : Bool := false
  stagingQueue : List Nat := []
  crsUntil : Nat := 0
  sris : Bool := false
deriving DecidableEq, Repr

end Sys2Proof.Machine
end

