-- ==== Sys2Proof/Machine/PowerTypes.lean ====
section
/-! DEFINITION. State of power, domains and air (19), start-up and update (20) and the unit's front (22). -/

namespace Sys2Proof.Machine

/-- SUPPLY_STATUS state (19, Table 12). -/
inductive SupplyState where
  | absent | healthy | noAc | failed
deriving DecidableEq, Repr

def SupplyState.code : SupplyState → Nat
  | .absent => 0 | .healthy => 1 | .noAc => 2 | .failed => 3

/-- A supply. `ac` says whether a failed one still reports AC good (R410). -/
structure SupplySt where
  state : SupplyState := .healthy
  ac : Bool := true
  serial : List Byte := []
deriving DecidableEq, Repr

/-- FAN_STATUS state (19, Table 12). -/
inductive FanState where
  | absent | running | failed
deriving DecidableEq, Repr

def FanState.code : FanState → Nat
  | .absent => 0 | .running => 1 | .failed => 2

structure FanSt where
  state : FanState := .running
deriving DecidableEq, Repr

/-- WAFER_STATE (19, Table 7). -/
inductive WaferState where
  | w0 | w1 | w3
deriving DecidableEq, Repr

def WaferState.code : WaferState → Nat
  | .w0 => 0 | .w1 => 1 | .w3 => 3

/-- Why the wafer is in W1 (19, Table 8). -/
inductive W1Cause where
  | request | trip | insufficient
deriving DecidableEq, Repr

/-- HOLD_STATE (19, Table 12). -/
inductive HoldState where
  | released | held | unpowered
deriving DecidableEq, Repr

def HoldState.code : HoldState → Nat
  | .released => 0 | .held => 1 | .unpowered => 2

/-- ISLE_POWER states that differ in what is powered (19, Table 5); I1 is I0 with every engine idle. -/
inductive IslePower where
  | i0 | i2 | i3
deriving DecidableEq, Repr

/-- Power and air. `setMv` is the set point and `targetMv` where it is slewing to; `raising` is the profile a raise will put in
force, with its cause; `capMv` and `thermMv` are the set points that a power and a thermal cap allow, `capAvail` the available power
that `capMv` answers. Holds are keyed by HOLD_RELEASE subindex: isle + 1, 0x41 + site. -/
structure PowerSt where
  force : Nat := 1
  setMv : Nat := 0
  targetMv : Nat := 0
  raising : Option (Nat × Nat) := none
  bStable : Bool := false
  capped : Bool := false
  capMv : Nat := 0
  capAvail : Nat := 0
  thermalCap : Bool := false
  thermMv : Nat := 0
  wafer : WaferState := .w3
  cause : W1Cause := .request
  supplies : Table SupplySt := {}
  fans : Table FanSt := {}
  fanLost : Bool := false
  isle : Table IslePower := {}
  hold : Table HoldState := {}
  ready : Table Bool := {}
deriving DecidableEq, Repr

/-- FW_SLOT state (20, Table 10). -/
inductive SlotState where
  | empty | valid | invalid | staging
deriving DecidableEq, Repr

def SlotState.code : SlotState → Nat
  | .empty => 0 | .valid => 1 | .invalid => 2 | .staging => 3

/-- A firmware slot (20, Table 10), with the staged bytes. -/
structure SlotSt where
  state : SlotState := .empty
  version : List Byte := []
  security : Nat := 0
  length : Nat := 0
  digest : List Byte := []
  image : List Byte := []
deriving DecidableEq, Repr

/-- Start-up, boot record and update (R434 to R446). While the Holm restarts, `heldEvents` wait for it (R444). -/
structure BootSt where
  slots : Table SlotSt := ⟨[(0, { state := .valid })]⟩
  active : Nat := 0
  trial : Option Nat := none
  attempts : Nat := 0
  running : Nat := 0
  step : Nat := 0
  holmUp : Bool := false
  holmReady : Bool := false
  restarting : Bool := false
  bcUp : Bool := true
  recovery : Bool := false
  secMin : Nat := 0
  restartCause : Nat := 0
  heldEvents : List Rec := []
  lostEvents : Nat := 0
  resetKind : Nat := 0
  resetCause : Nat := 0
  resetTime : Nat := 0
  microcode : Table Nat := {}
deriving DecidableEq, Repr

/-- Front and rear of the unit (22): lamp test, termination switch position, address switch value as last taken (R364). -/
structure RackSt where
  lampTest : Bool := false
  termination : Nat := 0
  dip : Nat := 0
deriving DecidableEq, Repr

end Sys2Proof.Machine
end

