-- ==== Sys2Proof/Machine/RepairTypes.lean ====
section
/-! DEFINITION. State of background work and live repair (18). -/

namespace Sys2Proof.Machine

/-- One activity at one instance (R389; 18, Table 11). -/
structure BgSt where
  last : Option Nat := none
  cycles : Nat := 0
  interrupted : Nat := 0
  overdue : Bool := false
deriving DecidableEq, Repr

/-- RETEST_RESULT (18, Table 11). -/
structure RetestSt where
  result : Nat := 0
  failing : Nat := 0
  time : Nat := 0
  ox : Nat := 0
  lamb : Bool := false
  bantam : Nat := 0
  pc : Nat := 0
  spareColumns : Nat := 0
  banksRetired : Nat := 0
deriving DecidableEq, Repr

/-- Live repair of one isle: its phase (18, Table 5), whether its rejoin Sound tests have passed, its entries into FAILED, and how
often each of its parts was disabled in service (R402), keyed 0 to 3 Ox, 4 Lamb, 16 to 31 cores, 64 to 127 pseudo-channels. The parts
of `fused`, keyed the same way, are out since manufacture: no test brings them back (R64, R402). `forced`
says that a drain under way was forced (R400), `image` is the microcode version in force when the retest under way was written (R406). -/
structure RepairSt where
  phase : Nat := 0
  soundsPassed : Bool := false
  failedAt : Option Nat := none
  failedBefore : Option Nat := none
  autoDone : Bool := false
  disables : Table Nat := {}
  fused : List Nat := []
  retest : RetestSt := {}
  forced : Bool := false
  image : Nat := 0
deriving DecidableEq, Repr

end Sys2Proof.Machine
end

