-- ==== Sys2Proof/Machine/State.lean ====
section
/-! DEFINITION. The state of the block, the reasons a command can stop, and the state at reset. -/

namespace Sys2Proof.Machine

/-- Why the machine stops with a fault. The manual gives the unit no fault that stops it as a whole; every fault of a job, of a core
or of an access is a next state. -/
inductive Fault where
  /-- Never raised: the manual describes no stop of the unit. Safe. -/
  | none
deriving DecidableEq, Repr

/-- Why a command has no meaning. -/
inductive Refusal where
  /-- Raised by an arm of exec whose command is not modelled yet. Safe. -/
  | notModelled (mnemonic : String)
  /-- A plan command whose operands the loader refuses reached an engine: the manual gives it no effect (R6, R90). Safe. -/
  | operandRefusedAtLoad
deriving DecidableEq, Repr

/-- A write that the unit sends to host memory (R481). -/
inductive HostWrite where
  | record (addr : Nat) (r : Rec)
  | index (addr : Nat) (value : Nat)
  | data (addr : Nat) (bytes : List Byte)
deriving DecidableEq, Repr

/-- A token message on its way to another isle, from the isle `src` (R32, R46). -/
structure TokenMsg where
  ctx : Nat
  run : Nat
  src : Nat
  isle : Nat
  counter : Nat
  inc : Nat
deriving DecidableEq, Repr

/-- What has left the unit, newest last: host writes, MSI-X vectors (function key, vector), flits on Strait ports, the identity that this end
gives at link bring-up by port (R254), reads of host memory (address and length), data of BAR2 reads by function key, values of Narrows register reads by port, transmit entries shifted out on a Narrows line by port (R355). -/
structure Outputs where
  host : List HostWrite := []
  msix : List (Nat × Nat) := []
  bar2 : List (Nat × List Byte) := []
  uart : List (Nat × Nat) := []
  strait : List (Nat × List Byte) := []
  reads : List (Nat × Nat) := []
  identity : List (Nat × PeerId) := []
  line : List (Nat × Nat) := []
deriving DecidableEq, Repr

/-- The machine. Tables are keyed as INVENTORY.md says; an unlisted member is at its reset value. -/
structure State where
  pending : List Instr := []
  free : Nat := 0
  clock : Clock := {}
  recd : Recorder := {}
  dict : Dict := {}
  out : Outputs := {}
  mem : Mem := {}
  bad : Table Bool := {}
  frames : Table Frame := {}
  deferred : List Nat := []
  tokens : Table Nat := {}
  pages : Table Nat := {}
  shape : ShapeSt := {}
  isles : Table IsleSt := {}
  sounds : Table SoundSt := {}
  engines : Table EngineSt := {}
  lambs : Table LambSt := {}
  cores : Table CoreSt := {}
  bantam : Table BantamCounts := {}
  adders : Table AdderSt := {}
  hbm : Table StackSt := {}
  stores : Table IsleStoreSt := {}
  caches : Table (List CacheLine) := {}
  pcOwner : Table Nat := {}
  wayOwner : Table Nat := {}
  grants : Table GrantSt := {}
  windows : Table Nat := {}
  flying : List TokenMsg := []
  ctxs : Table CtxSt := {}
  fns : Table FnSt := {}
  cards : Table CardSt := {}
  strait : StraitSt := {}
  uarts : Table UartSt := {}
  holmMem : Mem := {}
  inject : InjectSt := {}
  repair : Table RepairSt := {}
  bg : Table BgSt := {}
  power : PowerSt := {}
  boot : BootSt := {}
  rack : RackSt := {}
deriving DecidableEq, Repr

/-- The isles at power-up: one outside the licensed shape is UNLICENSED (R64). -/
def unlicensedIsles (t : Table IsleSt) : Table IsleSt :=
  (List.range 64).foldl (fun t i => if Config.licensed i then t else t.upd {} i fun x => { x with state := .unlicensed }) t

/-- The unit before its first power-up (log 4). -/
def State.reset : State := { isles := unlicensedIsles {} }

end Sys2Proof.Machine
end

