-- ==== Sys2Proof/Machine/Ops.lean ====
section
/-! DEFINITION. The named operations that the meanings share: members of the state, the dictionary's values, forming and
delivering records (17), tokens (02), halting a job and returning its lease (R49, R140, R310). -/

namespace Sys2Proof.Machine

/-! ### Members -/

def State.isle (s : State) (i : Nat) : IsleSt := s.isles.get {} i
def State.updIsle (s : State) (i : Nat) (f : IsleSt → IsleSt) : State := { s with isles := s.isles.upd {} i f }
def State.sound (s : State) (i : Nat) : SoundSt := s.sounds.get {} i
def State.updSound (s : State) (i : Nat) (f : SoundSt → SoundSt) : State := { s with sounds := s.sounds.upd {} i f }
def State.engine (s : State) (k : Nat) : EngineSt := s.engines.get {} k
def State.updEngine (s : State) (k : Nat) (f : EngineSt → EngineSt) : State := { s with engines := s.engines.upd {} k f }
def State.lamb (s : State) (i : Nat) : LambSt := s.lambs.get {} i
def State.updLamb (s : State) (i : Nat) (f : LambSt → LambSt) : State := { s with lambs := s.lambs.upd {} i f }
def State.core (s : State) (k : Nat) : CoreSt := s.cores.get {} k
def State.updCore (s : State) (k : Nat) (f : CoreSt → CoreSt) : State := { s with cores := s.cores.upd {} k f }
def State.bant (s : State) (i : Nat) : BantamCounts := s.bantam.get {} i
def State.updBant (s : State) (i : Nat) (f : BantamCounts → BantamCounts) : State := { s with bantam := s.bantam.upd {} i f }
def State.stack (s : State) (k : Nat) : StackSt := s.hbm.get {} k
def State.updStack (s : State) (k : Nat) (f : StackSt → StackSt) : State := { s with hbm := s.hbm.upd {} k f }
def State.isleStore (s : State) (i : Nat) : IsleStoreSt := s.stores.get {} i
def State.updIsleStore (s : State) (i : Nat) (f : IsleStoreSt → IsleStoreSt) : State := { s with stores := s.stores.upd {} i f }
def State.adder (s : State) (k : Nat) : AdderSt := s.adders.get {} k
def State.updAdder (s : State) (k : Nat) (f : AdderSt → AdderSt) : State := { s with adders := s.adders.upd {} k f }
def State.ctx (s : State) (c : Nat) : CtxSt := s.ctxs.get {} c
def State.updCtx (s : State) (c : Nat) (f : CtxSt → CtxSt) : State := { s with ctxs := s.ctxs.upd {} c f }
def State.fn (s : State) (k : Nat) : FnSt := s.fns.get {} k
def State.updFn (s : State) (k : Nat) (f : FnSt → FnSt) : State := { s with fns := s.fns.upd {} k f }
/-- MSI-X vector `v` of a function is raised; while the host masks it in the table, it pends (R276, R279; log 68). -/
def FnSt.masked (f : FnSt) (v : Nat) : Bool := bit ((f.msixTable.get 1 (v * 16 + 12)).toNat) 0
def State.vector (s : State) (k v : Nat) : State :=
  if (s.fn k).masked v then s.updFn k fun f => { f with msixPba := setBit f.msixPba v }
  else { s with out := { s.out with msix := s.out.msix ++ [(k, v)] } }
def State.card (s : State) (b : Nat) : CardSt := s.cards.get {} b
def State.updCard (s : State) (b : Nat) (f : CardSt → CardSt) : State := { s with cards := s.cards.upd {} b f }
def State.chan (s : State) (k : Nat) : ChanSt := s.dict.chans.get {} k
def State.updChan (s : State) (k : Nat) (f : ChanSt → ChanSt) : State :=
  { s with dict := { s.dict with chans := s.dict.chans.upd {} k f } }
def State.frame (s : State) (k : Nat) : Frame := s.frames.get {} k
def State.updFrame (s : State) (k : Nat) (f : Frame → Frame) : State := { s with frames := s.frames.upd {} k f }
def State.repairOf (s : State) (i : Nat) : RepairSt := s.repair.get {} i
def State.updRepair (s : State) (i : Nat) (f : RepairSt → RepairSt) : State := { s with repair := s.repair.upd {} i f }
def State.grant (s : State) (k : Nat) : GrantSt := s.grants.get {} k
def State.port (s : State) (p : Nat) : PortSt := s.strait.ports.get {} p
def State.updPort (s : State) (p : Nat) (f : PortSt → PortSt) : State :=
  { s with strait := { s.strait with ports := s.strait.ports.upd {} p f } }
def State.token (s : State) (isle counter : Nat) : Nat := s.tokens.get 0 (isle * 4096 + counter)

/-! ### Global addresses (R59) -/

/-- Address of a byte without the unit field. -/
def gaddr (isle cls off : Nat) : Nat := isle * 2 ^ 52 + cls * 2 ^ 48 + off
def unitOf (a : Nat) : Nat := a / 2 ^ 58 % 64
def isleOf (a : Nat) : Nat := a / 2 ^ 52 % 64
def classOf (a : Nat) : Nat := a / 2 ^ 48 % 16
def offOf (a : Nat) : Nat := a % 2 ^ 48
/-- The address without its unit field. -/
def localOf (a : Nat) : Nat := a % 2 ^ 58

/-- Offset limit of a target class that plans reach (03, Table 5). -/
def classLimit : Nat → Nat
  | 0 => 0x600000000 | 1 => 0x600000000 | 2 => 0x4000000 | 3 => 0x800000 | 4 => 0x400000
  | _ => 0

/-- Pseudo-channel, as a PC_MASK bit, of an HBM address (R146). -/
def pcOf (a : Nat) : Nat := classOf a % 2 * 32 + offOf a / 65536 % 32
/-- Key of the frame that holds an address of class 0 to 2 (R126). -/
def frameKey (a : Nat) : Nat := (isleOf a * 3 + classOf a) * 2 ^ 19 + offOf a / 65536
/-- Address of the first byte of a frame. -/
def frameAddr (k : Nat) : Nat := gaddr (k / 2 ^ 19 / 3) (k / 2 ^ 19 % 3) (k % 2 ^ 19 * 65536)
/-- Byte `o` of the operand store of an engine. -/
def operandAddr (e : Nat) (o : Nat) : Nat := gaddr (e / 4) 3 (e % 4 * 2 ^ 21 + o)
/-- Byte `o` of the store of a core: its data store begins at 0x1_0000. -/
def coreAddr (c : Nat) (o : Nat) : Nat := gaddr (c / 16) 4 (c % 16 * 2 ^ 18 + o)

/-! ### Values of the dictionary -/

/-- Default of an RW or RWP object (their chapters). -/
def objDefault (idx sub : Nat) : Nat :=
  if 0x6000 = idx then 2
  else if 0x3080 ≤ idx && idx < 0x30C0 then 12
  else match idx, sub with
  | 0x1030, _ => 1 | 0x1040, _ => 2 | 0x1107, _ => 10000 | 0x1200, _ => 100
  | 0x2000, _ => 1 | 0x2002, _ => 11500 | 0x2005, _ => 11500 | 0x2302, _ => 1 | 0x2304, _ => 1
  | 0x7012, _ => 600 | 0x7013, _ => 1
  | 0x9001, _ => 1 | 0x9003, _ => 1000000 | 0x9005, 1 => 115200 | 0x9005, 2 => 8 | 0x9005, 3 => 2
  | 0xA001, _ => 3600 | 0xA043, _ => 1000
  | _, _ => 0

def objKey (idx sub : Nat) : Nat := idx * 256 + sub
def State.obj (s : State) (idx sub : Nat) : Nat := s.dict.values.get (objDefault idx sub) (objKey idx sub)
def State.setObj (s : State) (idx sub v : Nat) : State :=
  { s with dict := { s.dict with values := s.dict.values.put (objKey idx sub) v } }
/-- NOTIFY_FILTER of a channel: one value per channel (15, Table 10), kept above every object key. -/
def notifyKey (chan : Nat) : Nat := 2 ^ 24 + chan
def State.notifyFilter (s : State) (chan : Nat) : Nat := s.dict.values.get 2 (notifyKey chan)
/-- The action of a CMD object stands at a state with a result (R329). -/
def State.setAction (s : State) (idx sub state result : Nat) : State :=
  { s with dict := { s.dict with actions := s.dict.actions.put (objKey idx sub) ⟨state, result⟩ } }

/-- A CMD object's action that completes as it is accepted. -/
def State.actionDone (s : State) (idx sub : Nat) : State := s.setAction idx sub 2 0

/-- Is a CMD object's action running? -/
def State.running (s : State) (idx sub : Nat) : Bool := (s.dict.actions.get {} (objKey idx sub)).state == 1
/-- POD_NUMBER. -/
def State.unitNo (s : State) : Nat := s.obj 0x4280 0

/-- Floor pace of a profile in beats/µs (01, Table 3). -/
def floorOf (profile : Nat) : Nat := if profile = 1 then 1000 else if profile = 2 then 1200 else 1400
/-- PACE_FLOOR: floor pace in force (R18, R413). -/
def State.floor (s : State) : Nat := floorOf s.power.force

/-! ### Time -/

/-- ns of the ticks counted since `t` (R368). -/
def State.nsSince (s : State) (t : Nat) : Nat := (s.clock.ticks - t) * 4

/-- TIME_ERROR_BOUND (R374). -/
def State.errorBound (s : State) : Nat :=
  let c := s.clock
  let spent := match c.state with
    | .holdover => s.nsSince c.holdStart
    | .acquiring => c.holdSpent
    | _ => 0
  if c.state = .free then 2 ^ 64 - 1 else c.offset.natAbs + spent * 2 / 1000000

/-- Is the timebase traceable (R374)? -/
def State.timeValid (s : State) : Bool :=
  let ok := decide (s.errorBound ≤ s.obj 0x1107 0 * 1000)
  match s.clock.state with
  | .locked => true
  | .holdover => ok
  | .acquiring => s.clock.fromHoldover && ok
  | .free => false

/-! ### Sources of records (17, Table 3) -/

def srcIn (isle block inst : Nat) : Source := ⟨BitVec.ofNat 8 isle, BitVec.ofNat 8 block, BitVec.ofNat 8 inst⟩
def srcUnit : Source := srcIn 0xFF 0 0
def srcHolm : Source := srcIn 0xFF 0x0D 0
def srcBoard : Source := srcIn 0xFF 0x0E 0
def srcTime : Source := srcIn 0xFF 0x12 0
def srcStore : Source := srcIn 0xFF 0x13 0
def srcCtx (c : Nat) : Source := srcIn 0xFF 0x0C c
def srcCard (b : Nat) : Source := srcIn 0xFF 0x0B b
def srcPort (p : Nat) : Source := srcIn 0xFF 0x09 p
def srcOx (e : Nat) : Source := srcIn (e / 4) 2 (e % 4)
def srcCore (c : Nat) : Source := srcIn (c / 16) 3 (c % 16)
def srcStack (k : Nat) : Source := srcIn (k / 2) 6 (k % 2)

/-! ### Queues that records reach -/

/-- Records that are never dropped from a pending store (R290). -/
def Rec.protected (r : Rec) : Bool := r.cls != 2 || decide (3 ≤ r.severity)

def countLow (l : List Rec) : Nat := (l.filter fun r => !r.protected).length

/-- Index of the oldest record that `p` holds of. -/
def oldest (p : Rec → Bool) (l : List Rec) : Option Nat := l.findIdx? p

/-- Note a drop of a record of severity `v` at time `t` (R290). -/
def FnSt.drop (f : FnSt) (v t : Nat) : FnSt :=
  { f with
    dropped := f.dropped.upd 0 v (satAdd 32 · 1)
    droppedSince := f.droppedSince.upd 0 v (· + 1)
    dropFirst := if f.droppedSince.rows.isEmpty then t else f.dropFirst
    dropLast := t }

/-- A record arrives at the pending store of a function: 1,024 places, of which 256 for records that are never dropped, and what a
full store does (R290). Places reserved for a launch are in use. -/
def FnSt.arrive (f : FnSt) (r : Rec) : FnSt :=
  let low := countLow f.pend
  let high := f.pend.length - low + f.reserved
  if r.protected then
    if f.pend.length + f.reserved < 1024 && f.holm.isEmpty then { f with pend := f.pend ++ [r] }
    else { f with holm := f.holm ++ [r] }
  else if low + (high - 256) < 768 then { f with pend := f.pend ++ [r] }
  else if r.severity = 0 then f.drop 0 r.last
  else match oldest (fun q => q.cls == 2 && decide (q.severity < r.severity)) f.pend with
    | some i => ({ f with pend := f.pend.eraseIdx i ++ [r] }).drop ((f.pend.getD i r).severity) r.last
    | none => f.drop r.severity r.last

/-- A loss of a notification queue at time `t` (R332). -/
def ChanSt.lose (c : ChanSt) (t : Nat) : ChanSt :=
  let more (o : Option Losses) : Option Losses := match o with
    | none => some ⟨1, t, t, false⟩
    | some l => some { l with count := l.count + 1, last := t }
  match c.overflow with
  | some o => if o.delivered then { c with overflowNext := more c.overflowNext, lost := satAdd 32 c.lost 1 }
              else { c with overflow := more c.overflow, lost := satAdd 32 c.lost 1 }
  | none => { c with overflow := more none, lost := satAdd 32 c.lost 1 }

/-- Of the delivered records still queued, the one at queue place `i` is gone. -/
def forget : Nat → List Bool → List Bool
  | _, [] => []
  | i, b :: r => if b then (if i = 0 then false :: r else b :: forget (i - 1) r) else b :: forget i r

/-- A record arrives at a notification queue of 32 places (R332). -/
def ChanSt.arrive (c : ChanSt) (r : Rec) : ChanSt :=
  if c.queue.length < 32 then { c with queue := c.queue ++ [r] }
  else match oldest (fun q => decide (q.severity < Nat.min r.severity 3)) c.queue with
    | some i => ({ c with queue := c.queue.eraseIdx i ++ [r], sentAlive := forget i c.sentAlive }).lose r.last
    | none => c.lose r.last

/-- A record bound for the store is lost (R384). -/
def Store.lose (t : Store) (time : Nat) : Store :=
  { t with
    lostNow := t.lostNow + 1
    lostTotal := satAdd 32 t.lostTotal 1
    lostFirst := if t.lostNow = 0 then time else t.lostFirst
    lostLast := time }

/-- A record arrives at the record store's write queue of 4,096, or at the volatile ring of 65,536 (R383, R384). -/
def Store.arrive (t : Store) (r : Rec) : Store :=
  if t.isVolatile then { t with ring := (t.ring ++ [r]).drop (t.ring.length + 1 - 65536) }
  else if t.queue.length < 4096 then { t with queue := t.queue ++ [r] }
  else if r.severity < 3 then t.lose r.last
  else if t.queue.any (fun q => decide (q.severity < 3)) then
    match oldest (fun q => decide (q.severity < r.severity)) t.queue with
    | some i => ({ t with queue := t.queue.eraseIdx i ++ [r] }).lose r.last
    | none => { t with held := t.held ++ [r] }
  else { t with held := t.held ++ [r] }

/-! ### Slots of the record store (R379 to R381) -/

def Store.sector (t : Store) (n : Nat) : Sector := t.sectors.get {} n
def Store.updSector (t : Store) (n : Nat) (f : Sector → Sector) : Store := { t with sectors := t.sectors.upd {} n f }
def State.updStore (s : State) (f : Store → Store) : State := { s with recd := { s.recd with store := f s.recd.store } }

/-- Erased usable sectors, besides the one being written. -/
def Store.erasedSectors (t : Store) : List Nat := (List.range 1024).filter fun n =>
  let x := t.sector n
  x.erased && !x.erasing && !x.retired && t.writing != some n

/-- The next sector of the ring: the erased usable one of the lowest erase count, and among equals of the lowest index (R380). -/
def Store.nextSector (t : Store) : Option Nat := t.erasedSectors.foldl (fun (o : Option Nat) n => match o with
  | some b => if (t.sector n).erases < (t.sector b).erases then some n else o
  | none => some n) none

/-- The sector that the next slot goes into, opened where need be; none is left when nothing is erased. -/
def Store.open_ (t : Store) : Option (Nat × Store) :=
  match t.writing.filter fun n => decide ((t.sector n).used < 1008) with
  | some n => some (n, t)
  | none => t.nextSector.map fun n =>
      (n, { (t.updSector n fun x => { x with erased := false, seq := t.nextSectorSeq, used := 0, slots := [], closed := false }) with
            writing := some n, nextSectorSeq := t.nextSectorSeq + 1 })

/-- One slot is programmed (R379); false where no sector can take it. -/
def Store.program (t : Store) (slot : Nat → Slot) : Store × Bool :=
  match t.open_ with
  | none => (t, false)
  | some (n, t) => ({ (t.updSector n fun x => { x with slots := x.slots ++ [slot t.nextSeq], used := x.used + 1 }) with
      nextSeq := t.nextSeq + 1 }, true)

/-- State records of `kinds` are stored (R381): 1 timebase, 2 OPERATING_SECONDS, 3 POWER_CYCLES, 4 SHAPE_EPOCH. The repair map and the
tired marks take no slot (log 159). -/
def Store.keep (t : Store) (kinds : List Nat) : Store := kinds.foldl (fun t k => (t.program (.state · k)).1) t

/-! ### Caps and delivery (R376, R378) -/

/-- Destinations: event queue of function k is k, the notification queue of channel n is 64 + n, the console 130, the store 131. -/
def destChan (n : Nat) : Nat := 64 + n
def destConsole : Nat := 130
def destStore : Nat := 131

/-- Does a destination accept one more event record this second? -/
def Cap.accept (c : Cap) (r : Rec) : Bool × Cap :=
  if c.count < 2000 || decide (3 ≤ r.severity) then (true, { c with count := c.count + 1 })
  else (false, { c with
    suppressed := c.suppressed + 1
    codes := c.codes.upd 0 r.code (· + 1)
    first := if c.suppressed = 0 then r.first else c.first
    last := r.last })

/-- Offer an event record to one destination under its cap. -/
def State.offer (s : State) (dest : Nat) (r : Rec) (take : State → State) : State :=
  let (ok, c) := (s.recd.caps.get {} dest).accept r
  let s := { s with recd := { s.recd with caps := s.recd.caps.put dest c } }
  if ok then take s else s

def State.toFn (s : State) (k : Nat) (r : Rec) : State := s.updFn k (·.arrive r)
def State.toChan (s : State) (n : Nat) (r : Rec) : State := s.updChan n (·.arrive r)
def State.toConsole (s : State) (r : Rec) : State := { s with recd := { s.recd with console := s.recd.console ++ [r.line] } }
def State.toStore (s : State) (r : Rec) : State :=
  { s with recd := { s.recd with store := s.recd.store.arrive r } }

/-- Key of the function that owns a context (R277). -/
def State.ownerFn (s : State) (c : Nat) : Nat := c / 16 * 16 + (s.ctx c).owner

/-- Offer to the event queues whose filter the record passes (R288). -/
def State.offerFns (s : State) (r : Rec) : State :=
  match r.job with
  | some c => s.offer (s.ownerFn c) r (·.toFn (s.ownerFn c) r)
  | none => [0, 16, 32, 48].foldl (fun s k =>
      if (s.fn k).filter ≤ r.severity then s.offer k r (·.toFn k r) else s) s

/-- Offer to the notification queues (R332). -/
def State.offerChans (s : State) (r : Rec) : State :=
  if r.job.isSome then s
  else (List.range 65).foldl (fun s n =>
    if s.notifyFilter n ≤ r.severity then s.offer (destChan n) r (·.toChan n r) else s) s

/-- Deliver a formed event record to every destination that accepts it (R376). -/
def State.deliver (s : State) (r : Rec) : State :=
  let s := (s.offerFns r).offerChans r
  let s := if s.obj 0x9000 2 = 0 && decide (s.obj 0x9005 3 ≤ r.severity) then s.offer destConsole r (·.toConsole r) else s
  if 2 ≤ r.severity then s.offer destStore r (·.toStore r) else s

/-! ### Forming and coalescing (R369, R370, R377) -/

def State.form (s : State) (cls code sev : Nat) (src : Source) (job : Option Nat) (first last : Nat) (boundVoid : Bool)
    (payload : Payload) : Rec :=
  { cls := cls, severity := sev, code := code, unit := s.unitNo, src := src, rep := 1, timeValid := s.timeValid,
    isVolatile := s.recd.store.isVolatile, armed := s.inject.armed, saturated := false, boundVoid := boundVoid,
    first := first, last := last, opSeconds := s.clock.opSeconds, powerCycle := s.clock.powerCycles, job := job,
    payload := payload }

/-- Key of a code and the four source bytes. -/
def coalesceKey (code unit : Nat) (src : Source) : Nat :=
  code * 2 ^ 32 + unit * 2 ^ 24 + src.isle.toNat * 2 ^ 16 + src.block.toNat * 2 ^ 8 + src.inst.toNat

/-- An occurrence joins a follow-up (R377 rule 2). -/
def Rec.join (f r : Rec) : Rec :=
  { f with
    rep := if f.rep < 65535 then f.rep + 1 else 65535
    saturated := f.saturated || decide (65535 ≤ f.rep)
    last := r.last
    payload := r.payload
    severity := Nat.max f.severity r.severity }

def State.openWindow (s : State) (key : Nat) : State :=
  { s with recd := { s.recd with windows := s.recd.windows.put key ⟨s.obj 0x1200 0, s.clock.ticks, none⟩ } }

/-- An occurrence reaches the recorder (R377). -/
def State.occur (s : State) (r : Rec) : State :=
  let key := coalesceKey r.code r.unit r.src
  match s.recd.windows.find? key with
  | none => (s.deliver r).openWindow key
  | some w =>
    let f := match w.follow with
      | none => r
      | some f => f.join r
    if 3 ≤ r.severity then (s.deliver f).openWindow key
    else { s with recd := { s.recd with windows := s.recd.windows.put key { w with follow := some f } } }

/-- While the Holm restarts, an occurrence is held, coalesced by code and source, up to 64 for each isle (R444). -/
def State.holdEvent (s : State) (r : Rec) : State :=
  let same (q : Rec) : Bool := q.code == r.code && q.src == r.src
  if s.boot.heldEvents.any same then
    { s with boot := { s.boot with heldEvents := s.boot.heldEvents.map fun q => if same q then q.join r else q } }
  else if (s.boot.heldEvents.filter fun q => q.src.isle == r.src.isle).length < 64 then
    { s with boot := { s.boot with heldEvents := s.boot.heldEvents ++ [r] } }
  else { s with boot := { s.boot with lostEvents := s.boot.lostEvents + 1 } }

/-- Raise an event. With no recorder running, in W3 and in recovery, nothing forms a record. -/
def State.emit (s : State) (code sev : Nat) (src : Source) (job : Option Nat) (vals : List Nat) : State :=
  let r := s.form 2 code sev src job s.clock.base s.clock.base false (.values vals)
  if s.boot.restarting then s.holdEvent r
  else if s.boot.holmUp && !s.boot.recovery then s.occur r
  else s

/-- An integer as an I64 payload value. -/
def i64 (i : Int) : Nat := ofInt 64 i

/-! ### Plans and leases -/

def Plan.leaseOn (p : Plan) (isle : Nat) : Option LeaseEntry := p.leases.find? fun l => l.isle == isle
def Plan.names (p : Plan) (isle : Nat) : Bool := (p.leaseOn isle).isSome
/-- Does the lease hold pseudo-channel bit `pc` of the isle? -/
def Plan.hasPc (p : Plan) (isle pc : Nat) : Bool := match p.leaseOn isle with
  | some l => bit l.pcs pc
  | none => false
def Plan.hasStack (p : Plan) (k : Nat) : Bool := match p.leaseOn (k / 2) with
  | some l => decide (bits l.pcs (k % 2 * 32 + 31) (k % 2 * 32) ≠ 0)
  | none => false
def Plan.hasStep (p : Plan) (isle step : Nat) : Bool := match p.leaseOn isle with
  | some l => bit l.flags 1 && decide (l.scratchBase ≤ step) && decide (step < l.scratchBase + l.scratchSpan)
  | none => false
def Plan.hasWay (p : Plan) (isle way : Nat) : Bool := match p.leaseOn isle with
  | some l => bit l.ways way
  | none => false
def Plan.hasToken (p : Plan) (isle counter : Nat) : Bool := match p.leaseOn isle with
  | some l => decide (l.tokenBase ≤ counter) && decide (counter < l.tokenBase + l.tokenSpan)
  | none => false
def Plan.hasOx (p : Plan) (e : Nat) : Bool := match p.leaseOn (e / 4) with
  | some l => bit l.ox (e % 4)
  | none => false
def Plan.hasCore (p : Plan) (c : Nat) : Bool := match p.leaseOn (c / 16) with
  | some l => bit l.bantam (c % 16)
  | none => false
def Plan.hasLamb (p : Plan) (isle : Nat) : Bool := match p.leaseOn isle with
  | some l => bit l.flags 0
  | none => false
/-- Does the lease hold the memory of this class 0 to 2 address (R60, R128)? -/
def Plan.hasMem (p : Plan) (a : Nat) : Bool :=
  if classOf a < 2 then decide (offOf a < classLimit (classOf a)) && p.hasPc (isleOf a) (pcOf a)
  else if classOf a = 2 then decide (offOf a < classLimit 2) && p.hasStep (isleOf a) (offOf a / 0x400000)
  else false

/-- Does a plan use the Strait port? -/
def Plan.usesPort (p : Plan) (port : Nat) : Bool := p.strands.any fun st => st.cls == 5 && st.inst == port

/-- The loaded plans, by context. -/
def State.loaded (s : State) : List (Nat × Plan) :=
  (List.range 64).filterMap fun c => (s.ctx c).plan.map (c, ·)

/-- An accepted run that has not halted. -/
def State.activeRun (s : State) (c : Nat) : Option Run := match (s.ctx c).run with
  | some r => if r.accepted && r.halted.isNone then some r else none
  | none => none

def State.updRun (s : State) (c : Nat) (f : Run → Run) : State := s.updCtx c fun x => { x with run := x.run.map f }

/-! ### Bound void (R19, R48) -/

/-- Mark the accepted runs of the contexts that `p` names: their completion records carry BOUND_VOID. -/
def State.voidRuns (s : State) (p : Nat → Plan → Bool) : State :=
  s.loaded.foldl (fun s cp => if p cp.1 cp.2 then s.updRun cp.1 fun r => if r.accepted then { r with boundVoid := true } else r
    else s) s

/-- An envelope condition fails for what the plan of context `c` leases (01, Table 4). -/
def State.outside (s : State) (c : Nat) (p : Plan) : Bool :=
  decide (s.power.force < p.header.profile) || (s.card (c / 16)).link != .up ||
    (p.leases.any fun l => (s.isle l.isle).pace.below || (List.range 2).any fun n =>
      p.hasStack (l.isle * 2 + n) && decide (1 ≤ (s.stack (l.isle * 2 + n)).step)) ||
    (List.range 128).any fun q => p.usesPort q && ((s.port q).link != .up || decide ((s.port q).lanes.length ≤ 30))

/-- An envelope condition fails for the loaded plan of a context, so that a completion record written now carries BOUND_VOID (R19). -/
def State.leaseOutside (s : State) (c : Nat) : Bool := match (s.ctx c).plan with
  | some p => s.outside c p
  | none => false

/-! ### Halting a job (R49) -/

/-- Open reduce entries, parked and returned contributions of a job are discarded (R160). -/
def State.dropReduces (s : State) (c : Nat) : State :=
  { s with adders := s.adders.map fun _ a => { a with
      lines := a.lines.keep fun _ l => l.ctx != c
      park := a.park.filter fun q => q.ctx != c
      returned := a.returned.filter fun q => q.ctx != c } }

/-- The job of a context halts with a fault code, unless it has already halted or runs nothing. -/
def State.haltJob (s : State) (c code : Nat) : State :=
  match s.activeRun c with
  | some r => (s.updRun c fun _ => { r with halted := some code }).dropReduces c
  | none => s

/-- Every job whose loaded plan `p` names halts. -/
def State.haltWhere (s : State) (code : Nat) (p : Nat → Plan → Bool) : State :=
  s.loaded.foldl (fun s cp => if p cp.1 cp.2 then s.haltJob cp.1 code else s) s

/-! ### Tokens (R32, R44, R45) -/

/-- Set wake sources of a core, and no others (05, Table 17). -/
def State.wakeCore (s : State) (k : Nat) (source : Nat) : State :=
  s.updCore k fun c => { c with wakeCause := c.wakeCause ||| BitVec.ofNat 64 (2 ^ source) }

/-- A counter takes a value; cores that watch it are woken when it reaches their target (05, Table 14). -/
def State.setToken (s : State) (isle counter v : Nat) : State :=
  let old := s.token isle counter
  let s := { s with tokens := s.tokens.put (isle * 4096 + counter) v }
  (List.range 16).foldl (fun s n =>
    let w := (s.core (isle * 16 + n)).watch.toNat
    if bits w 11 0 = counter && decide (old < bits w 27 12) && decide (bits w 27 12 ≤ v) then s.wakeCore (isle * 16 + n) 1 else s) s

/-- A signal of a job is applied to a counter; past 65,535 it saturates and the job halts (R44, R45). No signal of a halted job is
applied (R49). -/
def State.signal (s : State) (c isle counter inc : Nat) : State :=
  match s.activeRun c with
  | none => s
  | some _ =>
    let v := s.token isle counter + inc
    if v ≤ 65535 then s.setToken isle counter v
    else ((s.setToken isle counter 65535).emit 0x620 3 (srcIn isle 1 0) (some c) [isle, counter, c]).haltJob c 0x620

/-! ### Background cycles (R389) -/

/-- Key of an activity at an instance of an isle. -/
def bgKey (activity isle inst : Nat) : Nat := activity * 65536 + isle * 256 + inst

/-- A cycle of an activity completes at an instance; its overdue condition clears. -/
def State.bgCycle (s : State) (activity isle inst : Nat) : State :=
  { s with bg := s.bg.upd {} (bgKey activity isle inst) fun b =>
      { b with last := some s.clock.base, cycles := satAdd 32 b.cycles 1, overdue := false } }

def State.bgInterrupt (s : State) (activity isle inst : Nat) : State :=
  { s with bg := s.bg.upd {} (bgKey activity isle inst) fun b => { b with interrupted := satAdd 32 b.interrupted 1 } }

/-- A part of an isle is disabled in service once more (R402). -/
def State.countDisable (s : State) (isle part : Nat) : State :=
  s.updRepair isle fun r => { r with disables := r.disables.upd 0 part (· + 1) }

/-! ### Frames and page lists (R127, R139, R140) -/

/-- Stack key of an address of class 0 or 1. -/
def stackOf (a : Nat) : Nat := isleOf a * 2 + classOf a % 2

/-- The stack of an HBM address is held in self-refresh by thermal protection and refuses requests (R163). -/
def State.stackRefuses (s : State) (a : Nat) : Bool :=
  (s.stack (stackOf a)).selfRefresh && decide ((s.stack (stackOf a)).step = 3) && decide (classOf a < 2)
/-- Take one from a frame's COUNT; a frame in protection keeps it until its stack returns (R163). -/
def State.releaseFrame (s : State) (k : Nat) : State :=
  if s.stackRefuses (frameAddr k) then { s with deferred := s.deferred ++ [k] }
  else s.updFrame k fun f => { f with count := f.count - 1, copying := false }

/-- Every entry of the given lists of a run is released and set to null (R139). -/
def State.releaseLists (s : State) (c : Nat) (lists : List Nat) : State :=
  match (s.ctx c).run with
  | none => s
  | some r =>
    let addrs := lists.flatMap fun l => (r.lists.get {} l).values
    let s := (addrs.map frameKey).foldl State.releaseFrame s
    s.updRun c fun r => { r with lists := r.lists.keep fun l _ => !(lists.contains l) }

/-- At a launch, the job context goes into the owner registers of the leased pseudo-channels, keyed isle × 64 + PC_MASK bit, and ways, keyed
isle × 16 + way (R154). -/
def State.takeOwners (s : State) (c : Nat) (p : Plan) : State :=
  { s with
    pcOwner := p.leases.foldl (fun t l => ((List.range 64).filter (bit l.pcs)).foldl (fun t n => t.put (l.isle * 64 + n) c) t) s.pcOwner
    wayOwner := p.leases.foldl (fun t l => ((List.range 16).filter (bit l.ways)).foldl (fun t n => t.put (l.isle * 16 + n) c) t) s.wayOwner }
/-- The release at the end of a run (R140, R154, R301): every list, and the owner registers of pseudo-channels, ways and operand-store
pages. -/
def State.releaseRun (s : State) (c : Nat) : State :=
  match (s.ctx c).run with
  | none => s
  | some r =>
    let s := s.releaseLists c r.lists.keys
    { s with
      pages := s.pages.keep fun _ o => o != c
      pcOwner := s.pcOwner.keep fun _ o => o != c
      wayOwner := s.wayOwner.keep fun _ o => o != c }

/-! ### Completion and accounting records (R289, R291) -/

/-- A record that is not an event: to its function's queue, and to the store from severity 2 (R376). -/
def State.report (s : State) (c : Nat) (r : Rec) : State :=
  let s := s.toFn (s.ownerFn c) r
  if 2 ≤ r.severity then s.toStore r else s

/-- A completion record (R289) that carries BOUND_VOID where its run's bound was voided, and while an envelope condition fails for the plan
that the context holds (R19, R48). -/
def State.completion (s : State) (c code status : Nat) (refused nonRepro boundVoid : Bool) (tag planId bound : Nat)
    (detail : List Byte) (first : Nat) : State :=
  s.report c (s.form 1 code (if status = 0 then 0 else 3) (srcCtx c) (some c) first s.clock.base (boundVoid || s.leaseOutside c)
    (.completion ⟨status, c, nonRepro, refused, (s.ctx c).runNo, tag, planId, bound, detail⟩))

def State.runAccount (s : State) (c : Nat) (r : Run) : State :=
  s.report c (s.form 3 0x523 0 (srcCtx c) (some c) r.start s.clock.base false
    (.account ⟨c, r.number, r.waitSum, r.waitMax, Nat.min r.preempt 65535⟩))

/-- The entry in process is consumed (R280). -/
def State.consume (s : State) (c : Nat) : State := s.updCtx c fun x => { x with cons := x.cons + 1, entry := none }

/-- Refuse the entry in process, with a completion record marked as refused before acceptance (R282, R284). -/
def State.refuse (s : State) (c code status : Nat) (planId : Nat) (detail : List Byte) : State :=
  let tag := match (s.ctx c).entry with
    | some e => e.tag
    | none => 0
  (s.completion c code status true false false tag planId 0 detail s.clock.base).consume c

/-- A lease is returned: its resources wait for clearing and the context is EMPTY (R300, R310). -/
def State.returnLease (s : State) (c : Nat) : State :=
  let s := { s with caches := s.caches.map fun _ l => l.filter fun x => x.job != c }
  s.updCtx c fun x => { x with
    state := if x.state = .haltedLink then .haltedLink else .empty
    plan := none
    run := none
    clearing := match x.plan with
      | some p => x.clearing ++ [p]
      | none => x.clearing }

/-- Totals of CTX_ACCOUNT take in an ended run (14, Table 7). -/
def Account.add (a : Account) (r : Run) : Account :=
  { a with
    runs := satAdd 64 a.runs 1
    waitSum := satAdd 64 a.waitSum r.waitSum
    waitMax := Nat.max a.waitMax r.waitMax
    preempt := satAdd 32 a.preempt r.preempt }

/-- The completion and accounting records of an accepted run, with its status (R40, R48, R289); BOUND_OVERRUN and WEAVE_OVERRUN
where the envelope held and the figures were passed (R47, R312). -/
def State.endRecords (s : State) (c : Nat) (p : Plan) (r : Run) (status : Nat) : State :=
  let s := s.updFn (s.ownerFn c) fun f => { f with reserved := f.reserved - 2 }
  let s := s.completion c 0x520 status false r.nonRepro r.boundVoid r.tag p.header.planId p.header.boundNs [] r.start
  let s := s.runAccount c r
  let s := s.updCtx c fun x => { x with account := x.account.add r }
  let s := if !r.boundVoid && decide (p.header.boundNs < s.clock.base - r.start) then
      s.emit 0x625 3 (srcCtx c) (some c) [c, p.header.planId, p.header.boundNs, s.clock.base - r.start] else s
  if !r.boundVoid && decide (p.header.weaveNs < r.waitMax) then
    s.emit 0x653 3 (srcCtx c) (some c) [c, r.waitMax, p.header.weaveNs] else s

end Sys2Proof.Machine
end

