-- ==== Sys2Proof/Machine/ShapeOps.lean ====
section
/-! DEFINITION. The wafer floor, routes, the wafer shape and the service level (03). -/

namespace Sys2Proof.Machine

/-! ### Places (R50 to R52; 03, Tables 1 to 3) -/

def rowOf (i : Nat) : Nat := i / 8
def colOf (i : Nat) : Nat := i % 8

/-- The Sound between two neighbouring isles (03, Table 3). -/
def soundBetween (a b : Nat) : Nat :=
  let lo := Nat.min a b
  if rowOf a = rowOf b then rowOf lo * 7 + colOf lo else 56 + rowOf lo * 8 + colOf lo

def shoreSound (site : Nat) : Nat := 112 + site

/-- Edge isle of a shore site (03, Table 1). -/
def edgeIsle (site : Nat) : Nat :=
  if site < 8 then site else if site < 16 then (site - 8) * 8 + 7 else if site < 24 then 56 + (site - 16) else (site - 24) * 8

/-- Primary and secondary site of a bridge card (03, Table 2). -/
def bridgeSites (b : Nat) : Nat × Nat :=
  if b = 0 then (26, 27) else if b = 1 then (28, 29) else if b = 2 then (10, 11) else (12, 13)

/-- The two isles, or isle and shore site (64 + site), that a Sound joins. -/
def soundEnds (n : Nat) : Nat × Nat :=
  if n < 56 then (n / 7 * 8 + n % 7, n / 7 * 8 + n % 7 + 1)
  else if n < 112 then (n - 56, n - 48)
  else (edgeIsle (n - 112), 64 + (n - 112))

/-! ### Routes (R56) -/

/-- Isles entered on the way from `a` along its row to column `c`. -/
def alongRow (a c : Nat) : List Nat :=
  if colOf a ≤ c then (List.range (c - colOf a)).map (a + 1 + ·) else (List.range (colOf a - c)).map (a - 1 - ·)
/-- Isles entered on the way from `a` along its column to row `r`. -/
def alongCol (a r : Nat) : List Nat :=
  if rowOf a ≤ r then (List.range (r - rowOf a)).map (a + 8 + 8 * ·) else (List.range (rowOf a - r)).map (a - 8 - 8 * ·)
def xyPath (a b : Nat) : List Nat := alongRow a (colOf b) ++ alongCol (rowOf a * 8 + colOf b) (rowOf b)
def yxPath (a b : Nat) : List Nat := alongCol a (rowOf b) ++ alongRow (rowOf b * 8 + colOf a) (colOf b)

/-- A leg is clear when every isle it enters is in the shape and every Sound it crosses is in service. -/
def legClear (t : ShapeTable) : Nat → List Nat → Bool
  | _, [] => true
  | a, b :: r => bit t.mask b && !(t.out.contains (soundBetween a b)) && legClear t b r

/-- Rule 3 of 03, Table 4: the lowest-numbered waypoint of the smallest total hop count. -/
def viaWaypoint (t : ShapeTable) (a b : Nat) : Option (List Nat) :=
  (List.range 64).foldl (fun best w =>
    let p := xyPath a w
    let q := xyPath w b
    if bit t.mask w && legClear t a p && legClear t w q then
      match best with
      | some r => if p.length + q.length < r.length then some (p ++ q) else best
      | none => some (p ++ q)
    else best) none

/-- The route from `a` to `b`: the isles it enters, by the first rule of 03, Table 4 that gives a clear one. -/
def route (t : ShapeTable) (a b : Nat) : Option (List Nat) :=
  if legClear t a (xyPath a b) then some (xyPath a b)
  else if legClear t a (yxPath a b) then some (yxPath a b)
  else viaWaypoint t a b

/-- The route table of a plan's epoch (R57). -/
def State.tableOf (s : State) (epoch : Nat) : ShapeTable := match s.shape.old with
  | some t => if epoch = s.shape.cur.epoch then s.shape.cur else if epoch = t.epoch then t else s.shape.cur
  | none => s.shape.cur

def hops (t : ShapeTable) (a b : Nat) : Option Nat := (route t a b).map (·.length)

/-- The Sounds that a path from `a` crosses. -/
def soundsOn : Nat → List Nat → List Nat
  | _, [] => []
  | a, b :: r => soundBetween a b :: soundsOn b r

/-- The isle through which a bridge's traffic enters, primary before secondary (R52). -/
def bridgeIsle (t : ShapeTable) (b : Nat) : Option Nat :=
  let ok (site : Nat) : Bool := bit t.mask (edgeIsle site) && !(t.out.contains (shoreSound site))
  let (p, q) := bridgeSites b
  if ok p then some (edgeIsle p) else if ok q then some (edgeIsle q) else none

/-- The site of a bridge's attach block that its traffic uses (R52). -/
def bridgeSite (t : ShapeTable) (b : Nat) : Option Nat :=
  (bridgeIsle t b).map fun i => if i = edgeIsle (bridgeSites b).1 then (bridgeSites b).1 else (bridgeSites b).2

/-- A clear route from an isle to a bridge's attach block. -/
def reachesBridge (t : ShapeTable) (i b : Nat) : Bool := match bridgeIsle t b with
  | some e => i == e || (route t i e).isSome
  | none => false

/-! ### Parts of a changed shape (R61) -/

/-- The neighbours of an isle (R50). -/
def neighbours (i : Nat) : List Nat :=
  (if 8 ≤ i then [i - 8] else []) ++ (if i < 56 then [i + 8] else []) ++ (if colOf i = 0 then [] else [i - 1]) ++
    (if colOf i = 7 then [] else [i + 1])

/-- Isles of `mask` next to an isle of `seen`, over Sounds in service, joined to it. -/
def grow (t : ShapeTable) (seen : Nat) : Nat :=
  (List.range 64).foldl (fun m i =>
    if bit t.mask i && !(bit m i) && ((neighbours i).any fun j =>
        bit m j && !(t.out.contains (soundBetween i j)))
    then setBit m i else m) seen

def growN (t : ShapeTable) : Nat → Nat → Nat
  | 0, m => m
  | n + 1, m => let m' := grow t m; if m' = m then m else growN t n m'

/-- The parts of a shape that cannot reach each other, in order of their lowest isle. -/
def partsOf (t : ShapeTable) : List Nat :=
  (List.range 64).foldl (fun ps i =>
    if bit t.mask i && !(ps.any fun p => bit p i) then ps ++ [growN t 64 (2 ^ i)] else ps) []

/-- Does the part reach the attach block of a bridge of `trained`? -/
def partBridged (t : ShapeTable) (trained : List Nat) (p : Nat) : Bool :=
  trained.any fun b => (bridgeIsle { t with mask := p } b).isSome

/-- The part that stays (R61 rules 1 to 3). -/
def choosePart (t : ShapeTable) (trained : List Nat) : Nat :=
  (partsOf t).foldl (fun best p =>
    if best = 0 then p
    else if partBridged t trained p != partBridged t trained best then (if partBridged t trained p then p else best)
    else if popcount 64 best < popcount 64 p then p else best) 0

def isleList (mask : Nat) : List Nat := (List.range 64).filter (bit mask)

/-- The first pair of isles of the shape without a route (R61). -/
def stuckPair (t : ShapeTable) : Option Nat :=
  (isleList t.mask).findSome? fun b => if (isleList t.mask).any fun a => decide (a < b) && ((route t a b).isNone || (route t b a).isNone)
    then some b else none

/-- Leave out isles until every pair is reachable; which isle of a stuck pair leaves is the model's choice (log 19). -/
def settle (t : ShapeTable) : Nat → Nat
  | 0 => t.mask
  | n + 1 => match stuckPair t with
    | some b => settle { t with mask := clearBit t.mask b } n
    | none => t.mask

def trainedCards (s : State) : List Nat := (List.range 4).filter fun b => (s.card b).present && (s.card b).link == .up

/-! ### Service level (R65) -/

/-- The isle terms of S2 (03, Table 6). -/
def isleServes (x : IsleSt) : Bool :=
  decide (x.ox ≠ 0) && decide (2 ≤ popcount 16 x.bantam.toNat) &&
    (decide (8 ≤ popcount 32 (bits x.pc.toNat 31 0)) || decide (8 ≤ popcount 32 (bits x.pc.toNat 63 32)))

/-- The first `n` bits of `m` are set but for those of parts out since manufacture (R64). -/
def RepairSt.allBut (r : RepairSt) (base n m : Nat) : Bool := (List.range n).all fun k => bit m k || r.fused.contains (base + k)

/-- Nothing of the isle is disabled beyond what was at manufacture (R65). -/
def isleWhole (s : State) (i : Nat) : Bool :=
  let x := s.isle i
  let r := s.repairOf i
  r.allBut 0 4 x.ox.toNat && r.allBut 16 16 x.bantam.toNat && r.allBut 64 64 x.pc.toNat && (x.lamb || r.fused.contains 4) &&
    (s.isleStore i).disabledSteps == 0

/-- SERVICE_LEVEL and SERVICE_SHORTFALL (R65; 03, Table 8). N0 does not count towards S1 while a bridge owns it (R345). -/
def State.service (s : State) : Nat × Nat :=
  let t := s.shape.cur
  let trained := trainedCards s
  let shape := isleList t.mask
  let good := shape.filter fun i => isleServes (s.isle i)
  let routed := good.any fun i => trained.any fun b => reachesBridge t i b
  let vol := if s.recd.store.isVolatile then 16 else 0
  let b (p : Bool) (n : Nat) : Nat := if p then 2 ^ n else 0
  if !(s.boot.bcUp && s.boot.holmUp && (s.obj 0x9000 1 == 0 || !trained.isEmpty)) then (0, vol)
  else if routed then
    let s3 := t.mask == Config.licensedShape.toNat && shape.all (isleWhole s) && trained.length == 4
    if s3 then (3, vol)
    else (2, vol + b (t.mask != Config.licensedShape.toNat) 0 + b (!(shape.all (isleWhole s))) 1 + b (trained.length != 4) 2)
  else (1, vol + b shape.isEmpty 0 + b good.isEmpty 1 + b trained.isEmpty 2 + 8)

/-- Publish the service level; SERVICE_LEVEL_CHANGED once the new value is readable (R67). A restart of the Holm changes nothing. -/
def State.refresh (s : State) : State :=
  if s.boot.restarting then s else
  let (l, f) := s.service
  let old := s.shape.level
  let s := { s with shape := { s.shape with level := l, shortfall := f } }
  if l = old then s else s.emit 0x230 (if l < old then 2 else 1) srcUnit none [old, l, f]

/-! ### Changing the shape (R61, R62, R66, R67) -/

def State.setIsle (s : State) (i : Nat) (st : IsleState) : State :=
  s.updIsle i fun x => { x with state := st, changed := s.clock.base }

/-- The epoch after `e` (R62). -/
def nextEpoch (e : Nat) : Nat := if e = 0xFFFFFFFF then 2 else e + 1

/-- Would the isle be reachable, with every isle of the shape kept, if it joined the shape (R61)? -/
def State.canJoin (s : State) (i : Nat) (out : List Nat) : Bool :=
  let t : ShapeTable := { s.shape.cur with mask := setBit s.shape.cur.mask i, out := out }
  settle { t with mask := choosePart t (trainedCards s) } 64 == t.mask

/-- The accepted run of a plan loaded under an epoch before the current one that started first (R67). -/
def State.olderRun (s : State) : Option (Nat × Plan) :=
  (s.loaded.foldl (fun (best : Option (Nat × (Nat × Plan))) cp =>
    match (s.ctx cp.1).run with
    | some r =>
      if r.accepted && cp.2.header.epoch != s.shape.cur.epoch && best.all (fun b => decide (r.start < b.1)) then some (r.start, cp)
      else best
    | none => best) none).map (·.2)

/-- A planned change stands behind those that wait; where a run of an older epoch makes it wait, SHAPE_CHANGE_WAITING gives the PLAN_ID of
the oldest (R67). -/
def State.queueChange (s : State) (ch : ShapeChange) : State :=
  let s := { s with shape := { s.shape with waiting := s.shape.waiting ++ [ch] } }
  match s.olderRun with
  | some cp => s.emit 0x225 1 srcUnit none [cp.2.header.planId]
  | none => s

/-- STRANDED isles that a clear route reaches again: the return of each is a planned change (03, "When it fails"; R66). -/
def State.queueStranded (s : State) : State :=
  ((List.range 64).filter fun i =>
    (s.isle i).state == .stranded && !(s.shape.waiting.contains (.unstrand i)) && s.canJoin i s.shape.cur.out).foldl
    (fun s i => s.queueChange (.unstrand i)) s

/-- The isles of `mask` that stay in the shape where the Sounds `out` are out of service (R61). -/
def State.staying (s : State) (mask : Nat) (out : List Nat) : Nat :=
  let t : ShapeTable := { s.shape.cur with mask := mask, out := out }
  settle { t with mask := choosePart t (trainedCards s) } 64

/-- The Sounds of the shape of `mask`: those in service between its isles and to their shore sites (R61). -/
def shapeSounds (mask : Nat) (out : List Nat) : List Nat :=
  (List.range 144).filter fun n => let (a, b) := soundEnds n; bit mask a && (decide (64 ≤ b) || bit mask b) && !(out.contains n)

/-- Two shapes are the same: their isles, and the Sounds in service among them (R61). -/
def sameShape (mask : Nat) (out : List Nat) (mask' : Nat) (out' : List Nat) : Bool :=
  mask == mask' && shapeSounds mask out == shapeSounds mask' out'

/-- The shape becomes `mask` and the Sounds `out` are out of service: isles that no longer reach the part that stays are STRANDED, and the
service level follows. The epoch advances where the shape is another than before, and for no other cause (R62). -/
def State.reshape (s : State) (mask : Nat) (out : List Nat) : State :=
  let kept := s.staying mask out
  let old := s.shape.cur
  let same := sameShape kept out old.mask old.out
  if kept = mask && kept = old.mask && out == old.out then s else
  let e := if same then old.epoch else nextEpoch old.epoch
  let was := if same then s.shape.old else if s.shape.published then some old else none
  let s := { s with shape := { s.shape with cur := ⟨e, kept, out⟩, old := was } }
  let s := s.updStore fun t => { (if same then t else t.keep [4]) with kept := { t.kept with epoch := e, shape := kept, sounds := out } }
  let s := ((isleList mask).filter fun i => !(bit kept i)).foldl (fun s i =>
    (s.setIsle i .stranded).emit 0x222 2 (srcIn i 1 0) none [i]) s
  let s := (isleList kept).foldl (fun s i => if (s.isle i).state = .serving then s else s.setIsle i .serving) s
  (if same then s else s.emit 0x220 1 srcUnit none [old.epoch, e, kept]).refresh.queueStranded

/-- A hard-fault removal: runs of the oldest epoch halt with SHAPE_MISMATCH, and the change proceeds (R67). -/
def State.removeNow (s : State) (mask : Nat) (out : List Nat) : State :=
  let same := sameShape (s.staying mask out) out s.shape.cur.mask s.shape.cur.out
  let s := if s.shape.old.isSome && !same then s.haltWhere 0x610 fun c p => p.header.epoch != s.shape.cur.epoch && (s.activeRun c).isSome else s
  s.reshape mask out

def State.outSounds (s : State) : List Nat := (List.range 144).filter fun n => (s.sound n).state != .inService

/-- A planned change of the shape takes place. A drain goes to phase 2 (18, Table 6); a rejoin ends with the isle SERVING (R403). -/
def State.applyChange (s : State) (ch : ShapeChange) : State :=
  match ch with
  | .drain i =>
    ((s.setIsle i .draining).updRepair i fun r => { r with phase := 2 }).reshape (clearBit s.shape.cur.mask i) s.outSounds
  | .rejoin i =>
    let s := s.reshape (setBit s.shape.cur.mask i) s.outSounds
    let s := (s.updRepair i fun r => { r with phase := 0 }).actionDone 0x7010 (i + 1)
    if (s.isle i).state = .serving then s.emit 0x706 1 (srcIn i 1 0) none [i, s.shape.cur.epoch] else s
  | .unstrand i =>
    if (s.isle i).state = .stranded && s.canJoin i s.outSounds then s.reshape (setBit s.shape.cur.mask i) s.outSounds else s
  | .soundReturn n =>
    let s := s.updSound n fun x => { x with state := .inService }
    s.reshape s.shape.cur.mask s.outSounds

/-- A planned change waits while a run of an older epoch is active, and SHAPE_CHANGE_WAITING reports it; it waits behind the changes
already waiting (R66, R67). While the Holm restarts, shape changes wait (R444). -/
def State.plannedChange (s : State) (ch : ShapeChange) : State :=
  if s.olderRun.isNone && s.shape.waiting.isEmpty && !s.boot.restarting then s.applyChange ch else s.queueChange ch

/-! ### Power-off and hard fault of an isle -/

/-- The stores, engines, cores and counters of an isle lose their state: its memory, token counters and frame counts are gone, its
RETIRED marks come back from the repair map (R418 I3, R126). -/
def State.clearIsle (s : State) (i : Nat) : State :=
  { s with
    mem := s.mem.clear (gaddr i 0 0) (2 ^ 52)
    bad := s.bad.keep fun a _ => decide (isleOf a ≠ i)
    frames := (s.frames.map fun k f => if k / 2 ^ 19 / 3 = i then { retired := f.retired } else f)
    tokens := s.tokens.keep fun k _ => k / 4096 != i
    pages := s.pages.keep fun k _ => k / 128 != i
    caches := s.caches.drop i
    adders := s.adders.keep fun k _ => k / 3 != i
    engines := (s.engines.map fun k e => if k / 4 = i then { e with active := {}, shadow := {}, acc := {}, masks := {} } else e)
    lambs := (s.lambs.map fun k x => if k = i then { x with src := none, win := none, pad := none, dst := none, buf := [] } else x)
    cores := s.cores.keep fun k _ => k / 16 != i
    hbm := s.hbm.map fun k x => if k / 2 = i then { x with trained := false, selfRefresh := false, coolSince := none } else x }

/-- HOLD_RELEASE subindex of an isle and of a shore site (R422). -/
def holdIsle (i : Nat) : Nat := i + 1
def holdSite (n : Nat) : Nat := 0x41 + n

/-- An isle goes to I3: rails off, contents lost, boundaries unpowered (R409, R418). -/
def State.powerOffIsle (s : State) (i : Nat) : State :=
  let s := s.clearIsle i
  { s with power := { s.power with
      isle := s.power.isle.put i .i3
      hold := s.power.hold.put (holdIsle i) .unpowered
      ready := s.power.ready.put (holdIsle i) false } }

/-- An isle enters FAILED. A drain, retest or rejoin of it ends with PREEMPTED (R406); its entries are what AUTO_RETEST goes by
(R404). -/
def State.enterFailed (s : State) (i : Nat) : State :=
  let s := s.setIsle i .failed
  let s := s.updRepair i fun r => { r with
    phase := 0, soundsPassed := false, forced := false, failedBefore := r.failedAt, failedAt := some s.clock.base, autoDone := false }
  let s := if s.running 0x7010 (i + 1) then s.setAction 0x7010 (i + 1) 3 5 else s
  if s.running 0x2300 (i + 1) then s.setAction 0x2300 (i + 1) 3 5 else s

/-- A hard fault of an isle (R66; 03, "When it fails"): FAILED, its jobs halt, it leaves the shape, the service level follows. A fault
of an isle already FAILED changes nothing. -/
def State.isleFault (s : State) (i block : Nat) : State :=
  if (s.isle i).state = .failed || (s.isle i).state = .unlicensed then s else
  let s := (s.enterFailed i).emit 0x221 3 (srcIn i 1 0) none [i, block]
  let s := s.haltWhere 0x221 fun _ p => p.names i
  let s := s.powerOffIsle i
  let keep (w : ShapeChange) : Bool := w != .rejoin i && w != .unstrand i && w != .drain i
  let s := { s with shape := { s.shape with waiting := s.shape.waiting.filter keep } }
  if bit s.shape.cur.mask i then s.removeNow (clearBit s.shape.cur.mask i) s.outSounds else s.refresh

end Sys2Proof.Machine
end

