-- ==== Sys2Proof/Machine/InjectOps.lean ====
section
/-! DEFINITION. What an injector does to one unit of traffic (R450 to R455). -/

namespace Sys2Proof.Machine

/-- What the points made of a unit. A unit held for reorder is sent after the next one and has the outcome of an untouched unit
(21, Table 3). -/
inductive Hit where
  | pass
  | drop
  | corrupt (flips : List Nat)
deriving DecidableEq, Repr

/-- Does a point, on its eligible unit number `n` from 1, inject it (R451)? -/
def PointSt.strikes (p : PointSt) (n : Nat) : Bool :=
  if n ≤ p.skip then false
  else if p.mode = 1 then decide (n - p.skip ≤ p.amount)
  else (n - p.skip) % p.amount == 0

/-- One eligible unit passes an injector: its points act in the order of their numbers, and a dropped unit is not seen by the next
(R451, R452, R460). -/
def State.inject1 (s : State) (target inst dir layer : Nat) : State × Hit :=
  if !s.inject.armed then (s, .pass) else
  (List.range 16).foldl (fun sh n =>
    let (s, h) := sh
    let p := s.inject.points.get {} n
    if h = .drop || !(p.enable && p.target == target && p.inst == inst && p.dir == dir && p.layer == layer) then (s, h) else
    let e := p.eligible + 1
    let hit := p.strikes e
    let p' := { p with eligible := e, injected := if hit then p.injected + 1 else p.injected, holding := hit && p.action == 3 }
    let s := { s with inject := { s.inject with points := s.inject.points.put n p' } }
    if !hit then (s, h) else
    let s := s.emit 0xA02 0 srcHolm none [n, e]
    (s, if p.action = 1 then .drop else if p.action = 2 then .corrupt p.flips else h)) (s, .pass)

/-- A SOUND_UNCORRECTABLE error met by a job (R68); `injected` leaves the Sound in service (R455). -/
def State.soundError (s : State) (sound c : Nat) (injected : Bool) : State :=
  let s := (s.emit 0x223 3 (srcIn 0xFF 8 sound) (some c) [sound, c]).haltJob c 0x223
  if injected then s else
  let s := s.updSound sound fun x => { x with state := .out }
  s.removeNow s.shape.cur.mask s.outSounds

/-- A packet of a job crosses Sound `n` in direction `d`: whether it goes on. The injectors of the Sound act on it, and one of two flipped
bits is poisoned (R453, R455). `err` is a Sound that meets an uncorrectable error of its own (R68). -/
def State.crossOne (s : State) (c n d layer : Nat) (err : Option Nat) : State × Bool :=
  let (s, h) := s.inject1 2 n d layer
  match h with
  | .drop => (s, false)
  | .corrupt f => if err = some n then (s.soundError n c false, false) else if f.length < 2 then (s, true) else (s.soundError n c true, false)
  | .pass => if err = some n then (s.soundError n c false, false) else (s, true)

/-- A packet crosses Sounds, each with its direction, in turn. -/
def State.crossSounds (s : State) (c layer : Nat) (err : Option Nat) (path : List (Nat × Nat)) : State × Bool :=
  path.foldl (fun sb nd => if sb.2 then sb.1.crossOne c nd.1 nd.2 layer err else sb) (s, true)

/-- The Sounds of a path of isles from `a`, each with its direction: 0 towards the higher-numbered isle (21, Table 1). -/
def pathSounds (a : Nat) (path : List Nat) : List (Nat × Nat) :=
  ((a :: path).zip path).map fun ab => (soundBetween ab.1 ab.2, if ab.1 < ab.2 then 0 else 1)

/-- A place of the wafer floor: an isle, or shore site `n` as 64 + n. -/
def sitePlace (n : Nat) : Nat := 64 + n
def placeIsle (x : Nat) : Nat := if x < 64 then x else edgeIsle (x - 64)

/-- The Sounds between two places, shore Sounds with them, under a route table (R56); none where no route is clear. -/
def placeSounds (t : ShapeTable) (a b : Nat) : List (Nat × Nat) :=
  (if 64 ≤ a then [(shoreSound (a - 64), 1)] else []) ++
    pathSounds (placeIsle a) ((route t (placeIsle a) (placeIsle b)).getD []) ++ if 64 ≤ b then [(shoreSound (b - 64), 0)] else []

/-- A packet of a job crosses the Sounds of its route between two places, under the table of its plan's epoch (R57, R68, R455). One
packet stands for a page (log 20). -/
def State.crossRoute (s : State) (c a b layer : Nat) (err : Option Nat) : State × Bool :=
  if a = b || !s.inject.armed && err.isNone then (s, true) else
  match (s.ctx c).plan with
  | some p => s.crossSounds c layer err (placeSounds (s.tableOf p.header.epoch) a b)
  | none => (s, true)

end Sys2Proof.Machine
end

