-- ==== Sys2Proof/Machine/StraitOps.lean ====
section
/-! DEFINITION. What the Strait links share (12): windows, requests on their way, failures, link reset and retrain. -/

namespace Sys2Proof.Machine

/-- Pod number of the peer, where there is one. -/
def PortSt.peerPod (x : PortSt) : Nat := match x.peer with
  | some p => p.pod.toNat
  | none => 0

/-! ### Windows (R259) -/

/-- Operands of a WINDOW command (12, Table 5). -/
def windowOf (c : Cmd) : WindowOps :=
  { mode := BitVec.ofNat 8 (fieldAt c.ops 0 1), rights := BitVec.ofNat 8 (fieldAt c.ops 1 1),
    peerUnit := BitVec.ofNat 8 (fieldAt c.ops 2 1), key := BitVec.ofNat 32 (fieldAt c.ops 4 4),
    base := BitVec.ofNat 64 (fieldAt c.ops 8 8), span := BitVec.ofNat 32 (fieldAt c.ops 16 4) }

/-- The windows of a plan with their ports. -/
def Plan.windows (p : Plan) : List (Nat × WindowOps) :=
  p.strands.flatMap fun st => if st.cls = 5 then
    (st.cmds.filter fun c => c.cls == 5 && c.opcode == 1).map fun c => (st.inst, windowOf c) else []

def rightBit : TxKind → Nat
  | .read => 0 | .write => 1 | .reduce => 2 | _ => 3

/-- Does a memory window hold `n` bytes at `a`? -/
def windowHolds (w : WindowOps) (a n : Nat) : Bool :=
  decide (w.base.toNat ≤ a) && decide (a + n ≤ w.base.toNat + w.span.toNat * 65536)

/-- Does a token window hold the counter? -/
def windowCounts (w : WindowOps) (isle counter : Nat) : Bool :=
  isleOf w.base.toNat == isle && decide (w.base.toNat % 4096 ≤ counter) && decide (counter < w.base.toNat % 4096 + w.span.toNat)

/-- The import window of a plan that grants a right over a remote range, with its port. -/
def Plan.importFor (p : Plan) (kind : TxKind) (a n : Nat) : Option (Nat × WindowOps) :=
  p.windows.find? fun w => w.2.mode == 0 && bit w.2.rights.toNat (rightBit kind) && windowHolds w.2 a n

/-- As `importFor`, on one port. -/
def Plan.importOn (p : Plan) (port : Nat) (kind : TxKind) (a n : Nat) : Option WindowOps :=
  ((p.windows.find? fun w => w.1 == port && w.2.mode == 0 && bit w.2.rights.toNat (rightBit kind) && windowHolds w.2 a n)).map (·.2)

/-- The import token window of a port for a counter of a unit. -/
def Plan.tokenImport (p : Plan) (port unit isle counter : Nat) : Option WindowOps :=
  ((p.windows.find? fun w => w.1 == port && w.2.mode == 2 && bit w.2.rights.toNat 3 && unitOf w.2.base.toNat == unit &&
    windowCounts w.2 isle counter)).map (·.2)

/-- The installed windows of a port: those of accepted runs, with their contexts (R259). -/
def State.windowsOn (s : State) (port : Nat) : List (Nat × WindowOps) :=
  s.loaded.flatMap fun cp => match (s.ctx cp.1).run with
    | some r => if r.accepted then (cp.2.windows.filter (·.1 == port)).map fun w => (cp.1, w.2) else []
    | none => []

/-- Runs that use a port carry BOUND_VOID (R239, R271). -/
def State.voidPort (s : State) (port : Nat) : State := s.voidRuns fun _ p => p.usesPort port

/-! ### Failures (R264, R266) -/

/-- Is this the present run of the context? -/
def State.isRun (s : State) (c run : Nat) : Bool := match (s.ctx c).run with
  | some r => r.number == run
  | none => false


/-- The oldest outstanding access of a core that `p` names is done; those of kernels that have ended come first (R102). -/
def CoreSt.accessDone (x : CoreSt) (p : OpenAccess → Bool) : CoreSt :=
  match x.draining.findIdx? fun d => d.outstanding.any p with
  | some i => { x with draining := x.draining.modify i fun d => { d with outstanding := d.outstanding.eraseP p } }
  | none => { x with outstanding := x.outstanding.eraseP p }
/-- Every outstanding access of a core, oldest first. -/
def CoreSt.accesses (x : CoreSt) : List OpenAccess := x.draining.flatMap (·.outstanding) ++ x.outstanding
/-- What a core executes has ended, and its accesses that are still outstanding go to its implicit fence (R98). -/
def CoreSt.toDrain (x : CoreSt) : CoreSt :=
  { x with
    status := x.status &&& ~~~1, pc := x.idlePc, waiting := false, job := none, outstanding := []
    draining := x.draining ++ x.job.toList.map fun c => ⟨c, x.pc.toNat, x.outstanding⟩ }
/-- An access to another unit. -/
def farAccess : OpenAccess := ⟨3, true⟩
/-- A core's posted write is no longer outstanding (R102). -/
def State.freeAck (s : State) (l : Landing) : State := match l with
  | .ack k => s.updCore k (·.accessDone (· == farAccess))
  | _ => s

/-- A posted request fails: POSTED_FAILED, the poisoned epoch and WRITE_LOST_REMOTE (R264). Cause: a NAK cause, 16 no acknowledgement,
17 link reset (log 33). -/
def State.failPosted (s : State) (port : Nat) (q : Request) (cause : Nat) : State :=
  let s := (s.freeAck q.land).updCtx q.ctx fun x => { x with postedFailed := satAdd 32 x.postedFailed 1 }
  let s := if s.isRun q.ctx q.run then s.updRun q.ctx fun r => { r with poisoned := true } else s
  s.emit 0x428 3 (srcPort port) (some q.ctx) [epochWord q.tx.epoch, q.tx.addr, q.tx.len, port, cause]

/-- A core that waits for remote data stops waiting: the kernel of the halted job ends (log 34). -/
def State.dropLanding (s : State) (l : Landing) : State :=
  let stop (s : State) (k : Nat) : State := s.updCore k fun x => { x with outstanding := x.outstanding.erase farAccess }.toDrain
  match l with
  | .reg k _ _ _ => stop s k
  | .vec k _ _ _ => stop s k
  | _ => s

/-- A READ fails and its job halts (R266). -/
def State.failRead (s : State) (port : Nat) (q : Request) : State :=
  let s := s.emit 0x42A 3 (srcPort port) (some q.ctx) [epochWord q.tx.epoch, q.tx.addr, q.tx.len, port]
  let s := s.dropLanding q.land
  if s.isRun q.ctx q.run then s.haltJob q.ctx 0x42A else s

def isPosted (k : TxKind) : Bool := k == .write || k == .reduce || k == .token

/-- Fail an outstanding request; a FENCE just leaves. -/
def State.failRequest (s : State) (port : Nat) (q : Request) (cause : Nat) : State :=
  if isPosted q.tx.kind then s.failPosted port q cause
  else if q.tx.kind = .read then s.failRead port q
  else s

/-! ### Sending (R250 to R252, R256, R257, R273) -/

/-- Offer each flit of a first transmission to an injector of a shore link (3); what it does is repaired by replay (R453; 21, Table 3). -/
def State.injectFlits (s : State) (target inst dir : Nat) : Nat → State
  | 0 => s
  | n + 1 => (s.inject1 target inst dir 0).1.injectFlits target inst dir n

/-- A flit leaves with the ACK_SEQ and NAK_REQ of the moment, as an injector has left it. -/
def State.putFlit (s : State) (port : Nat) (f : Flit) (h : Hit) : State :=
  let x := s.port port
  let b := f.bytes ((x.rxSeq + 65535) % 65536) x.nakReq
  let put (b : List Byte) : State := { s with out := { s.out with strait := s.out.strait ++ [(port, b)] } }
  match h with
  | .drop => s
  | .corrupt l => put (flipBits b l)
  | .pass => put b

/-- The credits owed go with a flit (R252). -/
def PortSt.flitOf (x : PortSt) (control : Bool) (slots : List (List Byte)) (link : Option LinkCmd) : Flit :=
  { seq := x.txSeq, control := control, slots := slots, creditReq := x.owedReq, creditRsp := x.owedRsp, creditTok := x.owedTok, link := link }

/-- A sequenced flit of these slots goes out, and into the replay buffer. An injector acts on its first transmission (21, Table 3). -/
def State.sendFlit (s : State) (port : Nat) (slots : List (List Byte)) : State :=
  let f := (s.port port).flitOf false slots none
  let s := s.updPort port fun x => { x with
    txSeq := (x.txSeq + 1) % 65536, replayBuf := x.replayBuf ++ [f], owedReq := 0, owedRsp := 0, owedTok := 0 }
  let (s, h) := s.inject1 1 port 0 0
  s.putFlit port f h

/-- A control-only flit goes out: no slot, never replayed (12, Table 2). -/
def State.sendControl (s : State) (port : Nat) (link : Option LinkCmd) : State :=
  let f := (s.port port).flitOf true [] link
  (s.updPort port fun x => { x with owedReq := 0, owedRsp := 0, owedTok := 0 }).putFlit port f .pass

/-- A link command goes to the peer, to take effect at an even codeword count of this end's choice, at least 4 codewords ahead: a free value
(R257; log 172). -/
def State.sendLink (s : State) (port cmd lane channel : Nat) : State :=
  let c : LinkCmd := ⟨cmd, lane, (Config.freeWord s.free).toNat % 2 ^ 31 * 2, channel, true⟩
  ({ s with free := s.free + 1 }.updPort port fun x => { x with linkCmds := x.linkCmds ++ [c] }).sendControl port (some c)

/-- The flits that the waiting slots fill go out. -/
def State.sendFull (s : State) (port : Nat) : Nat → State
  | 0 => s
  | n + 1 => ((s.updPort port fun x => { x with fill := x.fill.drop 7 }).sendFlit port ((s.port port).fill.take 7)).sendFull port n

/-- What waits goes out: a flit that is not full, or a control-only flit where only credits are owed (R252). -/
def State.flush (s : State) (port : Nat) : State :=
  let x := s.port port
  if x.link != .up then s
  else if !(x.fill.isEmpty) then (s.updPort port fun x => { x with fill := [] }).sendFlit port x.fill
  else if x.owedReq + x.owedRsp + x.owedTok = 0 then s
  else s.sendControl port none

/-- A transaction's slots follow those that wait, and every flit that is full goes out (R251; log 35). -/
def State.transmit (s : State) (port : Nat) (t : Tx) : State :=
  let s := s.updPort port fun x => { x with fill := x.fill ++ t.slotBytes }
  s.sendFull port ((s.port port).fill.length / 7)

/-- Has the replay buffer room for the transaction's flits (R256)? -/
def PortSt.replayRoom (x : PortSt) (t : Tx) : Bool := decide (x.replayBuf.length + ceilDiv (x.fill.length + t.slots) 7 ≤ 4096)

/-- A completion is sent when the response channel has credit for it. -/
def State.pumpAnswers (s : State) (port : Nat) : Nat → State
  | 0 => s
  | n + 1 =>
    let x := s.port port
    match x.answers with
    | [] => s
    | t :: r =>
      if x.link = .up && decide (t.slots ≤ x.creditRsp) && x.replayRoom t then
        let s := s.updPort port fun x => { x with answers := r, creditRsp := x.creditRsp - t.slots }
        (s.transmit port t).pumpAnswers port n
      else s

/-- Room that a READ reserves for its data in the response channel. -/
def readRoom (t : Tx) : Nat := if t.kind = .read then 1 + ceilDiv t.len 32 else 0

/-- Has the port credit, replay room and response room for the transaction? -/
def PortSt.canSend (x : PortSt) (t : Tx) : Bool :=
  x.link == .up && x.replayRoom t && decide (readRoom t ≤ x.rspRoom) &&
    (if t.kind = .token then decide (t.slots ≤ x.creditTok) else decide (t.slots ≤ x.creditReq))

/-- A run's completion would carry BOUND_VOID at this moment (R268). -/
def State.voidNow (s : State) (q : Request) : Bool :=
  ((s.ctx q.ctx).run.any fun r => r.number == q.run && r.boundVoid) || s.leaseOutside q.ctx

/-- Waiting requests are sent in order; one whose window names a former peer fails (R273). -/
def State.pumpRequests (s : State) (port : Nat) : Nat → State
  | 0 => s
  | n + 1 =>
    let x := s.port port
    match x.queue with
    | [] => s
    | q :: r =>
      if !(x.canSend q.tx) then s
      else if (match x.peer with
          | some p => p.pod.toNat != q.unit
          | none => true) then
        ((s.updPort port fun x => { x with queue := r }).failRequest port q 17).pumpRequests port n
      else
        let t := { q.tx with tag := x.tag, cause := if q.tx.kind == .token && s.voidNow q then 1 else q.tx.cause }
        let s := s.updPort port fun x => { x with
          queue := r
          tag := (x.tag + 1) % 2 ^ 32
          open_ := x.open_ ++ [{ q with tx := { t with data := [] } }]
          rspRoom := x.rspRoom - readRoom t
          creditReq := if t.kind = .token then x.creditReq else x.creditReq - t.slots
          creditTok := if t.kind = .token then x.creditTok - t.slots else x.creditTok }
        (s.transmit port t).pumpRequests port n

/-- What the port may send now goes out. -/
def State.pump (s : State) (port : Nat) : State :=
  let s := s.pumpAnswers port (s.port port).answers.length
  s.pumpRequests port (s.port port).queue.length

/-- A request joins the queue of its port. The last flit may wait for more slots until `flush`. -/
def State.request (s : State) (port : Nat) (q : Request) : State :=
  (s.updPort port fun x => { x with queue := x.queue ++ [q] }).pump port

/-- A completion joins the queue of its port. -/
def State.answer (s : State) (port : Nat) (t : Tx) : State :=
  ((s.updPort port fun x => { x with answers := x.answers ++ [t] }).pump port).flush port

/-! ### Fences (R263, R265) -/

def ofEpoch (c run : Nat) (q : Request) : Bool := q.ctx == c && q.run == run

/-- A posted request of the epoch waits or is outstanding on this port. -/
def PortSt.postedOpen (x : PortSt) (c run : Nat) : Bool :=
  (x.queue ++ x.open_).any fun q => ofEpoch c run q && isPosted q.tx.kind

def State.postedOpen (s : State) (c run : Nat) : Bool := s.strait.ports.values.any (·.postedOpen c run)

/-- A FENCE of the epoch is under way on this port. -/
def PortSt.fencing (x : PortSt) (c run : Nat) : Bool := (x.queue ++ x.open_).any fun q => ofEpoch c run q && q.tx.kind == .fence

def State.epochOf (s : State) (c run : Nat) : Epoch := ⟨BitVec.ofNat 6 s.unitNo, BitVec.ofNat 6 c, BitVec.ofNat 16 run⟩

/-- A FENCE goes out on each port with posted requests of the epoch outstanding. -/
def State.sendFences (s : State) (c run : Nat) : State :=
  s.strait.ports.keys.foldl (fun s port =>
    let x := s.port port
    if x.postedOpen c run && !(x.fencing c run) then
      (s.request port ⟨{ kind := .fence, epoch := s.epochOf c run, tag := 0 }, c, run, x.peerPod, .nowhere⟩).flush port
    else s) s

/-- The first fence of a poisoned epoch to complete halts the job (R265). -/
def State.fencePoisoned (s : State) (c : Nat) : State :=
  (s.emit 0x429 3 (srcCtx c) (some c) [c]).haltJob c 0x429

/-! ### Retrain and reset (R271, R272) -/

/-- Every outstanding request fails, the replay buffer and what the receiving end has not performed are empty, and the link starts again
(R272). Marks of refused epochs stay until their FENCE (R262, R454). A port taken down stays down. -/
def State.linkReset (s : State) (port : Nat) (state : LinkState) : State :=
  let x := s.port port
  let lost := x.open_
  let s := s.updPort port fun x => { x with
    link := state, open_ := [], fill := [], replayBuf := [], rxSlots := [], reqs := [], rsps := [], held := none, linkCmds := []
    rxCodeword := 0, rxMap := 0, renumber := false, txSeq := 0, rxSeq := 0, rxTop := 0, nakReq := false, replays := 0, tag := 0,
    creditReq := 2048, creditRsp := 2048, creditTok := 64, rspRoom := 2048, owedReq := 0, owedRsp := 0, owedTok := 0,
    answers := [], toAck := 0, lastTag := 0, retrainStart := none, peer := none,
    resets := satAdd 32 x.resets 1 }
  let s := { s with adders := s.adders.map fun _ a => { a with returned := a.returned.filter (·.src != srcPort port) } }
  let s := lost.foldl (fun s q => s.failRequest port q 17) s
  s.emit 0x423 3 (srcPort port) none [port, (lost.filter fun q => q.tx.kind != .fence).length]

/-- A retrain begins (R271). Cause 0 loss of light, 1 replay (log 33). -/
def State.retrain (s : State) (port cause : Nat) : State :=
  if (s.port port).link != .up then s else
  let s := s.updPort port fun x => { x with link := .retraining, retrainStart := some s.clock.ticks, replays := 0, retrains := satAdd 32 x.retrains 1 }
  (s.emit 0x421 2 (srcPort port) none [port, cause]).voidPort port

end Sys2Proof.Machine
end

