-- ==== Sys2Proof/Machine/PlanImage.lean ====
section
/-! DEFINITION. The bytes of a plan image read as a plan (R25 to R30; 06, Table 3), and the operands of its commands. -/

namespace Sys2Proof.Machine

/-! ### Sections (02, Tables 1 to 4) -/

def parseHeader (b : List Byte) : PlanHeader where
  magic := fieldAt b 0 4
  format := fieldAt b 4 2
  profile := fieldAt b 6 1
  epoch := fieldAt b 8 4
  length := fieldAt b 12 4
  leaseOff := fieldAt b 16 4
  leaseCount := fieldAt b 20 2
  strandCount := fieldAt b 22 2
  strandOff := fieldAt b 24 4
  listOff := fieldAt b 28 4
  listCount := fieldAt b 32 4
  tokenOff := fieldAt b 36 4
  tokenCount := fieldAt b 40 4
  weaveNs := fieldAt b 44 4
  pathBeats := fieldAt b 48 8
  pathXfer := fieldAt b 56 8
  pathStints := fieldAt b 64 4
  pathWindow := fieldAt b 68 4
  pathStrait := fieldAt b 72 8
  boundNs := fieldAt b 80 8
  planId := fieldAt b 88 8

/-- R27. -/
def parseLease (b : List Byte) : LeaseEntry where
  isle := fieldAt b 0 1
  flags := fieldAt b 1 1
  ox := fieldAt b 2 1
  bantam := fieldAt b 4 2
  ways := fieldAt b 6 2
  pcs := fieldAt b 8 8
  tokenBase := fieldAt b 16 2
  tokenSpan := fieldAt b 18 2
  shares := (List.range 4).map fun i => fieldAt b (20 + i) 1
  scratchBase := fieldAt b 24 1
  scratchSpan := fieldAt b 25 1

/-- R30. -/
def parseCmd (b : List Byte) : Cmd :=
  let w := fieldAt b 4 4
  let g := fieldAt b 8 4
  { opcode := fieldAt b 0 1
    cls := fieldAt b 1 1
    yield := bit (fieldAt b 2 2) 0
    flags := fieldAt b 3 1
    waitCounter := bits w 11 0
    waitTarget := bits w 27 12
    waitMode := bits w 31 28
    sigCounter := bits g 11 0
    sigIsle := bits g 17 12
    sigInc := bits g 27 18
    sigMode := bits g 31 28
    ops := slice b 12 20 }

/-- `n` records of `z` bytes from byte `o`; none where they do not lie inside the image, which check 2 refuses. -/
def records (b : List Byte) (o n z : Nat) : List (List Byte) :=
  if o + n * z ≤ b.length then (List.range n).map fun i => slice b (o + i * z) z else []

/-- R28. -/
def parseStrand (img b : List Byte) : Strand where
  isle := fieldAt b 0 1
  cls := fieldAt b 1 1
  inst := fieldAt b 2 1
  cmdOff := fieldAt b 4 4
  cmdCount := fieldAt b 8 4
  cmds := (records img (fieldAt b 4 4) (fieldAt b 8 4) 32).map parseCmd

/-- R129. -/
def parseList (img b : List Byte) : PageList where
  entryOff := fieldAt b 0 4
  isle := fieldAt b 4 1
  kind := fieldAt b 5 1
  flags := fieldAt b 6 1
  target := fieldAt b 7 1
  capacity := fieldAt b 8 4
  inherit := fieldAt b 12 4
  poolBase := fieldAt b 16 4
  poolSpan := fieldAt b 20 4
  entries := if fieldAt b 5 1 = 1 then (records img (fieldAt b 0 4) (fieldAt b 8 4) 8).map ofBytes else []

/-- R29. -/
def parseToken (b : List Byte) : TokenDecl where
  isle := fieldAt b 0 1
  counter := fieldAt b 2 2
  initial := fieldAt b 4 2
  final := fieldAt b 6 2

def parsePlan (b : List Byte) : Plan :=
  let h := parseHeader b
  { header := h
    leases := (records b h.leaseOff h.leaseCount 32).map parseLease
    strands := (records b h.strandOff h.strandCount 16).map (parseStrand b)
    lists := (records b h.listOff h.listCount 32).map (parseList b)
    tokens := (records b h.tokenOff h.tokenCount 8).map parseToken }

/-! ### Operands -/

/-- Bytes `o` to `o + n − 1` of a command, `o` from 12. -/
def Cmd.at (c : Cmd) (o n : Nat) : Nat := fieldAt c.ops (o - 12) n
/-- Bit `n` of ENGINE_FLAGS, numbered as the chapters number it, from 8. -/
def Cmd.flag (c : Cmd) (n : Nat) : Bool := bit c.flags (n - 8)

/-- A command of a strand with its operands. -/
inductive PlanOp where
  | nop
  | bgWindow (duration : Nat)
  | fork (o : ForkOps)
  | split (o : SplitOps)
  | release (o : ReleaseOps)
  | wload (o : WloadOps)
  | matmul (o : MatmulOps)
  | drain (o : DrainOps)
  | accload (o : AccloadOps)
  | maskset (o : MasksetOps)
  | kernel (o : KernelOps)
  | lgeom (o : LgeomOps)
  | lwload (o : LwloadOps)
  | patch (o : PatchOps)
  | lconv (o : LconvOps)
  | pool (o : PoolOps)
  | resample (o : ResampleOps)
  | regroup (o : RegroupOps)
  | copy (o : CopyOps)
  | mcast (o : CopyOps)
  | window (o : WindowOps)
  | rget (o : RemoteOps)
  | rput (o : RemoteOps)
  | rreduce (o : RemoteOps)
  | rfence
  | rsignal (o : RsignalOps)
deriving DecidableEq, Repr

/-- Ox operands (04, Tables 4 to 7; R78, R79). -/
def oxOp (c : Cmd) : Option PlanOp :=
  let f (o n w : Nat) : BitVec w := BitVec.ofNat w (c.at o n)
  match c.opcode with
  | 1 => some (.wload ⟨f 12 4 32, f 16 1 8, f 18 2 16, f 20 2 16⟩)
  | 2 => some (.matmul ⟨c.flag 8, c.flag 9, f 12 4 32, f 16 2 16, f 18 2 16, f 20 2 16, f 22 1 8, f 23 1 8⟩)
  | 3 =>
    let b (n hi lo w : Nat) : BitVec w := BitVec.ofNat w (bits n hi lo)
    let m := c.at 23 1
    some (.drain
      { dst := f 12 4 32, dstClass := b (c.at 16 1) 3 0 4, dstMode := b (c.at 16 1) 7 4 4, ofmt := f 17 1 8, rows := f 18 2 16,
        accRow := b (c.at 20 2) 9 0 10, mask := b (c.at 20 2) 15 12 4, func := f 22 1 8, precise := bit m 0, satFinite := bit m 1,
        scale := bit m 2, bias := bit m 3, gateOp := b m 6 4 3, dstStride := f 24 2 16, aux := f 26 2 16,
        slot := b (c.at 28 3) 11 0 12, slots := b (c.at 28 3) 23 12 12 })
  | 4 => some (.accload ⟨f 12 4 32, f 16 2 16, f 18 2 16, f 20 2 16, f 22 1 8⟩)
  | 5 => some (.maskset ⟨f 12 4 32, f 16 1 8, f 17 1 8⟩)
  | _ => none

/-- Lamb operands (10, Tables 3 and 4). -/
def lambOp (c : Cmd) : Option PlanOp :=
  let f (o n w : Nat) : BitVec w := BitVec.ofNat w (c.at o n)
  let oy : OyRange := ⟨f 12 2 16, f 14 2 16⟩
  let cls : BitVec 4 := BitVec.ofNat 4 (c.at 13 1)
  match c.opcode with
  | 1 => match c.at 12 1 with
    | 0 => some (.lgeom (.src cls (f 14 1 8) (f 16 4 32) (f 20 2 16) (f 22 2 16) (f 24 2 16) (f 26 4 32) (f 30 2 16)))
    | 1 => some (.lgeom (.win (f 14 2 16) (f 16 2 16) (f 18 2 16) (f 20 2 16) (f 22 2 16) (f 24 2 16)))
    | 2 => some (.lgeom (.pad (f 14 2 16) (f 16 2 16) (f 18 2 16) (f 20 2 16)))
    | 3 => some (.lgeom (.dst cls (f 14 1 8) (f 16 4 32) (f 24 2 16) (f 26 4 32) (f 30 2 16)))
    | _ => none
  | 2 => some (.lwload ⟨BitVec.ofNat 4 (c.at 12 1), f 16 4 32, f 20 4 32⟩)
  | 3 => some (.patch ⟨oy, f 16 2 16, f 18 2 16, f 20 2 16, f 22 2 16⟩)
  | 4 => some (.lconv ⟨oy, f 16 1 8, bit (c.at 17 1) 0⟩)
  | 5 => some (.pool ⟨oy, f 16 1 8⟩)
  | 6 => some (.resample ⟨oy, f 16 1 8, f 17 1 8, f 18 1 8⟩)
  | 7 => some (.regroup ⟨oy, f 16 1 8, f 17 1 8⟩)
  | _ => none

/-- Operands of a COPY or MCAST (06, Table 6). -/
def copyOps (c : Cmd) : CopyOps :=
  { srcList := c.flag 8, dstList := c.flag 9, src := BitVec.ofNat 64 (c.at 12 8), dst := BitVec.ofNat 64 (c.at 20 8),
    count := BitVec.ofNat 16 (c.at 28 2), axis := bit (c.at 30 1) 0, run := BitVec.ofNat 4 (bits (c.at 30 1) 4 1),
    first := BitVec.ofNat 8 (c.at 31 1) }

/-- Operands of an RGET, RPUT or RREDUCE (12, Table 5). -/
def remoteOps (c : Cmd) : RemoteOps :=
  { localList := c.flag 14, remote := BitVec.ofNat 48 (c.at 12 6), loc := BitVec.ofNat 48 (c.at 18 6),
    count := BitVec.ofNat 16 (c.at 24 2), slot := BitVec.ofNat 12 (bits (c.at 26 3) 11 0),
    slots := BitVec.ofNat 12 (bits (c.at 26 3) 23 12), rfmt := BitVec.ofNat 2 (c.at 29 1), unordered := bit (c.at 29 1) 2 }

/-- Strait port operands. -/
def straitOp (c : Cmd) : Option PlanOp :=
  match c.opcode with
  | 1 => some (.window (windowOf c))
  | 2 => some (.rget (remoteOps c))
  | 3 => some (.rput (remoteOps c))
  | 4 => some (.rreduce (remoteOps c))
  | 5 => some .rfence
  | 6 => some (.rsignal ⟨BitVec.ofNat 8 (c.at 12 1), BitVec.ofNat 8 (c.at 13 1), BitVec.ofNat 16 (c.at 14 2), BitVec.ofNat 16 (c.at 16 2)⟩)
  | _ => none

/-- Isle-control operands (R31; 06, Table 7). -/
def controlOp (c : Cmd) : Option PlanOp :=
  let f (o n w : Nat) : BitVec w := BitVec.ofNat w (c.at o n)
  match c.opcode with
  | 1 => some .nop
  | 2 => some (.bgWindow (c.at 12 4))
  | 0x10 => some (.fork ⟨f 12 4 32, f 16 4 32, f 20 2 16⟩)
  | 0x11 => some (.split ⟨f 12 4 32, f 16 2 16, f 18 2 16, f 20 4 32⟩)
  | 0x12 => some (.release ⟨f 12 4 32, f 16 4 32⟩)
  | _ => none

/-- The operands of a command; none for an opcode that its class does not define. -/
def Cmd.op (c : Cmd) : Option PlanOp :=
  let f (o n w : Nat) : BitVec w := BitVec.ofNat w (c.at o n)
  match c.cls with
  | 1 => oxOp c
  | 2 => if c.opcode = 1 then some (.kernel
      { args := c.flag 8, hbm := c.flag 9, strait := c.flag 10, entry := f 12 2 16, argLen := f 14 2 16, budget := f 16 4 32,
        arg := f 20 4 32, hbmKib := f 24 4 32, straitKib := f 28 4 32 }) else none
  | 3 => lambOp c
  | 4 => if c.opcode = 1 then some (.copy (copyOps c)) else if c.opcode = 2 then some (.mcast (copyOps c)) else none
  | 5 => straitOp c
  | 6 => controlOp c
  | _ => none

end Sys2Proof.Machine
end

