-- ==== Sys2Proof/Machine/Plan.lean ====
section
/-! DEFINITION. The plan contract at run time (02): pace windows, the start and completion of commands, token messages, the
deadlock test, the end of a run and of a halted job. -/

namespace Sys2Proof.Machine

/-- Does any plan named by its lease hold the isle? -/
def leasesIsle (i : Nat) (_c : Nat) (p : Plan) : Bool := p.names i

/-- The open pace window of an isle closes: no run waits for it any more (R48). -/
def State.closeWindow (s : State) (i : Nat) : State :=
  { s with ctxs := s.ctxs.map fun _ x => { x with run := x.run.map fun r => { r with unclosed := r.unclosed.filter (· != i) } } }

/-- Block code that names the pace monitors as the failing block of ISLE_FAILED: that of the isle sequencer, beside which one stands. 17,
Table 3 lists no block for them. DESIGN CHOICE, log 161. -/
def paceBlock : Nat := 1

/-- R23, R24, R480: a pace window closes with the exact average `num`/`den` beats/µs. A window of pace 0 is no excursion and does not count
in PACE_LOW_WINDOWS (DEDUCED, log 161). -/
def execPaceWindowClose (isle : Isle) (num den : Nat) (s : State) : Host.Outcome State Fault Refusal :=
  let i := isle.val
  if den = 0 || s.power.isle.get .i3 i != .i0 then .next s else
  let s := s.closeWindow i
  let p := (s.isle i).pace
  let floor := if p.window = 0 then s.floor else Nat.min p.window s.floor
  let seen (p : PaceSt) : PaceSt := { p with now := num / den, minSeen := Nat.min p.minSeen (num / den), window := 0 }
  if num = 0 then .next ((s.updIsle i fun x => { x with pace := seen p }).isleFault i paceBlock)
  else if num < floor * den then
    let s := s.updIsle i fun x => { x with pace := { seen p with
      lowWindows := satAdd 32 p.lowWindows 1, below := true, goodWindows := 0 } }
    .next ((s.emit 0x210 2 (srcIn i 1 0) none [i, num / den, floor]).voidRuns (leasesIsle i))
  else if p.below then
    if p.goodWindows + 1 = 100 then
      .next ((s.updIsle i fun x => { x with pace := { seen p with below := false, goodWindows := 0 } }).emit 0x211 1 (srcIn i 1 0) none [i])
    else .next (s.updIsle i fun x => { x with pace := { seen p with goodWindows := p.goodWindows + 1 } })
  else .next (s.updIsle i fun x => { x with pace := seen p })

/-! ### Strands -/

/-- Key of an engine for BG_WINDOW (R31): isle × 32 + Ox 0 to 3, 4 Lamb, 5 page mover, 16 to 31 Bantam cores. -/
def windowKey (isle cls inst : Nat) : Nat :=
  isle * 32 + (if cls = 1 then inst else if cls = 3 then 4 else if cls = 4 then 5 else 16 + inst)

/-- Queue depth of an engine class (R33, R203, R258); an isle-control strand has the page mover's places, log 151. -/
def queueDepth (cls : Nat) : Nat := if cls = 1 then 32 else if cls = 2 then 4 else if cls = 3 then 1 else if cls = 5 then 16 else 64

/-- Isle whose sequencer evaluates a command's wait (R258). -/
def waitIsle (st : Strand) (c : Cmd) : Nat := if st.cls = 5 then c.flags % 64 else st.isle

/-- Is a command's wait met (R32)? -/
def State.waitMet (s : State) (st : Strand) (c : Cmd) : Bool :=
  c.waitMode = 0 || decide (c.waitTarget ≤ s.token (waitIsle st c) c.waitCounter)

/-- Key of a shared engine of a strand (R305), where its class is shared. -/
def sharedKey (st : Strand) : Option Nat :=
  if st.cls = 1 then some (st.isle * 6 + st.inst) else if st.cls = 3 then some (st.isle * 6 + 4)
  else if st.cls = 4 then some (st.isle * 6 + 5) else none

/-- A SPLIT, whose copies are page mover work of its isle (R136, R305). -/
def isSplit (c : Cmd) : Bool := c.cls == 6 && c.opcode == 0x11

/-- Does the plan name the shared engine of that key? Its lease names Ox and Lamb engines (14, Table 1); its strands and SPLITs name page
movers. -/
def Plan.usesShared (p : Plan) (k : Nat) : Bool :=
  if k % 6 < 4 then p.hasOx (k / 6 * 4 + k % 6) else if k % 6 = 4 then p.hasLamb (k / 6)
  else p.strands.any fun st => st.isle == k / 6 && (st.cls == 4 || st.cmds.any isSplit)

def Run.strand (r : Run) (n : Nat) : StrandRun := r.strands.get {} n

/-- No command of the context is in flight on the shared engine of that key. -/
def State.sharedIdle (s : State) (k c : Nat) (p : Plan) : Bool := match (s.ctx c).run with
  | some r => ((List.range p.strands.length).zip p.strands).all fun ns =>
      let x := r.strand ns.1
      ((ns.2.cmds.drop x.completed).take (x.started - x.completed)).all fun cmd =>
        sharedKey ns.2 != some k && !(isSplit cmd && ns.2.isle * 6 + 5 == k)
  | none => true

/-- The commands of strand `n` that have started and not completed. -/
def Run.inFlight (r : Run) (n : Nat) (st : Strand) : List Cmd :=
  (st.cmds.drop (r.strand n).completed).take ((r.strand n).started - (r.strand n).completed)

/-- Does a command take a place in flight of the page mover of isle `i`: its own, and that of the page a SPLIT copies (R136)? -/
def takesPlace (i : Nat) (st : Strand) (cmd : Cmd) : Bool := st.isle == i && (cmd.cls == 4 || isSplit cmd)

/-- Places in flight that the runs of all contexts take in the page mover of isle `i`. -/
def State.moverPlaces (s : State) (i : Nat) : Nat :=
  ((s.ctxs.rows.map (·.2)).map fun x => match x.run, x.plan with
    | some r, some p => (((List.range p.strands.length).zip p.strands).map fun ns =>
        ((r.inFlight ns.1 ns.2).filter (takesPlace i ns.2)).length).sum
    | _, _ => 0).sum

/-- A command that needs a place in the page mover of its isle finds one of the 64 (R33, R136). -/
def State.placeFree (s : State) (st : Strand) (cmd : Cmd) : Bool :=
  !(takesPlace st.isle st cmd) || decide (s.moverPlaces st.isle < 64)

/-- The first strand of the run with a command in flight that `ok` names. -/
def Run.flying (r : Run) (p : Plan) (ok : Strand → Cmd → Bool) : Option Strand :=
  (((List.range p.strands.length).zip p.strands).find? fun ns => (r.inFlight ns.1 ns.2).any (ok ns.2)).map (·.2)

/-- The run of a context, halted or not, and its strand that has a command in flight that `ok` names: an engine performs only commands that
a loaded image holds (R42), and those in flight when the job halts too (R49). -/
def State.performing (s : State) (c : Nat) (ok : Strand → Cmd → Bool) : Option (Run × Strand) :=
  match (s.ctx c).run, (s.ctx c).plan with
  | some r, some p => (r.flying p ok).map (r, ·)
  | _, _ => none

/-- The same for a command of these operands on the engine of a strand's class, isle and instance. -/
def State.engineOp (s : State) (c cls isle inst : Nat) (op : PlanOp) : Option (Run × Strand) :=
  s.performing c fun st cmd => st.cls == cls && st.isle == isle && st.inst == inst && cmd.op == some op

/-- The same for an isle-control command, which any strand but that of a Strait port may hold (R30). -/
def State.controlOf (s : State) (c : Nat) (op : PlanOp) : Option (Run × Strand) :=
  s.performing c fun st cmd => st.cls != 5 && cmd.op == some op

/-- The engine is in a BG_WINDOW of its strand, where it is idle for foreground work and background work may use it (R31). -/
def State.inWindow (s : State) (key : Nat) : Bool := decide (s.clock.ticks < s.windows.get 0 key)

/-- The engine of a strand is in a BG_WINDOW. A Strait port has none: its strand holds class 5 commands only (R30). -/
def State.strandIdle (s : State) (st : Strand) : Bool := st.cls != 5 && s.inWindow (windowKey st.isle st.cls st.inst)

/-- Does command `n` of a strand begin a stint (R30)? -/
def Strand.begins (st : Strand) (n : Nat) : Bool := n == 0 || (st.cmds[n - 1]?).any (·.yield)

/-- Shared engines on which command `n` of a strand begins a stint: the strand's own, and the page mover where a SPLIT of another strand
does (R305). -/
def Strand.stintKeys (st : Strand) (n : Nat) (cmd : Cmd) : List Nat :=
  (if st.begins n then (sharedKey st).toList else []) ++ (if isSplit cmd && st.cls != 4 then [st.isle * 6 + 5] else [])

/-- May a stint of the context start on the shared engine: it is granted to the run and every command of the other jobs' stints has
completed, where several loaded plans name the engine (R305)? -/
def State.grantedKey (s : State) (c : Nat) (r : Run) (k : Nat) : Bool :=
  let others := s.loaded.filter fun cp => cp.1 != c && cp.2.usesShared k
  others.isEmpty || (s.grant k).holder == some c && (s.grant k).due == some r.number && others.all fun cp => s.sharedIdle k cp.1 cp.2

/-- Is every engine granted on which command `n` of the strand begins a stint? -/
def State.granted (s : State) (c : Nat) (r : Run) (st : Strand) (n : Nat) (cmd : Cmd) : Bool :=
  (st.stintKeys n cmd).all (s.grantedKey c r)

/-- The stint granted to the context on each engine of `keys` has started. -/
def State.takeGrants (s : State) (c : Nat) (keys : List Nat) : State :=
  { s with grants := keys.foldl (fun t k =>
      if (t.get {} k).holder = some c && (t.get {} k).due.isSome then t.put k { t.get {} k with due := none } else t) s.grants }

/-- The strand of a context's plan. -/
def State.strandOf (s : State) (c n : Nat) : Option Strand := match (s.ctx c).plan with
  | some p => p.strands[n]?
  | none => none

/-- R31 to R33: the next command of a strand starts when its wait is met, its queue has a place, its stint is granted, its engine is not in
a BG_WINDOW and, where the page mover makes its copies, one of the page mover's places is free. A Bantam command accepted into a core's
queue sets wake source 0 (05, Table 17). -/
def execCommandWaitMet (ctx : Ctx) (strand : Nat) (s : State) : Host.Outcome State Fault Refusal :=
  let c := ctx.val
  match s.activeRun c, s.strandOf c strand with
  | some r, some st =>
    let x := r.strand strand
    match st.cmds[x.started]? with
    | some cmd =>
      if s.waitMet st cmd && decide (x.started - x.completed < queueDepth st.cls) && s.granted c r st x.started cmd &&
          !(s.strandIdle st) && s.placeFree st cmd then
        let s := (s.takeGrants c (st.stintKeys x.started cmd)).updRun c fun r =>
          { r with strands := r.strands.put strand { x with started := x.started + 1 } }
        .next (if st.cls = 2 then s.wakeCore (st.isle * 16 + st.inst) 0 else s)
      else .next s
    | none => .next s
  | _, _ => .next s

/-- The header signal of a completed command: to its own isle at once, to another isle as a token message (R32). -/
def State.headerSignal (s : State) (c : Nat) (st : Strand) (cmd : Cmd) : State :=
  if cmd.sigMode = 0 then s
  else match s.activeRun c with
    | none => s
    | some r =>
      if cmd.sigIsle = st.isle then s.signal c cmd.sigIsle cmd.sigCounter cmd.sigInc
      else { s with flying := s.flying ++ [⟨c, r.number, st.isle, cmd.sigIsle, cmd.sigCounter, cmd.sigInc⟩] }

/-- The isles of a lease, whose open pace windows hold a command that completes now (R48). -/
def Plan.isles (p : Plan) : List Nat := p.leases.map (·.isle)

/-- The oldest command in flight of a strand completes, with its header signal; commands of one strand complete in order (R32, R33).
In a halted job it completes without a signal (R49). The pace windows that hold it are those now open on the leased isles (R48). -/
def State.completeNext (s : State) (c strand : Nat) : State :=
  match (s.ctx c).run, s.strandOf c strand with
  | some r, some st =>
    let x := r.strand strand
    if x.completed < x.started then
      let s := s.updRun c fun r => { r with
        strands := r.strands.put strand { x with completed := x.completed + 1 }
        unclosed := ((s.ctx c).plan.map Plan.isles).getD [] }
      match st.cmds[x.completed]? with
      | some cmd => s.headerSignal c st cmd
      | none => s
    else s
  | _, _ => s

/-- Is the next command to complete a KERNEL, which KERNEL_COMPLETE completes (R98)? -/
def State.kernelNext (s : State) (c strand : Nat) : Bool :=
  match (s.ctx c).run, s.strandOf c strand with
  | some r, some st => match st.cmds[(r.strand strand).completed]? with
    | some cmd => cmd.cls == 2
    | none => false
  | _, _ => false

/-- Is the next command to complete an RFENCE, and its run's number? -/
def State.fenceNext (s : State) (c strand : Nat) : Option Run :=
  match (s.ctx c).run, s.strandOf c strand with
  | some r, some st => match st.cmds[(r.strand strand).completed]? with
    | some cmd => if cmd.cls = 5 && cmd.opcode = 5 && decide ((r.strand strand).completed < (r.strand strand).started) then some r else none
    | none => none
  | _, _ => none

/-- First byte of a remote range. -/
def remoteBase (o : RemoteOps) : Nat := o.remote.toNat * 65536
/-- The local side of a remote command, as a page reference or an address. -/
def localSide (o : RemoteOps) : Nat := if o.localList then o.loc.toNat else o.loc.toNat * 65536

/-- A contribution of a DRAIN on the engine of a strand is parked, or has been returned (R177). -/
def State.drainHeld (s : State) (c : Nat) (st : Strand) (o : DrainOps) : Bool :=
  let off := o.dst.toNat * 64
  let mine (q : Parked) : Bool := q.ctx == c && q.src == srcOx (st.isle * 4 + st.inst) && q.c.slot == o.slot &&
    decide (off ≤ q.c.offset.toNat) && decide (q.c.offset.toNat < off + o.rows.toNat * o.dstStride.toNat + 512)
  s.adders.values.any fun a => (a.park ++ a.returned).any mine
/-- Requests of a run of these kinds on a port, to a remote range. -/
def requestsTo (l : List Request) (c run : Nat) (kind : TxKind) (a n : Nat) : Bool :=
  l.any fun q => ofEpoch c run q && q.tx.kind == kind && decide (a ≤ q.tx.addr) && decide (q.tx.addr < a + n) &&
    !(q.land.blocks)
/-- Has the command in flight done all that its completion waits for: the end of a BG_WINDOW (R31), every contribution of a reducing DRAIN
added (R177), every READ of an RGET landed, every request of another Strait command sent (R260)? -/
def State.doneWaiting (s : State) (c : Nat) (r : Run) (st : Strand) (cmd : Cmd) : Bool :=
  let x := s.port st.inst
  match cmd.op with
  | some (.bgWindow _) => !(s.strandIdle st)
  | some (.drain o) => o.dstMode == 0 || !(s.drainHeld c st o)
  | some (.rget o) => !(requestsTo (x.queue ++ x.open_) c r.number .read (remoteBase o) (o.count.toNat * 65536))
  | some (.rput o) => !(requestsTo x.queue c r.number .write (remoteBase o) (o.count.toNat * 65536))
  | some (.rreduce o) => !(requestsTo x.queue c r.number .reduce (remoteBase o) (o.count.toNat * 65536))
  | some (.rsignal _) => !(x.queue.any fun q => ofEpoch c r.number q && q.tx.kind == .token)
  | _ => true
/-- May the oldest command in flight of a strand complete? -/
def State.mayComplete (s : State) (c strand : Nat) : Bool :=
  match (s.ctx c).run, s.strandOf c strand with
  | some r, some st => match st.cmds[(r.strand strand).completed]? with
    | some cmd => s.doneWaiting c r st cmd
    | none => true
  | _, _ => true
/-- A Strait command leaves no part of a flit waiting (log 35). -/
def State.flushStrand (s : State) (c strand : Nat) : State := match s.strandOf c strand with
  | some st => if st.cls = 5 then s.flush st.inst else s
  | none => s

/-- R32; an RFENCE completes once no posted request of its epoch is outstanding, and halts a job of a poisoned epoch (R263, R265). -/
def execCommandComplete (ctx : Ctx) (strand : Nat) (s : State) : Host.Outcome State Fault Refusal :=
  if s.kernelNext ctx.val strand || !(s.mayComplete ctx.val strand) then .next s else
  let s := s.flushStrand ctx.val strand
  match s.fenceNext ctx.val strand with
  | some r =>
    if s.postedOpen ctx.val r.number then .next s
    else .next ((if r.poisoned && r.halted.isNone then s.fencePoisoned ctx.val else s).completeNext ctx.val strand)
  | none => .next (s.completeNext ctx.val strand)

/-- The token message in flight that the operands name: the oldest of them. -/
def State.messageOf (s : State) (c run isle counter inc : Nat) : Option TokenMsg :=
  s.flying.find? fun m => m.ctx == c && m.run == run && m.isle == isle && m.counter == counter && m.inc == inc

/-- R46: a token message arrives over the Sounds of its route, under the route table of its plan's epoch (R57), and is applied, or discarded
and counted as stale when its run is no longer active. A message that a Sound poisons halts the job (R68). -/
def execTokenMessage (ctx : Ctx) (run : BitVec 16) (isle : Isle) (counter : BitVec 12) (inc : BitVec 10)
    (soundError : Option SoundId) (s : State) : Host.Outcome State Fault Refusal :=
  let c := ctx.val
  match s.messageOf c run.toNat isle.val counter.toNat inc.toNat with
  | none => .next s
  | some m =>
    let s := { s with flying := s.flying.erase m }
    if (s.activeRun c).any fun r => r.number == run.toNat then
      let (s, ok) := s.crossRoute c m.src isle.val 3 (soundError.map (·.val))
      .next (if ok then s.signal c isle.val counter.toNat inc.toNat else s)
    else .next (s.updIsle isle.val fun x => { x with stale := satAdd 32 x.stale 1 })

/-- The kernel of a strand's core waits in TWAIT, with none of its accesses outstanding (R99, R122). Its counter has not reached the
target since: counters of a run never fall. -/
def State.inTwait (s : State) (c : Nat) (st : Strand) : Bool :=
  let x := s.core (st.isle * 16 + st.inst)
  st.cls == 2 && x.status &&& 1 == 1 && x.job == some c && x.outstanding.isEmpty && !x.waiting && !(x.draining.any (·.ctx == c)) &&
    x.twait.any fun w => decide (s.tokens.get 0 w.1 < w.2)

/-- Every strand not at its end, and every OUT copy not started, waits on an unmet counter, nothing is in flight and no token message
is outstanding (R47, R284); a kernel in TWAIT is a waiting strand (R122). -/
def State.deadlocked (s : State) (c : Nat) (p : Plan) (r : Run) : Bool :=
  let strands := (List.range p.strands.length).zip p.strands
  let idle := strands.all fun ns => (r.strand ns.1).started == (r.strand ns.1).completed || s.inTwait c ns.2
  let stuck := strands.all fun ns => match ns.2.cmds[(r.strand ns.1).started]? with
    | some cmd => !(s.waitMet ns.2 cmd) || s.inTwait c ns.2
    | none => true
  let ended := strands.all fun ns => decide (ns.2.cmds.length ≤ (r.strand ns.1).completed)
  let outs := (List.range r.outs.length).zip r.outs
  let outsIdle := outs.all fun no => r.outDone.get false no.1 ||
    (!(r.outStarted.has no.1) && decide (s.token no.2.isle no.2.counter < no.2.value))
  let outsEnded := outs.all fun no => r.outDone.get false no.1
  idle && stuck && outsIdle && r.inDone == r.ins.length && !(ended && outsEnded) && !(s.flying.any fun t => t.ctx == c && t.run == r.number)

/-- R47: the Holm looks for TOKEN_DEADLOCK; the test is suspended while the Holm restarts (R444). -/
def execTokenDeadlockCheck (s : State) : Host.Outcome State Fault Refusal :=
  if s.boot.restarting then .next s else
  .next (s.loaded.foldl (fun s cp => match s.activeRun cp.1 with
    | some r => if s.deadlocked cp.1 cp.2 r then (s.emit 0x622 3 (srcCtx cp.1) (some cp.1) [cp.1, cp.2.header.planId]).haltJob cp.1 0x622
      else s
    | none => s) s)

/-- Staging pages that a run still holds: IN buffers not landed, OUT pages on their way (R284). -/
def Run.stagingHeld (r : Run) : Nat := ((r.ins.drop r.inDone).map (·.count)).sum + r.outStarted.values.sum

def State.freeStaging (s : State) (c n : Nat) : State := s.updCard (c / 16) fun x => { x with stagingFree := x.stagingFree + n }

/-- The run of a context ends with a fault status: records, the release of its lists, the return of its lease (R49, R140, R282). -/
def State.endHalted (s : State) (c code : Nat) : State :=
  match (s.ctx c).run, (s.ctx c).plan with
  | some r, some p => ((((s.endRecords c p r code).releaseRun c).consume c).freeStaging c r.stagingHeld).returnLease c
  | _, _ => s

/-- Nothing of the run is in flight (R49). -/
def State.quiet (s : State) (c : Nat) : Bool := match (s.ctx c).run, (s.ctx c).plan with
  | some r, some p => (List.range p.strands.length).all fun n => (r.strand n).started == (r.strand n).completed
  | _, _ => true

/-- The pace windows that hold the run's last command have closed, on every leased isle whose monitors run (R48). -/
def State.windowsClosed (s : State) (r : Run) : Bool := r.unclosed.all fun i => s.power.isle.get .i3 i != .i0

/-- R48, R49: once the commands in flight of a halted job are complete and their pace windows closed, its completion record carries the fault code and its lease returns
to the free pool. -/
def execJobHaltComplete (ctx : Ctx) (s : State) : Host.Outcome State Fault Refusal :=
  let c := ctx.val
  match (s.ctx c).run with
  | some r => match r.halted with
    | some code => if s.quiet c && s.windowsClosed r then .next (s.endHalted c code) else .next s
    | none => .next s
  | none => .next s

/-- Every strand has completed and every OUT copy is done (R284). -/
def Run.finished (r : Run) (p : Plan) : Bool :=
  ((List.range p.strands.length).zip p.strands).all (fun ns => decide (ns.2.cmds.length ≤ (r.strand ns.1).completed)) &&
    (List.range r.outs.length).all fun n => r.outDone.get false n

/-- Every counter holds its FINAL (R29, R47). -/
def State.finalsMet (s : State) (p : Plan) : Bool := p.tokens.all fun t => s.token t.isle t.counter == t.final

/-- R284, R40, R48: the run ends, its completion and accounting records are written, and its lists are released (R140); the context stays
LOADED. The end acts as a fence, and a poisoned epoch makes the status FENCE_POISONED (R265); a counter that differs from FINAL makes it
TOKEN_FINAL_MISMATCH (R47). -/
def execRunEnd (ctx : Ctx) (s : State) : Host.Outcome State Fault Refusal :=
  let c := ctx.val
  match s.activeRun c, (s.ctx c).plan with
  | some r, some p =>
    if r.finished p && !(s.postedOpen c r.number) && s.windowsClosed r then
      let ok := s.finalsMet p
      let s := if r.poisoned then s.emit 0x429 3 (srcCtx c) (some c) [c] else s
      let s := if ok then s else s.emit 0x621 3 (srcCtx c) (some c) [c, p.header.planId]
      let s := (((s.endRecords c p r (if r.poisoned then 0x429 else if ok then 0 else 0x621)).releaseRun c).consume c).freeStaging c r.stagingHeld
      .next (s.updCtx c fun x => { x with run := none, state := .loaded })
    else .next s
  | _, _ => .next s

/-- A strand of the context's run with a command of these operands in flight. -/
def State.strandWith (s : State) (c strand : Nat) (op : PlanOp) : Option Strand :=
  match (s.ctx c).run, s.strandOf c strand with
  | some r, some st => if (r.inFlight strand st).any fun cmd => cmd.op == some op then some st else none
  | _, _ => none

/-- R31: NOP waits and signals only. -/
def execNop (_ctx : Ctx) (_strand : Nat) (s : State) : Host.Outcome State Fault Refusal := .next s

/-- R31: the strand's engine is idle for foreground work for DURATION. -/
def execBgWindow (ctx : Ctx) (strand : Nat) (duration : BitVec 32) (s : State) : Host.Outcome State Fault Refusal :=
  if duration.toNat < 20000 || 500000 < duration.toNat then .refused .operandRefusedAtLoad else
  match s.strandWith ctx.val strand (.bgWindow duration.toNat) with
  | some st =>
    if st.cls = 5 then .next s
    else .next { s with windows := s.windows.put (windowKey st.isle st.cls st.inst) (s.clock.ticks + duration.toNat / 4) }
  | none => .next s

end Sys2Proof.Machine
end

