-- ==== Sys2Proof/Machine/MemOps.lean ====
section
/-! DEFINITION. Accesses to the wafer's memory: stored units, shared frames, uncorrectable units, and the faults they raise (R141,
R153, R164, R181). -/

namespace Sys2Proof.Machine

/-- Why an access is not performed. -/
inductive AccessFault where
  /-- A write into a frame whose COUNT exceeds 1 (R141). -/
  | shared (addr : Nat)
  /-- A read of, or a merge into, a unit stored uncorrectable (R153, R164, R181). -/
  | uncorrectable (addr : Nat)
  /-- A request to a stack in thermal protection, which refuses it (R163, R170). -/
  | refused (addr : Nat)
deriving DecidableEq, Repr

/-- Bytes of a coded unit: a 64-byte HBM burst, otherwise an 8-byte word (R152, R164). -/
def unitSize (a : Nat) : Nat := if classOf a < 2 then 64 else 8

/-- Is the frame of this address shared (R127)? -/
def State.sharedAt (s : State) (a : Nat) : Bool := decide (1 < (s.frame (frameKey a)).count) && decide (classOf a < 3)

/-- The first uncorrectable unit that `n` bytes from `a` touch. -/
def State.badIn (s : State) (a n : Nat) : Option Nat :=
  s.bad.keys.find? fun k => decide (a < k + unitSize k) && decide (k < a + n)

/-- The first uncorrectable HBM burst or isle-store word that a write of `n` bytes from `a` covers in part (R181). -/
def State.badMerge (s : State) (a n : Nat) : Option Nat :=
  s.bad.keys.find? fun k => decide (classOf k < 3) && decide (a < k + unitSize k) && decide (k < a + n) &&
    !(decide (a ≤ k) && decide (k + unitSize k ≤ a + n))

/-- Units that a write touches are correct from then on (R181; 04 and 05, "When it fails"). -/
def State.clearBad (s : State) (a n : Nat) : State :=
  if s.bad.rows.isEmpty then s else { s with bad := s.bad.keep fun k _ => !(decide (a < k + unitSize k) && decide (k < a + n)) }

/-- The first byte, in the first shared frame, of a write of `n` bytes from `a`. -/
def State.sharedIn (s : State) (a n : Nat) : Option Nat :=
  ((List.range (if n = 0 then 0 else (a + n - 1) / 65536 - a / 65536 + 1)).map fun k =>
    if k = 0 then a else (a / 65536 + k) * 65536).find? s.sharedAt
/-- What stops a write of `n` bytes (R141, R163, R181). -/
def State.writeFault (s : State) (a n : Nat) : Option AccessFault :=
  if s.stackRefuses a then some (.refused a) else
  match s.sharedIn a n with
  | some x => some (.shared x)
  | none => (s.badMerge a n).map .uncorrectable
/-- Adjoining stores joined into one, so that lanes which together cover a coded unit need no merge (R181). -/
def joinStores : List (Nat × List Byte) → List (Nat × List Byte)
  | [] => []
  | (a, b) :: r => match joinStores r with
    | (c, d) :: t => if a + b.length = c then (a, b ++ d) :: t else (a, b) :: (c, d) :: t
    | [] => [(a, b)]

def State.storeBytes (s : State) (a : Nat) (bs : List Byte) : State :=
  { (s.clearBad a bs.length) with mem := s.mem.writeBytes a bs }

/-- Several stores: what stops one of them, and all of them made. -/
def State.storesFault (s : State) (l : List (Nat × List Byte)) : Option AccessFault := l.findSome? fun e => s.writeFault e.1 e.2.length
def State.storeAll (s : State) (l : List (Nat × List Byte)) : State := l.foldl (fun s e => s.storeBytes e.1 e.2) s

/-- Event code of an uncorrectable read (03, 04, 05, 07). -/
def uncCode (a : Nat) : Nat := if classOf a < 2 then 0x301 else if classOf a = 2 then 0x321 else if classOf a = 3 then 0x331 else 0x333

/-- Store an uncorrectable unit. -/
def State.markBad (s : State) (a : Nat) : State := { s with bad := s.bad.put (a / unitSize a * unitSize a) true }
/-- Count an uncorrectable read, whose unit stays so, and mark its frame for repair (R153, R164, R169). -/
def State.countBad (s : State) (a : Nat) : State :=
  let s := s.markBad a
  if classOf a < 2 then s.updStack (stackOf a) fun x => { x with
    uncorrectable := satAdd 32 x.uncorrectable 1
    marked := if x.marked.contains (offOf a / 65536) then x.marked else x.marked ++ [offOf a / 65536] }
  else if classOf a = 2 then s.updIsleStore (isleOf a) fun x => { x with uncorrectable := satAdd 32 x.uncorrectable 1 }
  else if classOf a = 4 then s.updBant (isleOf a) fun x => { x with uncorrectable := satAdd 32 x.uncorrectable 1 }
  else s

/-- The event of an access that is not performed: engine source, job context, and the list and index of the access (06, 07). `more` follows
the values of the event's own chapter: what R116 adds for a core. -/
def State.raiseAccess (s : State) (c : Nat) (src : Source) (f : AccessFault) (list index : Nat) (more : List Nat) : State :=
  match f with
  | .refused _ => s
  | .shared a => s.emit 0x340 3 (srcIn (isleOf a) 1 0) (some c)
      ([isleOf a, classOf a, offOf a / 65536, (s.frame (frameKey a)).count, src.isle.toNat, src.block.toNat, src.inst.toNat, list, index, c] ++ more)
  | .uncorrectable a =>
    let s := s.countBad a
    if classOf a = 3 then s.emit 0x331 3 (srcOx (isleOf a * 4 + offOf a / 2 ^ 21)) (some c)
      ([isleOf a, offOf a / 2 ^ 21, offOf a % 2 ^ 21, c] ++ more)
    else if classOf a = 4 then s.emit 0x333 3 (srcCore (isleOf a * 16 + offOf a / 2 ^ 18)) (some c)
      ([isleOf a, offOf a / 2 ^ 18, offOf a % 2 ^ 18 / 2 ^ 16, offOf a % 2 ^ 18, c] ++ more)
    else s.emit (uncCode a) 3 (srcIn (isleOf a) 1 0) (some c)
      ([isleOf a, classOf a, offOf a, src.isle.toNat, src.block.toNat, src.inst.toNat, c] ++ more)

def AccessFault.code : AccessFault → Nat
  | .shared _ => 0x340
  | .uncorrectable a => uncCode a
  | .refused _ => 0x312
/-- A local engine's access is not performed and its job halts (R141, R153). -/
def State.accessFault (s : State) (c : Nat) (src : Source) (f : AccessFault) (list index : Nat) : State :=
  (s.raiseAccess c src f list index []).haltJob c f.code

/-- What stops a read of `n` bytes (R153, R163, R164). -/
def State.readFault (s : State) (a n : Nat) : Option AccessFault :=
  if s.stackRefuses a then some (.refused a) else (s.badIn a n).map .uncorrectable

/-! ### What a read finds in an HBM burst (R152, R153) -/

/-- A read of the burst at `a` finds a burst that stands corrected: counted, and written back as the code makes it. -/
def State.fixBurst (s : State) (a : Nat) (found : ReadFinding) : State :=
  let b := a / 64 * 64
  if classOf a < 2 && (rsRead found).1 == .corrected then
    (({ s with mem := s.mem.writeBytes b (flipBurst (rsRead found).2 (s.mem.readBytes b 64)) }).updStack (stackOf a) fun x =>
      { x with corrected := satAdd 64 x.corrected 1 }).emit 0x300 0 (srcStack (stackOf a)) none [isleOf a, classOf a, offOf a / 64 * 64]
  else s
/-- What stops a read that finds `found` in its burst. -/
def State.foundFault (s : State) (a n : Nat) (found : ReadFinding) : Option AccessFault :=
  (s.readFault a n).orElse fun _ =>
    if classOf a < 2 && (rsRead found).1 == .uncorrectable then some (.uncorrectable (a / 64 * 64)) else none
/-- A page mover's read of the page at `a` finds a burst uncorrectable, which stays so, or corrects it. -/
def State.foundInPage (s : State) (a skip page : Nat) (found : Option BurstFinding) : State := match found with
  | some f =>
    if f.page = page ∧ skip ≤ f.offset.val ∧ classOf a < 2 ∧ !s.stackRefuses a then
      if (rsRead f.found).1 = .uncorrectable then s.markBad (a + f.offset.val) else s.fixBurst (a + f.offset.val) f.found
    else s
  | none => s

/-- The memory of a page is copied; neither side being an instruction page, all 64 KiB (R132). -/
def copySkip (src dst : Nat) : Nat :=
  let code (a : Nat) : Bool := classOf a == 4 && offOf a % 2 ^ 18 == 0
  if code src || code dst then 0x1000 else 0

def noPlace : Nat := 2 ^ 32 - 1

/-- Source of the page mover of an isle. -/
def srcMover (isle : Nat) : Source := srcIn isle 5 0
/-- An access through a null entry is counted in an isle (R142). -/
def State.nullAccess (s : State) (isle : Nat) : State :=
  s.updIsle isle fun x => { x with nullAccess := satAdd 32 x.nullAccess 1 }
/-- The page mover of an isle reads a page from byte `k` of it; a null source reads zeros and is counted (R142). -/
def State.readPage (s : State) (c isle : Nat) (src : Option Nat) (k : Nat) : State × Bool :=
  match src with
  | none => (s.nullAccess isle, true)
  | some a => match s.readFault (a + k) (65536 - k) with
    | some f => (s.accessFault c (srcMover isle) f noPlace noPlace, false)
    | none => (s, true)
/-- It writes the page that it has read from `src`, from byte `k` on; a null destination is not written and is counted (R142). -/
def State.writePage (s : State) (c isle : Nat) (src dst : Option Nat) (k list index : Nat) : State × Bool :=
  match dst with
  | none => (s.nullAccess isle, true)
  | some d => match s.writeFault (d + k) (65536 - k) with
    | some f => (s.accessFault c (srcMover isle) f list index, false)
    | none => ({ (s.clearBad (d + k) (65536 - k)) with mem := match src with
        | some a => s.mem.copy (a + k) (d + k) (65536 - k)
        | none => s.mem.clear (d + k) (65536 - k) }, true)
/-- Bytes at the head of a page that a move leaves alone (R132). -/
def moveSkip (src dst : Option Nat) : Nat := match src, dst with
  | some a, some d => copySkip a d
  | some a, none => copySkip a a
  | none, some d => copySkip d d
  | none, none => 0

end Sys2Proof.Machine
end

