-- ==== Sys2Proof/Machine/Flock.lean ====
section
/-! DEFINITION. Page lists, the page mover and the flock commands (06). -/

namespace Sys2Proof.Machine

/-- Entry of a page list of a run: none is null (R128). -/
def Run.entry (r : Run) (list index : Nat) : Option Nat := (r.lists.get {} list).find? index

def Run.setEntry (r : Run) (list index : Nat) (a : Option Nat) : Run :=
  { r with lists := r.lists.upd {} list fun t => match a with
      | some a => t.put index a
      | none => t.drop index }

/-! ### Filling lists at launch (R130) -/

/-- Lowest-numbered free frames of a pool range, `n` of them at most. -/
def drawFrames (ok : Nat → Bool) : Nat → Nat → Nat → List Nat
  | 0, _, _ => []
  | fuel + 1, f, n => if n = 0 then [] else if ok f then f :: drawFrames ok fuel (f + 1) (n - 1) else drawFrames ok fuel (f + 1) n

/-- Key of frame `f` of a target. -/
def frameOf (isle cls f : Nat) : Nat := (isle * 3 + cls) * 2 ^ 19 + f

/-- A launch that cannot be allocated: isle, target, list, frames needed, frames free (13, DETAIL of KV_EXHAUSTED). -/
structure Shortage where
  isle : Nat
  target : Nat
  list : Nat
  needed : Nat
  free : Nat
deriving DecidableEq, Repr

/-- Frames that a list draws at launch (06, Table 4). -/
def PageList.draws (l : PageList) : Nat :=
  if l.kind = 2 || l.kind = 3 then l.capacity else if l.kind = 4 then l.capacity - l.inherit else 0

def nullEntry : Nat := 2 ^ 64 - 1

/-- COUNT rises by `n` for a frame that a job names, and the isle's highest COUNT follows (06, Tables 2 and 10). -/
def State.holdFrame (s : State) (c k n : Nat) : State :=
  let v := (s.frame k).count + n
  (s.updFrame k fun f => { f with count := v, job := c }).updIsle (k / 2 ^ 19 / 3) fun x => { x with maxCount := Nat.max x.maxCount v }

/-- Step 1 of R130: the entries of IMAGE lists. -/
def State.fillImages (s : State) (c : Nat) (ls : List (Nat × PageList)) : State × Table (Table Nat) :=
  ls.foldl (fun st nl =>
    if nl.2.kind = 1 then
      let es := ((List.range nl.2.entries.length).zip nl.2.entries).filter fun e => e.2 != nullEntry
      (es.foldl (fun s e => s.holdFrame c (frameKey e.2) 1) st.1,
       st.2.put nl.1 (es.foldl (fun t e => t.put e.1 (localOf e.2)) {}))
    else st) (s, {})

/-- Steps 1 to 3 of R130, all or nothing. -/
def State.fillLists (s : State) (c : Nat) (p : Plan) : Except Shortage (State × Table (Table Nat)) :=
  let ls := (List.range p.lists.length).zip p.lists
  ls.foldl (fun acc nl => match acc with
    | .error e => .error e
    | .ok (s, t) =>
      let l := nl.2
      let n := l.draws
      if n = 0 then .ok (s, t) else
      let ok (f : Nat) : Bool :=
        let x := s.frame (frameOf l.isle l.target f)
        x.count == 0 && !x.retired && p.hasMem (gaddr l.isle l.target (f * 65536))
      let fs := drawFrames ok l.poolSpan l.poolBase n
      if fs.length < n then .error ⟨l.isle, l.target, nl.1, n, fs.length⟩
      else
        let base := if l.kind = 4 then l.inherit else 0
        let s := fs.foldl (fun s f => s.holdFrame c (frameOf l.isle l.target f) 1) s
        .ok (s, t.put nl.1 (((List.range fs.length).zip fs).foldl (fun t e =>
          t.put (base + e.1) (gaddr l.isle l.target (e.2 * 65536))) {}))) (.ok (s.fillImages c ls))

/-! ### Pages on their way -/
/-- Isle of a side of a move by the page mover of `isle`; a null side is in none, and stands for that isle. -/
def sideOf (isle : Nat) (o : Option Nat) : Nat := (o.map isleOf).getD isle
/-- One page of a command of the page mover of `isle`, read, carried over the Sounds between its places and written; `err` is a Sound with an
uncorrectable error (R68). -/
def State.carryPage (s : State) (c isle : Nat) (src dst : Option Nat) (list index : Nat) (err : Option Nat) : State × Bool :=
  let k := moveSkip src dst
  let (s, ok) := s.readPage c isle src k
  if !ok then (s, false) else
  let (s, ok) := s.crossRoute c (sideOf isle src) (sideOf isle dst) 0 err
  if ok then s.writePage c isle src dst k list index else (s, false)

/-! ### FORK, SPLIT and RELEASE (R137 to R139) -/

def State.listIsle (s : State) (c list : Nat) : Nat := match (s.ctx c).plan with
  | some p => match p.lists[list]? with
    | some l => l.isle
    | none => 0
  | none => 0

/-- The first frame whose COUNT would pass 65,535 when `n` is added for each naming of it. -/
def State.overCount (s : State) (n : Nat) (frames : List Nat) : Option Nat :=
  frames.find? fun k => decide (65535 < (s.frame k).count + n * frames.count k)

/-- R137. -/
def execFork (ctx : Ctx) (ops : ForkOps) (s : State) : Host.Outcome State Fault Refusal :=
  let c := ctx.val
  let n := ops.children.toNat
  if n = 0 || 4096 < n then .refused .operandRefusedAtLoad else
  match s.controlOf c (.fork ops) with
  | none => .next s
  | some (r, _) =>
    let parent := ops.parent.toNat
    let entries := (r.lists.get {} parent).rows
    let frames := entries.map fun e => frameKey e.2
    match s.overCount n frames with
    | some k => .next ((s.emit 0x341 3 (srcIn (s.listIsle c parent) 1 0) (some c)
        [k / 2 ^ 19 / 3, k / 2 ^ 19 % 3, k % 2 ^ 19, parent, n, c]).haltJob c 0x341)
    | none =>
      let s := frames.foldl (fun s k => s.holdFrame c k n) s
      let s := s.updRun c fun r => (List.range n).foldl (fun r j =>
        entries.foldl (fun r e => r.setEntry (ops.firstChild.toNat + j) e.1 (some e.2)) r) r
      .next (s.updIsle (s.listIsle c parent) fun x => { x with forks := satAdd 64 x.forks 1 })

/-- COUNT 0: no entry names the frame (06, Table 2). -/
def State.dropFrame (s : State) (k : Nat) : State := s.updFrame k fun f => { f with count := 0 }
/-- A page of a SPLIT whose frame is shared: COPYING is set, the page copied into the reserve frame, the entry pointed at it, and the old
frame's COUNT decremented, which clears COPYING (R138). A copy that a fault stops leaves the entry as it was, and no entry names the reserve
frame (DEDUCED, log 21). -/
def State.splitCopy (s : State) (c isle list index a ra ri reserve : Nat) (err : Option Nat) : State × Bool :=
  let s := s.updFrame (frameKey a) fun f => { f with copying := true }
  let (s, ok) := s.carryPage c isle (some a) (some ra) reserve ri err
  if !ok then (s.dropFrame (frameKey ra), false) else
  let s := (s.updRun c fun r => r.setEntry list index (some ra)).updFrame (frameKey a) fun f =>
    { f with count := f.count - 1, copying := false }
  (s.updIsle isle fun x => { x with splitCopied := satAdd 64 x.splitCopied 1 }, true)
/-- One page of a SPLIT by the page mover of `isle` (R138): it takes the next entry of the reserve list, whichever case follows. A null
entry of the list is an access that reads and writes nothing, and no entry names the reserve frame it took (R142; DEDUCED, log 21). -/
def State.splitPage (s : State) (c isle list index reserve : Nat) (err : Option Nat) : State × Bool :=
  match (s.ctx c).run with
  | none => (s, false)
  | some r => match (r.lists.get {} reserve).rows.head? with
    | none => (s.nullAccess isle, true)
    | some (ri, ra) =>
      let s := s.updRun c fun r => r.setEntry reserve ri none
      match r.entry list index with
      | none => ((s.dropFrame (frameKey ra)).nullAccess isle, true)
      | some a =>
        if 1 < (s.frame (frameKey a)).count then s.splitCopy c isle list index a ra ri reserve err
        else ((s.dropFrame (frameKey ra)).updIsle isle fun x => { x with splitKept := satAdd 64 x.splitKept 1 }, true)
/-- R136, R138: the pages in order, copied by the page mover of the strand's isle, which must be outside its BG_WINDOWs (R31). -/
def execSplit (ctx : Ctx) (cmd : SplitCmd) (s : State) : Host.Outcome State Fault Refusal :=
  let ops := cmd.ops
  let c := ctx.val
  if ops.count = 0 then .refused .operandRefusedAtLoad else
  match s.controlOf c (.split ops) with
  | none => .next s
  | some (_, st) =>
    if s.inWindow (windowKey st.isle 4 0) then .next s else
    .next ((List.range ops.count.toNat).foldl (fun sb k =>
      if sb.2 then sb.1.splitPage c st.isle ops.list.toNat (ops.first.toNat + k) ops.reserve.toNat (cmd.soundError.map (·.val)) else sb)
      (s, true)).1

/-- R139. -/
def execRelease (ctx : Ctx) (ops : ReleaseOps) (s : State) : Host.Outcome State Fault Refusal :=
  if ops.lists = 0 || 1048576 < ops.lists.toNat then .refused .operandRefusedAtLoad else
  match s.controlOf ctx.val (.release ops) with
  | none => .next s
  | some _ => .next (s.releaseLists ctx.val ((List.range ops.lists.toNat).map (ops.first.toNat + ·)))

/-! ### COPY and MCAST (R131 to R134) -/

/-- A page reference (R131): list and first index. -/
def refList (v : Nat) : Nat := bits v 19 0
def refIndex (v : Nat) : Nat := bits v 35 20

/-- Page k of a side: an entry of a list, or the k-th 64 KiB from a global address. -/
def Run.sidePage (r : Run) (isList : Bool) (side k : Nat) : Option Nat :=
  if isList then r.entry (refList side) (refIndex side + k) else some (localOf side + k * 65536)

/-- List and index named in a fault of a side. -/
def sideList (isList : Bool) (side : Nat) : Nat := if isList then refList side else noPlace
def sideIndex (isList : Bool) (side k : Nat) : Nat := if isList then refIndex side + k else noPlace

/-- The run whose command of these operands the page mover of an isle performs, outside its BG_WINDOWs (R31, R42, R49). -/
def State.moverRuns (s : State) (c isle : Nat) (op : PlanOp) : Option Run :=
  if s.inWindow (windowKey isle 4 0) then none else (s.engineOp c 4 isle 0 op).map (·.1)
/-- What the read of page `k` of a command finds in a burst of its source. -/
def State.foundOn (s : State) (src dst : Option Nat) (k : Nat) (found : Option BurstFinding) : State := match src with
  | some a => s.foundInPage a (moveSkip src dst) k found
  | none => s
/-- R132, R134: COUNT pages in page order, each as it is read. -/
def execCopy (ctx : Ctx) (isle : Isle) (ops : CopyOps) (meets : PageMeets) (s : State) : Host.Outcome State Fault Refusal :=
  let c := ctx.val
  if ops.count = 0 || ops.axis || ops.run ≠ 0 || ops.first ≠ 0 then .refused .operandRefusedAtLoad else
  match s.moverRuns c isle.val (.copy ops) with
  | none => .next s
  | some r =>
    .next ((List.range ops.count.toNat).foldl (fun sb k =>
      if sb.2 then (sb.1.foundOn (r.sidePage ops.srcList ops.src.toNat k) (r.sidePage ops.dstList ops.dst.toNat k) k meets.found).carryPage c
        isle.val (r.sidePage ops.srcList ops.src.toNat k) (r.sidePage ops.dstList ops.dst.toNat k)
        (sideList ops.dstList ops.dst.toNat) (sideIndex ops.dstList ops.dst.toNat k) (meets.soundError.map (·.val)) else sb) (s, true)).1

/-- Isle number `k` of a row or column run (R133). -/
def runIsle (ops : CopyOps) (k : Nat) : Nat := ops.first.toNat + (if ops.axis then 8 * k else k)

/-- Destination page of the k-th isle of a run (R133). -/
def Run.mcastPage (r : Run) (ops : CopyOps) (k page : Nat) : Option Nat :=
  let d := ops.dst.toNat
  if ops.dstList then r.entry (refList d + k) (refIndex d + page)
  else some (gaddr (runIsle ops k) (classOf d) (offOf d) + page * 65536)

/-- The members of a run on the way from the isle of the source to an end of the run, nearest first, each with the Sound before it (R58). -/
def mcastArm (ops : CopyOps) (at_ : Nat) (up : Bool) : List (Nat × Nat × Nat) :=
  let ks := List.range ops.run.toNat
  let arm := if up then ks.filter fun k => decide (at_ < runIsle ops k) else (ks.filter fun k => decide (runIsle ops k < at_)).reverse
  arm.zip (pathSounds at_ (arm.map (runIsle ops)))
/-- The page that has been read is written at member `k` of the run (R133). -/
def State.mcastWrite (s : State) (c isle : Nat) (r : Run) (ops : CopyOps) (src : Option Nat) (page k : Nat) : State × Bool :=
  s.writePage c isle src (r.mcastPage ops k page) (moveSkip src (r.mcastPage ops k page))
    (if ops.dstList then refList ops.dst.toNat + k else noPlace) (sideIndex ops.dstList ops.dst.toNat page)
/-- One page of an MCAST: read once, delivered in the isle of the source, and forwarded towards both ends of the run, so that it crosses each
Sound of the run once (R58, R133). -/
def State.mcastPage (s : State) (c isle : Nat) (r : Run) (ops : CopyOps) (err : Option Nat) (page : Nat) : State × Bool :=
  let src := r.sidePage ops.srcList ops.src.toNat page
  let at_ := sideOf isle src
  let (s, ok) := s.readPage c isle src (moveSkip src (r.mcastPage ops 0 page))
  if !ok then (s, false) else
  let own := (List.range ops.run.toNat).filter fun k => runIsle ops k == at_
  let sb := own.foldl (fun (sb : State × Bool) k => if sb.2 then sb.1.mcastWrite c isle r ops src page k else sb) (s, true)
  (mcastArm ops at_ true ++ mcastArm ops at_ false).foldl (fun (sb : State × Bool) x =>
    if !sb.2 then sb else
    let (s, ok) := sb.1.crossOne c x.2.1 x.2.2 0 err
    if ok then s.mcastWrite c isle r ops src page x.1 else (s, false)) sb
/-- R133: each page to the same position in every isle of the run. `soundError` is a Sound of the run that meets an uncorrectable error
(R68). -/
def execMcast (ctx : Ctx) (isle : Isle) (ops : CopyOps) (soundError : Option SoundId) (s : State) :
    Host.Outcome State Fault Refusal :=
  let c := ctx.val
  if ops.count = 0 || ops.run.toNat < 2 || 8 < ops.run.toNat then .refused .operandRefusedAtLoad else
  match s.moverRuns c isle.val (.mcast ops) with
  | none => .next s
  | some r =>
    .next ((List.range ops.count.toNat).foldl (fun sb page =>
      if sb.2 then sb.1.mcastPage c isle.val r ops (soundError.map (·.val)) page else sb) (s, true)).1

end Sys2Proof.Machine
end

