-- ==== Sys2Proof/Machine/Num.lean ====
section
/-! DEFINITION. Number formats and their one rounding (R70, R72, R73, R84, R85). A value is exact until it is rounded; rounding is
to nearest, ties to even, and subnormals are kept. Bit patterns are numbers below 2^(8 × size). -/

namespace Sys2Proof.Machine

/-- Format codes of 04, Table 2. -/
inductive Fmt where
  | fp32 | bf16 | fp16 | e4m3 | e5m2 | int8 | int32
deriving DecidableEq, Repr

def Fmt.ofCode : Nat → Option Fmt
  | 1 => some .fp32 | 2 => some .bf16 | 3 => some .fp16 | 4 => some .e4m3 | 5 => some .e5m2 | 6 => some .int8 | 7 => some .int32
  | _ => none

/-- Size in bytes (R70). -/
def Fmt.size : Fmt → Nat
  | .fp32 => 4 | .bf16 => 2 | .fp16 => 2 | .e4m3 => 1 | .e5m2 => 1 | .int8 => 1 | .int32 => 4

def Fmt.isInt : Fmt → Bool
  | .int8 => true | .int32 => true | _ => false

/-- An exact value: (−1)^neg × m × 2^e, an infinity, or not a number. -/
inductive Fp where
  | nan
  | inf (neg : Bool)
  | fin (neg : Bool) (m : Nat) (e : Int)
deriving DecidableEq, Repr

/-- Precision in bits, exponent of the least subnormal, first bit pattern that is not finite, NaN pattern (R70, R85). -/
structure FloatShape where
  p : Nat
  lo : Int
  top : Nat
  nan : Nat
deriving DecidableEq, Repr

def Fmt.shape : Fmt → FloatShape
  | .bf16 => ⟨8, -133, 0x7F80, 0x7FC0⟩
  | .fp16 => ⟨11, -24, 0x7C00, 0x7E00⟩
  | .e4m3 => ⟨4, -9, 0x7F, 0x7F⟩
  | .e5m2 => ⟨3, -16, 0x7C, 0x7E⟩
  | _ => ⟨24, -149, 0x7F800000, 0x7FC00000⟩

/-- The exact value of a bit pattern (R70). -/
def Fmt.decode (f : Fmt) (b : Nat) : Fp :=
  match f with
  | .int8 => let i := toInt 8 b; .fin (decide (i < 0)) i.natAbs 0
  | .int32 => let i := toInt 32 b; .fin (decide (i < 0)) i.natAbs 0
  | _ =>
    let s := f.shape
    let w := 8 * f.size
    let neg := bit b (w - 1)
    let a := b % 2 ^ (w - 1)
    if a < 2 ^ (s.p - 1) then .fin neg a s.lo
    else if a < s.top then .fin neg (a % 2 ^ (s.p - 1) + 2 ^ (s.p - 1)) (s.lo + (a / 2 ^ (s.p - 1) - 1 : Nat))
    else if f != .e4m3 && a == s.top then .inf neg
    else .nan

/-- Quotient rounded to nearest, ties to even. -/
def divEven (n d : Nat) : Nat :=
  let q := n / d
  let r := n % d
  if 2 * r < d then q else if d < 2 * r then q + 1 else q + q % 2

/-- ⌊log2 (n / d)⌋ for positive n and d. -/
def floorLog (n d : Nat) : Int :=
  let k : Int := (n.log2 : Int) - d.log2
  let up := if 0 ≤ k then d * 2 ^ k.toNat ≤ n else d ≤ n * 2 ^ (-k).toNat
  if up then k else k - 1

/-- Magnitude (n / d) × 2^e rounded to the format's grid, as the pattern without its sign; a pattern at or above `top` is an
overflow (R73, R85). -/
def roundMag (s : FloatShape) (n d : Nat) (e : Int) : Nat :=
  if n = 0 then 0 else
  let u := max (floorLog n d + e - (s.p - 1 : Nat)) s.lo
  let q := if u ≤ e then divEven (n * 2 ^ (e - u).toNat) d else divEven n (d * 2 ^ (u - e).toNat)
  (u - s.lo).toNat * 2 ^ (s.p - 1) + q

/-- Pattern of a float format for a magnitude pattern that may overflow (R85). -/
def packFloat (f : Fmt) (sat neg : Bool) (mag : Nat) : Nat :=
  let s := f.shape
  let sign := if neg then 2 ^ (8 * f.size - 1) else 0
  if mag < s.top then sign + mag
  else if sat && (f == .e4m3 || f == .e5m2) then sign + (s.top - 1)
  else sign + s.top

/-- (−1)^neg × (n / d) × 2^e converted to a float format. -/
def roundRat (f : Fmt) (sat neg : Bool) (n d : Nat) (e : Int) : Nat := packFloat f sat neg (roundMag f.shape n d e)

/-- Conversion of an exact value to a format (R85). An INT32 result is the integer part modulo 2^32; no caller converts to it. -/
def Fmt.encode (f : Fmt) (sat : Bool) (v : Fp) : Nat :=
  match f, v with
  | .int8, .nan => 0
  | .int8, .inf neg => if neg then 0x80 else 0x7F
  | .int8, .fin neg m e =>
    let q := if 0 ≤ e then m * 2 ^ e.toNat else divEven m (2 ^ (-e).toNat)
    if neg then ofInt 8 (-(Nat.min q 128 : Nat)) else Nat.min q 127
  | .int32, .fin neg m e =>
    let q := if 0 ≤ e then m * 2 ^ e.toNat else divEven m (2 ^ (-e).toNat)
    ofInt 32 (if neg then -(q : Int) else q)
  | .int32, _ => 0
  | f, .nan => f.shape.nan
  | f, .inf neg => packFloat f sat neg f.shape.top
  | f, .fin neg m e => roundRat f sat neg m 1 e

/-- Canonical NaN of FP32 (R73). -/
def canonNan : Nat := 0x7FC00000

/-! ### Exact arithmetic (R72, R73) -/

def Fp.mul : Fp → Fp → Fp
  | .nan, _ => .nan
  | _, .nan => .nan
  | .inf a, .inf b => .inf (a != b)
  | .inf a, .fin b m _ => if m = 0 then .nan else .inf (a != b)
  | .fin a m _, .inf b => if m = 0 then .nan else .inf (a != b)
  | .fin a m e, .fin b n f => .fin (a != b) (m * n) (e + f)

def Fp.isNan : Fp → Bool
  | .nan => true | _ => false
def Fp.isInf (neg : Bool) : Fp → Bool
  | .inf n => n == neg | _ => false
def Fp.isNegZero : Fp → Bool
  | .fin true 0 _ => true | _ => false
def Fp.isZero : Fp → Bool
  | .fin _ 0 _ => true | _ => false

/-- Signed magnitude at exponent `e`, which is no larger than the value's own. -/
def Fp.scaled (e : Int) : Fp → Int
  | .fin neg m f => let a : Int := (m * 2 ^ (f - e).toNat : Nat); if neg then -a else a
  | _ => 0

def Fp.expo (d : Int) : Fp → Int
  | .fin _ m e => if m = 0 then d else e
  | _ => d

/-- One exact sum of all terms (R72, R73): zero is +0 unless every term is −0. -/
def exactSum (ts : List Fp) : Fp :=
  if ts.any Fp.isNan then .nan
  else if ts.any (Fp.isInf false) && ts.any (Fp.isInf true) then .nan
  else if ts.any (Fp.isInf false) then .inf false
  else if ts.any (Fp.isInf true) then .inf true
  else
    let e := ts.foldl (fun a t => min a (t.expo a)) 0
    let s := ts.foldl (fun a t => a + t.scaled e) (0 : Int)
    if s = 0 then .fin (!ts.isEmpty && ts.all Fp.isNegZero) 0 0 else .fin (decide (s < 0)) s.natAbs e

def f32 (b : Nat) : Fp := Fmt.decode .fp32 b
def toF32 (v : Fp) : Nat := Fmt.encode .fp32 false v
def f32Add (a b : Nat) : Nat := toF32 (exactSum [f32 a, f32 b])
def f32Mul (a b : Nat) : Nat := toF32 ((f32 a).mul (f32 b))
def f32Neg (a : Nat) : Nat := if bit a 31 then a - 2 ^ 31 else a + 2 ^ 31
def f32Sub (a b : Nat) : Nat := f32Add a (f32Neg b)
/-- c + a × b, rounded once. -/
def f32Fma (c a b : Nat) : Nat := toF32 (exactSum [f32 c, (f32 a).mul (f32 b)])

/-- FP32 order with −0 below +0, for patterns that are not NaN (R85, R108). -/
def f32Key (b : Nat) : Int := if bit b 31 then -((b % 2 ^ 31 : Nat) : Int) - 1 else (b : Int)
def f32IsNan (b : Nat) : Bool := decide (0x7F800000 < b % 2 ^ 31)
def f32Lt (a b : Nat) : Bool := decide (f32Key a < f32Key b)
/-- Maximum and minimum with a NaN operand giving the canonical NaN (R108). -/
def f32Max (a b : Nat) : Nat := if f32IsNan a || f32IsNan b then canonNan else if f32Lt a b then b else a
def f32Min (a b : Nat) : Nat := if f32IsNan a || f32IsNan b then canonNan else if f32Lt b a then b else a

end Sys2Proof.Machine
end

