-- ==== Sys2Proof/Machine/Precise.lean ====
section
/-! DEFINITION. The exact values of the curved gate functions, rounded once to BF16 (R86; 04, Tables 9 and 11). Reals stand as integers in
units of 2^−400, which leaves more than 200 bits below the least BF16 value. -/

namespace Sys2Proof.Machine

/-- One, in units of 2^−400. -/
def fxOne : Nat := 2 ^ 400
def fxMul (a b : Int) : Int := a * b / fxOne
def fxDiv (a b : Int) : Int := a * fxOne / b

/-- (−1)^neg × m × 2^e in units of 2^−400; exact for every FP32 value. -/
def fxOf (neg : Bool) (m : Nat) (e : Int) : Int :=
  let a : Int := if 0 ≤ e + 400 then (m * 2 ^ (e + 400).toNat : Nat) else (m / 2 ^ (-(e + 400)).toNat : Nat)
  if neg then -a else a

/-- Sum of `n` terms of the series of e^y, from term `t` with index `k`. -/
def fxExpSeries (y : Int) : Nat → Int → Nat → Int
  | 0, _, _ => 0
  | n + 1, t, k => t + fxExpSeries y n (fxMul t y / (k + 1 : Nat)) (k + 1)

def fxSquare : Nat → Int → Int
  | 0, a => a
  | n + 1, a => fxSquare n (fxMul a a)

/-- e^x for |x| ≤ 256, as (e^(x ÷ 512))^512. -/
def fxExp (x : Int) : Int := fxSquare 9 (fxExpSeries (x / 512) 90 fxOne 0)

/-- Sum of `n` terms of the series of artanh z, `p` being z to the power `k`. -/
def fxArtanhSeries (z2 : Int) : Nat → Int → Nat → Int
  | 0, _, _ => 0
  | n + 1, p, k => p / (k : Nat) + fxArtanhSeries z2 n (fxMul p z2) (k + 2)

/-- ln(1 + t) for 0 ≤ t ≤ 1. -/
def fxLog1p (t : Int) : Int :=
  let z := fxDiv t (2 * fxOne + t)
  2 * fxArtanhSeries (fxMul z z) 130 z 1

/-- σ(x); beyond ±128 its distance from 0 or 1 is below every BF16 rounding of the functions that use it. -/
def fxSigmoid (x : Int) : Int :=
  if 128 * fxOne ≤ x then fxOne else if x ≤ -(128 * fxOne : Int) then 0 else fxDiv fxOne (fxOne + fxExp (-x))

def fxSoftplus (x : Int) : Int :=
  if 128 * fxOne ≤ x then x else if x ≤ -(128 * fxOne : Int) then 0
  else if 0 ≤ x then x + fxLog1p (fxExp (-x)) else fxLog1p (fxExp x)

def fxTanh (x : Int) : Int :=
  let a : Int := x.natAbs
  let t := if 64 * fxOne ≤ a then (fxOne : Int) else
    let q := fxExp (-2 * a)
    fxDiv (fxOne - q) (fxOne + q)
  if x < 0 then -t else t

/-- √(2 ÷ π). -/
def fxGeluScale : Int :=
  0xcc42299ea1b284687e59e2805d5c717fa7053e60a24e0db1808e369004c73a5d3bf158aa88fa7b6e47eba75766e9d11bd628

/-- The tanh form: x × σ(2 √(2 ÷ π) (x + 0.044715 x³)). -/
def fxGelu (x : Int) : Int :=
  if 64 * fxOne ≤ x then x else if x ≤ -(64 * fxOne : Int) then 0 else
  fxMul x (fxSigmoid (2 * fxMul fxGeluScale (x + fxMul (fxMul x x) x * 44715 / 1000000)))

/-- 1 ÷ √(m × 2^e), for m > 0. -/
def fxRsqrt (m : Nat) (e : Int) : Int :=
  let k := 800 - e
  (Nat.sqrt (2 ^ k.toNat / m) : Nat)

/-- A value in units of 2^−400, of the given sign, rounded to BF16. -/
def fxBf16 (neg : Bool) (v : Int) : Nat := roundRat .bf16 false neg v.natAbs 1 (-400)

/-- BF16 patterns in the order of their values, one apart for one ulp. -/
def bf16Key (b : Nat) : Int := if bit b 15 then -((b % 2 ^ 15 : Nat) : Int) else (b % 2 ^ 15 : Nat)

/-- Does the FP32 pattern `r`, rounded to BF16, lie within 2 ulp of the BF16 pattern `b` (R86)? -/
def withinUlps (r b : Nat) : Bool :=
  !(f32IsNan r) && decide ((bf16Key (Fmt.encode .bf16 false (f32 r)) - bf16Key b).natAbs ≤ 2)

end Sys2Proof.Machine
end

