-- ==== Sys2Proof/Machine/Gate.lean ====
section
/-! DEFINITION. The gate functions: function codes, COARSE curves bit for bit, PRECISE special values (R85 to R88; 04, Tables 9
and 11). -/

namespace Sys2Proof.Machine

/-- Function codes of 04, Table 9. -/
inductive GateFn where
  | identity | relu | leakyRelu | gelu | silu | sigmoid | tanh | exp | softplus | recip | rsqrt | clamp
deriving DecidableEq, Repr

def GateFn.ofCode : Nat → Option GateFn
  | 0 => some .identity | 1 => some .relu | 2 => some .leakyRelu | 3 => some .gelu | 4 => some .silu | 5 => some .sigmoid
  | 6 => some .tanh | 7 => some .exp | 8 => some .softplus | 9 => some .recip | 10 => some .rsqrt | 11 => some .clamp
  | _ => none

/-- Codes 0x03 to 0x0A, which have the two modes (R86). -/
def GateFn.curved : GateFn → Bool
  | .gelu | .silu | .sigmoid | .tanh | .exp | .softplus | .recip | .rsqrt => true
  | _ => false

def GateFn.takesParam : GateFn → Bool
  | .leakyRelu | .clamp => true
  | _ => false

def GateFn.code : GateFn → Nat
  | .identity => 0 | .relu => 1 | .leakyRelu => 2 | .gelu => 3 | .silu => 4 | .sigmoid => 5 | .tanh => 6 | .exp => 7
  | .softplus => 8 | .recip => 9 | .rsqrt => 10 | .clamp => 11

/-- A curve of R87: `a` and `h` in sixteenths, and the node values y_0 to y_16 as FP32 patterns. -/
structure Curve where
  a : Int
  h : Nat
  y : List Nat
deriving DecidableEq, Repr

/-- R87 steps 1 and 2: the segment domain of Table 11 and the function's exact values at the nodes, rounded to FP32. -/
def curveOf : GateFn → Curve
  | .gelu => ⟨-64, 8, [0xB8935102, 0xBA218853, 0xBB6E6150, 0xBC7723FF, 0xBD39F7C5, 0xBDCDAD6B, 0xBE229E91, 0xBE1DFD26, 0x00000000,
    0x3EB1016D, 0x3F57585C, 0x3FB32529, 0x3FFA3042, 0x401F08DC, 0x403FC468, 0x405FF5E7, 0x407FFED9]⟩
  | .silu => ⟨-128, 16, [0xBB2FD1EF, 0xBBD0F929, 0xBC731199, 0xBD0911D0, 0xBD9357D1, 0xBE11B139, 0xBE7420A9, 0xBE89B2B1, 0x00000000,
    0x3F3B26A8, 0x3FE17BEB, 0x4036E4EC, 0x407B6541, 0x409EEDDC, 0x40BF8677, 0x40DFCBC2, 0x40FFEA06]⟩
  | .sigmoid => ⟨-128, 16, [0x39AFD1EF, 0x3A6ED39C, 0x3B220BBC, 0x3BDB4FB4, 0x3C9357D1, 0x3D4241A2, 0x3DF420A9, 0x3E89B2B1, 0x3F000000,
    0x3F3B26A8, 0x3F617BEB, 0x3F73DBE6, 0x3F7B6541, 0x3F7E4961, 0x3F7F5DF4, 0x3F7FC44B, 0x3F7FEA06]⟩
  | .tanh => ⟨-64, 8, [0xBF7FD40C, 0xBF7F8896, 0xBF7EBBE9, 0xBF7C92C1, 0xBF76CA83, 0xBF67B7CC, 0xBF42F7D6, 0xBEEC9A9F, 0x00000000,
    0x3EEC9A9F, 0x3F42F7D6, 0x3F67B7CC, 0x3F76CA83, 0x3F7C92C1, 0x3F7EBBE9, 0x3F7F8896, 0x3F7FD40C]⟩
  | .exp => ⟨0, 1, [0x3F800000, 0x3F85AAC3, 0x3F8B95C2, 0x3F91C3D3, 0x3F9837F0, 0x3F9EF532, 0x3FA5FED7, 0x3FAD583F, 0x3FB504F3,
    0x3FBD08A4, 0x3FC5672A, 0x3FCE248C, 0x3FD744FD, 0x3FE0CCDF, 0x3FEAC0C7, 0x3FF5257D, 0x40000000]⟩
  | .softplus => ⟨-128, 16, [0x39AFD97B, 0x3A6EEF7A, 0x3B223F1B, 0x3BDC0C6D, 0x3C94AF28, 0x3D470388, 0x3E01F96B, 0x3EA063D6, 0x3F317218,
    0x3FA818F5, 0x40081F97, 0x40431C0E, 0x408094AF, 0x40A03703, 0x40C01448, 0x40E00777, 0x41000160]⟩
  | .recip => ⟨16, 1, [0x3F800000, 0x3F70F0F1, 0x3F638E39, 0x3F579436, 0x3F4CCCCD, 0x3F430C31, 0x3F3A2E8C, 0x3F321643, 0x3F2AAAAB,
    0x3F23D70A, 0x3F1D89D9, 0x3F17B426, 0x3F124925, 0x3F0D3DCB, 0x3F088889, 0x3F042108, 0x3F000000]⟩
  | _ => ⟨16, 3, [0x3F800000, 0x3F6AEBF5, 0x3F5A514A, 0x3F4CCCCD, 0x3F41848F, 0x3F37EA74, 0x3F2F9D53, 0x3F285835, 0x3F21E89B,
    0x3F1C2896, 0x3F16FB06, 0x3F124925, 0x3F0E00D5, 0x3F0A137D, 0x3F067532, 0x3F031C1A, 0x3F000000]⟩

/-- Sixteen times (−1)^neg × m × 2^e, as numerator over denominator. -/
def sixteenths (neg : Bool) (m : Nat) (e : Int) : Int × Nat :=
  let n : Int := if neg then -(m : Int) else m
  if 0 ≤ e + 4 then (n * (2 ^ (e + 4).toNat : Nat), 1) else (n, 2 ^ (-(e + 4)).toNat)

/-- R87 steps 3 and 4, for an argument of n/d sixteenths inside the segment domain. -/
def curveAt (c : Curve) (n : Int) (d : Nat) : Nat :=
  let off := (n - c.a * d).toNat
  let j := off / (c.h * d)
  let t := roundRat .fp32 false false (off - j * c.h * d) (c.h * d) 0
  let y := c.y.getD j 0
  let slope := f32Sub (c.y.getD (j + 1) 0) y
  f32Add y (f32Mul t slope)

/-- FP32 pattern × 2^k, rounded once. -/
def f32Scale (b : Nat) (k : Int) : Nat :=
  match f32 b with
  | .fin neg m e => roundRat .fp32 false neg m 1 (e + k)
  | _ => b

/-- Is (−1)^neg × m × 2^e above `n`/100? -/
def aboveCenti (neg : Bool) (m : Nat) (e : Int) (n : Int) : Bool :=
  let v : Int := if neg then -(m * 100 : Nat) else (m * 100 : Nat)
  if 0 ≤ e then decide (n < v * (2 ^ e.toNat : Nat)) else decide (n * (2 ^ (-e).toNat : Nat) < v)
def belowCenti (neg : Bool) (m : Nat) (e : Int) (n : Int) : Bool := aboveCenti (!neg) m e (-n)

/-- 04, Table 11, COARSE outside the domain, for the functions evaluated on x itself. -/
def outsideValue (f : GateFn) (x : Nat) (above : Bool) : Nat :=
  match f with
  | .sigmoid => if above then 0x3F800000 else 0
  | .tanh => if above then 0x3F800000 else 0xBF800000
  | _ => if above then x else 0

/-- EXP on the reduced argument (R87). -/
def coarseExp (neg : Bool) (m : Nat) (e : Int) (x : Nat) : Nat :=
  if aboveCenti neg m e 8872 then 0x7F800000
  else if belowCenti neg m e (-10397) then 0
  else match f32 (f32Mul x 0x3FB8AA3B) with
    | .fin zn zm ze =>
      let (n, d) := sixteenths zn zm ze
      let k := n / (16 * d)
      f32Scale (curveAt (curveOf .exp) (n - k * 16 * d) d) k
    | _ => canonNan

/-- RECIP and RSQRT on the mantissa (R87), for a finite nonzero magnitude m × 2^e. -/
def coarseRecip (neg : Bool) (m : Nat) (e : Int) : Nat :=
  let l : Int := m.log2
  let (n, d) := sixteenths false m (-l)
  let p := f32Scale (curveAt (curveOf .recip) n d) (-(e + l))
  if neg then f32Neg p else p

def coarseRsqrt (m : Nat) (e : Int) : Nat :=
  let k := (e + (m.log2 : Int)) / 2
  let (n, d) := sixteenths false m (e - 2 * k)
  f32Scale (curveAt (curveOf .rsqrt) n d) (-k)

/-- A curved function in COARSE mode (R86, R87). -/
def coarseGate (f : GateFn) (x : Nat) : Nat :=
  match f, f32 x with
  | _, .nan => canonNan
  | .recip, .inf neg => if neg then 0x80000000 else 0
  | .recip, .fin neg m e => if m = 0 then (if neg then 0xFF800000 else 0x7F800000) else coarseRecip neg m e
  | .rsqrt, .inf neg => if neg then canonNan else 0
  | .rsqrt, .fin neg m e =>
    if m = 0 then (if neg then 0xFF800000 else 0x7F800000) else if neg then canonNan else coarseRsqrt m e
  | .exp, .inf neg => if neg then 0 else 0x7F800000
  | .exp, .fin neg m e => coarseExp neg m e x
  | f, .inf neg => outsideValue f x (!neg)
  | f, .fin neg m e =>
    let c := curveOf f
    let (n, d) := sixteenths neg m e
    if n < c.a * d then outsideValue f x false
    else if (c.a + 16 * c.h) * d ≤ n then outsideValue f x true
    else curveAt c n d

/-- The exact value of a curved function at a finite argument, rounded to BF16 (R86). -/
def exactBf16 (f : GateFn) (neg : Bool) (m : Nat) (e : Int) : Nat :=
  let x := fxOf neg m e
  match f with
  | .gelu => fxBf16 neg (fxGelu x)
  | .silu => fxBf16 neg (fxMul x (fxSigmoid x))
  | .sigmoid => fxBf16 false (if x ≤ -(128 * fxOne : Int) then 0 else fxSigmoid x)
  | .tanh => fxBf16 neg (fxTanh x)
  | .exp => fxBf16 false (fxExp x)
  | .softplus => fxBf16 false (fxSoftplus x)
  | .recip => roundRat .bf16 false neg 1 m (-e)
  | _ => fxBf16 false (fxRsqrt m e)
/-- A result of an engine, taken as it is where it meets the limit of R86, and the exact value otherwise. -/
def nearExact (f : GateFn) (x : Nat) (neg : Bool) (m : Nat) (e : Int) : Nat :=
  let r := (Config.preciseGate f.code (BitVec.ofNat 32 x)).toNat
  let b := exactBf16 f neg m e
  if withinUlps r b then r else b * 65536
/-- A curved function in PRECISE mode: the exact results the manual gives, and otherwise a free value within 2 ulp of BF16 of the exact
value (R86; log 7). -/
def preciseGate (f : GateFn) (x : Nat) : Nat :=
  match f, f32 x with
  | _, .nan => canonNan
  | .recip, .inf neg => if neg then 0x80000000 else 0
  | .recip, .fin neg 0 _ => if neg then 0xFF800000 else 0x7F800000
  | .rsqrt, .inf neg => if neg then canonNan else 0
  | .rsqrt, .fin neg 0 _ => if neg then 0xFF800000 else 0x7F800000
  | .rsqrt, .fin true _ _ => canonNan
  | .gelu, .inf neg | .silu, .inf neg => if neg then 0x80000000 else 0x7F800000
  | .sigmoid, .inf neg => if neg then 0 else 0x3F800000
  | .softplus, .inf neg | .exp, .inf neg => if neg then 0 else 0x7F800000
  | .tanh, .inf neg => if neg then 0xBF800000 else 0x3F800000
  | .exp, .fin neg m e =>
    if aboveCenti neg m e 8872 then 0x7F800000
    else if belowCenti neg m e (-10397) then 0
    else nearExact .exp x neg m e
  | f, .fin neg m e => nearExact f x neg m e
  | _, _ => canonNan

/-- Good CLAMP bounds (R85). -/
def clampGood (lo hi : Nat) : Bool := !(f32IsNan lo) && !(f32IsNan hi) && !(f32Lt hi lo)

/-- FUNC applied to an FP32 pattern (R85, R86). A CLAMP with bad bounds gives the canonical NaN. -/
def gateApply (f : GateFn) (precise : Bool) (pa pb x : Nat) : Nat :=
  if f32IsNan x then canonNan else
  match f with
  | .identity => x
  | .relu => f32Max 0 x
  | .leakyRelu => if bit x 31 then f32Mul pa x else x
  | .clamp => if clampGood pa pb then f32Min (f32Max x pa) pb else canonNan
  | f => if precise then preciseGate f x else coarseGate f x

end Sys2Proof.Machine
end

