-- ==== Sys2Proof/Machine/ReduceOps.lean ====
section
/-! DEFINITION. The memory-side adders and the isle-store reduce unit (R157 to R160; 07, Table 4). -/

namespace Sys2Proof.Machine

/-- Size of a lane of a contribution: FP32, BF16, INT32, INT64 (12, Table 3; 07, Table 4). -/
def laneSize (fmt : Nat) : Nat := if fmt = 1 then 2 else if fmt = 3 then 8 else 4
def laneFloat (fmt : Nat) : Bool := decide (fmt < 2)

/-- A stored value widened to the accumulation type. -/
def laneWiden (fmt v : Nat) : Nat := if fmt = 1 then v * 65536 else v
/-- One addition: FP32 rounded to nearest even (R73), or modulo 2^32 or 2^64. -/
def laneAdd (fmt acc x : Nat) : Nat :=
  if laneFloat fmt then f32Add acc (laneWiden fmt x) else (acc + x) % 2 ^ (8 * laneSize fmt)
/-- The accumulated value converted once to the line's format. -/
def laneWrite (fmt acc : Nat) : Nat := if fmt = 1 then Fmt.encode .bf16 false (f32 acc) else acc

/-- Slots added in ascending order: ordered mode of a float format. -/
def OpenLine.ordered (l : OpenLine) : Bool := !l.unordered && laneFloat l.fmt

/-- Lane numbers that a contribution names. -/
def laneNames (c : Contribution) : List Nat :=
  (List.range (64 / laneSize c.fmt.toNat)).filter fun n => bit c.lanes.toNat n

/-- Add a contribution to an entry: prior value first, then what names the lane. -/
def OpenLine.add (l : OpenLine) (c : Contribution) : OpenLine :=
  let z := laneSize l.fmt
  { l with
    next := c.slot.toNat + 1
    added := l.added ++ [c.slot.toNat]
    adds := l.adds ++ [c]
    lanes := (laneNames c).foldl (fun t n =>
      t.put n (laneAdd l.fmt (t.get (laneWiden l.fmt (fieldAt l.prior (n * z) z)) n) ((c.data.getD n 0).toNat % 2 ^ (8 * z)))) l.lanes }

/-- The entry with another prior value of the line, to which its contributions are added again: an atomic to the line is applied before them
(R161; DEDUCED, log 165). -/
def OpenLine.rebase (l : OpenLine) (prior : List Byte) : OpenLine :=
  l.adds.foldl OpenLine.add { l with prior := prior, added := [], lanes := {}, adds := [] }
/-- Adder of a target: isle × 3 + class. -/
def adderKey (isle cls : Nat) : Nat := isle * 3 + cls
def adderAddr (k off : Nat) : Nat := gaddr (k / 3) (k % 3) off
def srcAdder (k : Nat) : Source := if k % 3 = 2 then srcIn (k / 3) 7 0 else srcIn (k / 3) 6 (k % 3)

/-- The parked contribution for a line's next slot. -/
def AdderSt.takeParked (a : AdderSt) (off slot : Nat) : Option (Parked × AdderSt) :=
  let hit (q : Parked) : Bool := q.c.offset.toNat == off && q.c.slot.toNat == slot
  match a.park.find? hit with
  | some q => some (q, { a with park := a.park.filter fun q => !(hit q) })
  | none => none

/-- Drain parked contributions into a line until its next slot is not parked (R158). -/
def AdderSt.drainPark : Nat → AdderSt → OpenLine → AdderSt × OpenLine
  | 0, a, l => (a, l)
  | n + 1, a, l => match a.takeParked l.offset l.next with
    | some (q, a) => AdderSt.drainPark n a (l.add q.c)
    | none => (a, l)

/-- The stores of a line that closes: each named lane converted once and written, the others left (R157). -/
def OpenLine.stores (k : Nat) (l : OpenLine) : List (Nat × List Byte) :=
  let z := laneSize l.fmt
  joinStores (l.lanes.rows.map fun e => (adderAddr k l.offset + e.1 * z, leBytes z (laneWrite l.fmt e.2)))
/-- A line with all its slots is written and closed. A frame shared since it opened, or a merge into an uncorrectable unit, stops the write
and halts the job (R160, R181); `src` sent the last contribution. -/
def State.closeLine (s : State) (k : Nat) (src : Source) (l : OpenLine) : State :=
  let s := s.updAdder k fun a => { a with lines := a.lines.drop l.offset }
  match s.storesFault (l.stores k) with
  | some f => s.accessFault l.ctx src f noPlace noPlace
  | none => s.storeAll (l.stores k)

/-- REDUCE_SLOT_ERROR: line address, slot, SLOTS held and SLOTS received (R160). -/
def State.slotError (s : State) (k c : Nat) (x : Contribution) (held : Nat) : State :=
  (s.emit 0x350 3 (srcAdder k) (some c) [adderAddr k x.offset.toNat, x.slot.toNat, held, x.slots.toNat]).haltJob c 0x350

/-- A contribution is returned to its sender; the first return of a run raises REDUCE_PARK_FULL (R158, R159). -/
def State.returnContribution (s : State) (k c : Nat) (src : Source) (x : Contribution) : State :=
  let s := s.updAdder k fun a => { a with returned := a.returned ++ [⟨c, src, x⟩], retries := satAdd 32 a.retries 1 }
  match s.activeRun c with
  | some r => if r.parkFull then s
    else (s.updRun c fun r => { r with parkFull := true }).emit 0x351 2 (srcAdder k) (some c) [k / 3, k % 3, c]
  | none => s
/-- Add a contribution to its open line, with what is parked behind it, and close the line at its last slot. -/
def State.addToLine (s : State) (k : Nat) (src : Source) (l : OpenLine) (x : Contribution) : State :=
  let l := l.add x
  let (a, l) := if l.ordered then (s.adder k).drainPark 64 l else (s.adder k, l)
  let s := { s with adders := s.adders.put k { a with lines := a.lines.put l.offset l } }
  if l.added.length = l.slots then s.closeLine k src l else s

/-- Hold a contribution in the park buffer. -/
def State.parkContribution (s : State) (k c : Nat) (src : Source) (x : Contribution) : State :=
  s.updAdder k fun a => { a with park := a.park ++ [⟨c, src, x⟩], highWater := Nat.max a.highWater (a.park.length + 1) }

/-- An accepted contribution meets its open line. -/
def State.meetLine (s : State) (k c : Nat) (src : Source) (l : OpenLine) (x : Contribution) : State :=
  let held := (s.adder k).park.any fun q => q.c.offset == x.offset && q.c.slot == x.slot
  if x.slots.toNat ≠ l.slots || x.fmt.toNat ≠ l.fmt || x.unordered != l.unordered || decide (l.slots ≤ x.slot.toNat) ||
      l.added.contains x.slot.toNat || held then s.slotError k c x l.slots
  else if !l.ordered || x.slot.toNat = l.next then s.addToLine k src l x
  else if (s.adder k).park.length < 64 then s.parkContribution k c src x
  else s.returnContribution k c src x

/-- The entry that a first contribution opens, with the line's bytes as stored. -/
def openLine (s : State) (k c : Nat) (x : Contribution) : OpenLine :=
  { offset := x.offset.toNat, ctx := c, slots := x.slots.toNat, unordered := x.unordered, fmt := x.fmt.toNat, next := 0, added := [],
    prior := s.mem.readBytes (adderAddr k x.offset.toNat) 64, lanes := {}, adds := [] }

/-- A line opens with a first contribution that may be added or parked, where it can be read (R157). -/
def State.openFor (s : State) (k c : Nat) (src : Source) (x : Contribution) : State :=
  match s.readFault (adderAddr k x.offset.toNat) 64 with
  | some f => s.accessFault c src f noPlace noPlace
  | none => (s.updAdder k fun a => { a with lines := a.lines.put x.offset.toNat (openLine s k c x) }).meetLine k c src (openLine s k c x) x
/-- Has the adder a place for another line, and for a first contribution that is to be parked (R157, R158)? -/
def AdderSt.hasRoom (a : AdderSt) (x : Contribution) : Bool :=
  decide (a.lines.rows.length < 256) &&
    (x.unordered || !(laneFloat x.fmt.toNat) || x.slot == 0 || decide (a.park.length < 64))
/-- A contribution meets the open line of its offset, or opens one (R157, R158, R160). -/
def State.takeContribution (s : State) (k c : Nat) (src : Source) (x : Contribution) : State :=
  if s.sharedAt (adderAddr k x.offset.toNat) then s.accessFault c src (.shared (adderAddr k x.offset.toNat)) noPlace noPlace
  else match (s.adder k).lines.find? x.offset.toNat with
    | some l => s.meetLine k c src l x
    | none =>
      if x.slots.toNat ≤ x.slot.toNat then s.slotError k c x 0
      else if (s.adder k).hasRoom x then s.openFor k c src x
      else s.returnContribution k c src x

/-- A contribution of a job reaches an adder from an engine or port (R157 to R160). Contributions of a halted job are discarded. -/
def State.contribute (s : State) (k c : Nat) (src : Source) (x : Contribution) : State :=
  if (s.activeRun c).isNone then s
  else (if x.unordered && laneFloat x.fmt.toNat then s.updRun c fun r => { r with nonRepro := true } else s).takeContribution k c src x

end Sys2Proof.Machine
end

