-- ==== Sys2Proof/Machine/OxOps.lean ====
section
/-! DEFINITION. What the Ox commands share (04): operand checks, tiles, rows, the gate pipeline, disabling an engine. -/

namespace Sys2Proof.Machine

/-! ### Operands that the loader refuses (R71, R74, R77, R89, R90) -/

def strideOk (s : Nat) : Bool := decide (64 ≤ s) && decide (s ≤ 65472) && s % 64 == 0
/-- Bytes of the operand store that `n` rows reach, inside 2 MiB (R90). -/
def extentOk (off n stride row : Nat) : Bool := decide (off + (n - 1) * stride + row ≤ 0x200000)

def fmtSize (c : Nat) : Nat := match Fmt.ofCode c with
  | some f => f.size
  | none => 0
/-- Formats of a tile and of an input (04, Table 2). -/
def tileFmt (c : Nat) : Bool := decide (1 ≤ c) && decide (c ≤ 6)
/-- Formats that pair in a MATMUL (R71). -/
def fmtPair (a b : Nat) : Bool :=
  tileFmt a && tileFmt b && (a == b && (a < 4 || a == 6) || (a == 4 || a == 5) && (b == 4 || b == 5))
/-- Reduction rows of a full tile (04, Table 3). -/
def tileRows (fmt : Nat) : Nat := if fmtSize fmt = 1 then 256 else 128

/-- Check 6 of R43 for a WLOAD (R75, R90): what must not hold, with the byte of the command. -/
def wloadBad (o : WloadOps) : List (Bool × Nat) :=
  [(o.src.toNat % 64 != 0, 12), (!(tileFmt o.wfmt.toNat), 16), (o.rows == 0, 18),
   (!(strideOk o.srcStride.toNat) || decide (o.srcStride.toNat < 128 * fmtSize o.wfmt.toNat), 20)]
def wloadValid (o : WloadOps) : Bool := o.src.toNat / 2 ^ 21 == 0 && noneBad (wloadBad o)
/-- Check 8 of R43 for a WLOAD. -/
def wloadOver (o : WloadOps) : List (Bool × Nat) :=
  [(decide (tileRows o.wfmt.toNat < o.rows.toNat), 18),
   (!(extentOk o.src.toNat o.rows.toNat o.srcStride.toNat (128 * fmtSize o.wfmt.toNat)), 12)]
def wloadFits (o : WloadOps) : Bool := noneBad (wloadOver o)

def matmulBad (o : MatmulOps) : List (Bool × Nat) :=
  [(o.inAddr.toNat % 64 != 0, 12), (!(strideOk o.inStride.toNat), 16), (o.m == 0, 18), (!(tileFmt o.ifmt.toNat), 22)]
def matmulValid (o : MatmulOps) : Bool := o.inAddr.toNat / 2 ^ 21 == 0 && o.mask.toNat / 16 == 0 && noneBad (matmulBad o)
def matmulOver (o : MatmulOps) : List (Bool × Nat) :=
  [(decide (1024 < o.accRow.toNat + o.m.toNat), 20),
   (!(extentOk o.inAddr.toNat o.m.toNat o.inStride.toNat (tileRows o.ifmt.toNat * fmtSize o.ifmt.toNat)), 12)]
def matmulFits (o : MatmulOps) : Bool := noneBad (matmulOver o)

/-- Does a DRAIN read its auxiliary block (R77)? -/
def drainAux (o : DrainOps) : Bool := o.scale || o.bias || o.gateOp != 0 || o.func == 2 || o.func == 0x0B

/-- Check 3 for a DRAIN: reserved encodings, and fields that must be 0 (R77). -/
def drainReserved (o : DrainOps) : List (Bool × Nat) :=
  [(decide (3 < o.dstClass.toNat) || decide (2 < o.dstMode.toNat), 16), (decide (0x0B < o.func.toNat), 22),
   (decide (2 < o.gateOp.toNat), 23), (!(drainAux o) && o.aux != 0, 26), (o.dstMode == 0 && (o.slot != 0 || o.slots != 0), 28)]
/-- Check 6 for a DRAIN (R70, R77, R89, R90). -/
def drainBad (o : DrainOps) : List (Bool × Nat) :=
  let reduce := o.dstMode != 0
  [(reduce && decide (2 < o.dstClass.toNat), 16),
   ((Fmt.ofCode o.ofmt.toNat).isNone ||
      reduce && !(o.ofmt.toNat == 1 || o.ofmt.toNat == 2 || o.ofmt.toNat == 7 && o.dstMode == 1), 17),
   (o.rows == 0, 18), ((reduce || o.ofmt.toNat == 7) && o.func != 0, 22),
   (reduce && o.gateOp != 0 || o.ofmt.toNat == 7 && (o.scale || o.bias || o.gateOp != 0), 23), (!(strideOk o.dstStride.toNat), 24),
   (reduce && decide (o.slots.toNat ≤ o.slot.toNat), 28)]
def drainValid (o : DrainOps) : Bool := noneBad (drainReserved o) && noneBad (drainBad o)
def drainOver (o : DrainOps) : List (Bool × Nat) :=
  [(decide (1024 < o.accRow.toNat + o.rows.toNat), 20), (drainAux o && decide (0x200000 < o.aux.toNat * 64 + 576), 26)]
def drainFits (o : DrainOps) : Bool := noneBad (drainOver o)

def accloadBad (o : AccloadOps) : List (Bool × Nat) :=
  [(o.src.toNat % 64 != 0, 12), (!(strideOk o.srcStride.toNat), 16), (o.rows == 0, 18),
   (!(o.sfmt.toNat == 1 || o.sfmt.toNat == 2 || o.sfmt.toNat == 7), 22)]
def accloadValid (o : AccloadOps) : Bool := o.src.toNat / 2 ^ 21 == 0 && noneBad (accloadBad o)
def accloadOver (o : AccloadOps) : List (Bool × Nat) :=
  [(decide (1024 < o.accRow.toNat + o.rows.toNat), 20),
   (!(extentOk o.src.toNat o.rows.toNat o.srcStride.toNat (128 * fmtSize o.sfmt.toNat)), 12)]
def accloadFits (o : AccloadOps) : Bool := noneBad (accloadOver o)

def masksetBad (o : MasksetOps) : List (Bool × Nat) :=
  [(o.src.toNat % 32 != 0, 12), (beyond o.first.toNat 1 15, 16), (o.count == 0, 17)]
def masksetValid (o : MasksetOps) : Bool := o.src.toNat / 2 ^ 21 == 0 && noneBad (masksetBad o)
def masksetOver (o : MasksetOps) : List (Bool × Nat) :=
  [(decide (16 < o.first.toNat + o.count.toNat), 17), (decide (0x200000 < o.src.toNat + 32 * o.count.toNat), 12)]
def masksetFits (o : MasksetOps) : Bool := noneBad (masksetOver o)

/-! ### Values -/

/-- `n` values of `z` bytes from byte `a` of memory. -/
def State.readVals (s : State) (a n z : Nat) : List Nat := (List.range n).map fun i => s.mem.readLe (a + i * z) z

def allOnes128 : Nat := 2 ^ 128 - 1
/-- Mask entry of an engine; entry 0 is all ones (R79). -/
def EngineSt.mask (e : EngineSt) (n : Nat) : MaskEntry := if n = 0 then ⟨allOnes128, allOnes128⟩ else e.masks.get {} n
/-- The engine performs this command of the context's run, in flight on it, outside its BG_WINDOWs (R31, R42, R49). -/
def State.engineRuns (s : State) (c e : Nat) (op : PlanOp) : Bool :=
  (s.engineOp c 1 (e / 4) (e % 4) op).isSome && (s.engine e).state != .disabled && !(s.inWindow (windowKey (e / 4) 1 (e % 4)))

/-- Row `k` is masked where bit k, or bit k/2 for 8-bit formats, is 0 (R80). -/
def rowBit (fmt mask k : Nat) : Bool := bit mask (if fmtSize fmt = 1 then k / 2 else k)

def fmtValue (c v : Nat) : Fp := match Fmt.ofCode c with
  | some f => f.decode v
  | none => .nan

/-- One lane of one row of a MATMUL (R72, R73, R80): the new lane and whether an INT32 sum wrapped. -/
def matmulLane (ifmt : Nat) (t : Tile) (mask n prior : Nat) (x : List Nat) : Nat × Bool :=
  let ks := List.range (tileRows ifmt)
  if ifmt = 6 then
    let sum := ks.foldl (fun acc k => if rowBit ifmt mask k then
      acc + toInt 8 (x.getD k 0) * toInt 8 ((t.weights.getD k []).getD n 0) else acc) (toInt 32 prior)
    (ofInt 32 sum, toInt 32 (ofInt 32 sum) != sum)
  else
    let ts := ks.map fun k => if rowBit ifmt mask k then
      (fmtValue ifmt (x.getD k 0)).mul (fmtValue t.fmt ((t.weights.getD k []).getD n 0)) else .fin false 0 0
    (toF32 (exactSum (f32 prior :: ts)), false)

/-- One row of a MATMUL: the new accumulator row and its wraps. Lanes and rows that no command has written hold zeros (DESIGN CHOICE, log 163). -/
def matmulRow (ifmt : Nat) (t : Tile) (m : MaskEntry) (acc : Bool) (old : AccRow) (x : List Nat) : AccRow × Nat :=
  let lanes := (List.range 128).map fun n =>
    if bit m.col n then matmulLane ifmt t m.row n (if acc then old.lanes.getD n 0 else 0) x else (old.lanes.getD n 0, false)
  (⟨ifmt == 6, lanes.map (·.1)⟩, (lanes.filter (·.2)).length)

/-! ### The gate pipeline (R84; 04, Table 8) -/

/-- What a DRAIN takes from its auxiliary block; all zero where it reads none. -/
structure AuxBlock where
  scale : Nat := 0
  pa : Nat := 0
  pb : Nat := 0
  gateSrc : Nat := 0
  gateStride : Nat := 0
  gateFmt : Nat := 0
  bias : List Nat := []
deriving DecidableEq, Repr

def State.auxBlock (s : State) (e : Nat) (o : DrainOps) : AuxBlock :=
  let a := operandAddr e (o.aux.toNat * 64)
  if drainAux o then
    { scale := s.mem.readLe a 4, pa := s.mem.readLe (a + 4) 4, pb := s.mem.readLe (a + 8) 4, gateSrc := s.mem.readLe (a + 12) 4,
      gateStride := s.mem.readLe (a + 16) 2, gateFmt := s.mem.readLe (a + 18) 1,
      bias := if o.bias then s.readVals (a + 64) 128 4 else [] }
  else {}

/-- The gate rows of a DRAIN are as Table 8 allows. The manual states no effect of a block that breaks it; the elements are then free
values, which the block, the row and the lane decide (R16; log 25). -/
def AuxBlock.gateOk (x : AuxBlock) (rows : Nat) : Bool :=
  (x.gateFmt == 1 || x.gateFmt == 2 || x.gateFmt == 3) && x.gateSrc % 64 == 0 && strideOk x.gateStride &&
    extentOk x.gateSrc rows x.gateStride (128 * fmtSize x.gateFmt)

/-- A free FP32 pattern that the numbers of `l` decide. -/
def freeLow (l : List Nat) : Nat := (Config.freeOf l).toNat % 2 ^ 32
/-- Gate elements of row `r`, as FP32 (R84 step 5), read when the row is drained: a DRAIN into its own gate rows reads what its earlier rows
wrote there (DESIGN CHOICE, log 166). -/
def State.gateRow (s : State) (e : Nat) (o : DrainOps) (x : AuxBlock) (r : Nat) : List Nat :=
  if o.gateOp = 0 then []
  else if x.gateOk o.rows.toNat then
    (s.readVals (operandAddr e (x.gateSrc + r * x.gateStride)) 128 (fmtSize x.gateFmt)).map fun v => toF32 (fmtValue x.gateFmt v)
  else (List.range 128).map fun n => freeLow [1, x.gateSrc, x.gateStride, x.gateFmt, r, n]

/-- Steps 1 to 6 of R84 on one lane. -/
def gateLane (o : DrainOps) (x : AuxBlock) (isInt : Bool) (acc n g : Nat) : Nat :=
  if o.ofmt.toNat = 7 then acc else
  let v := if isInt then toF32 (Fmt.decode .int32 acc) else acc
  let v := if o.scale then f32Mul v x.scale else v
  let v := if o.bias then f32Add v (x.bias.getD n 0) else v
  let v := match GateFn.ofCode o.func.toNat with
    | some f => gateApply f o.precise x.pa x.pb v
    | none => v
  let v := if o.gateOp = 1 then f32Mul v g else if o.gateOp = 2 then f32Add v g else v
  match Fmt.ofCode o.ofmt.toNat with
  | some f => f.encode o.satFinite (f32 v)
  | none => 0

def gateRowOut (o : DrainOps) (x : AuxBlock) (row : AccRow) (g : List Nat) : List Nat :=
  (List.range 128).map fun n => gateLane o x row.isInt (row.lanes.getD n 0) n (g.getD n 0)

/-! ### Writing a row -/

/-- The stores of a row of `z`-byte lanes at `a`: the runs of its written lanes. -/
def rowStores (a z col : Nat) (vals : List Nat) : List (Nat × List Byte) :=
  joinStores (((List.range 128).filter (bit col)).map fun n => (a + n * z, leBytes z (vals.getD n 0)))

/-- Stores of an engine in turn; the first that is not performed halts the job and ends them (R141, R181). -/
def State.performStores (s : State) (c : Nat) (src : Source) : List (Nat × List Byte) → State × Bool
  | [] => (s, true)
  | (a, bs) :: r => match s.writeFault a bs.length with
    | some f => (s.accessFault c src f noPlace noPlace, false)
    | none => (s.storeBytes a bs).performStores c src r

/-- Contribution format of an output format (R89). -/
def contributionFmt (ofmt : Nat) : Nat := if ofmt = 1 then 0 else if ofmt = 2 then 1 else 2

/-- The contributions of a row: one for each 64-byte group with a written lane (R89). -/
def rowContributions (o : DrainOps) (off col : Nat) (vals : List Nat) : List Contribution :=
  let z := fmtSize o.ofmt.toNat
  let per := 64 / z
  (List.range (128 / per)).filterMap fun u =>
    let lanes := bits col (u * per + per - 1) (u * per)
    if lanes = 0 then none else some
      { offset := BitVec.ofNat 48 (off + u * 64), slot := o.slot, slots := o.slots, unordered := o.dstMode == 2,
        fmt := BitVec.ofNat 2 (contributionFmt o.ofmt.toNat), lanes := BitVec.ofNat 32 lanes,
        data := (List.range per).map fun n => BitVec.ofNat 64 (vals.getD (u * per + n) 0) }

/-- The destination of a DRAIN lies in its target class (R60). -/
def drainInside (o : DrainOps) : Bool :=
  decide (o.dst.toNat * 64 + (o.rows.toNat - 1) * o.dstStride.toNat + 128 * fmtSize o.ofmt.toNat ≤ classLimit o.dstClass.toNat)

/-- Row `r` of a DRAIN (R77). -/
def State.drainRow (s : State) (c e : Nat) (o : DrainOps) (x : AuxBlock) (col r : Nat) : State × Bool :=
  let z := fmtSize o.ofmt.toNat
  let off := o.dst.toNat * 64 + r * o.dstStride.toNat
  let row := (s.engine e).acc.get {} (o.accRow.toNat + r)
  let g := if o.gateOp != 0 && x.gateOk o.rows.toNat then
      s.readFault (operandAddr e (x.gateSrc + r * x.gateStride)) (128 * fmtSize x.gateFmt) else none
  match g with
  | some f => (s.accessFault c (srcOx e) f noPlace noPlace, false)
  | none =>
    let vals := gateRowOut o x row (s.gateRow e o x r)
    if o.dstMode = 0 then s.performStores c (srcOx e) (rowStores (gaddr (e / 4) o.dstClass.toNat off) z col vals)
    else ((rowContributions o off col vals).foldl (fun s q => s.contribute (adderKey (e / 4) o.dstClass.toNat) c (srcOx e) q) s, true)

/-! ### Disabling (R93; 04, Table 12) -/

/-- The commands in flight on the engine of a disabled unit never complete: they leave the strand without a signal (log 26). -/
def State.dropInFlight (s : State) (isle cls inst : Nat) : State :=
  s.loaded.foldl (fun s cp => s.updRun cp.1 fun r =>
    ((List.range cp.2.strands.length).zip cp.2.strands).foldl (fun r ns =>
      if ns.2.isle = isle && ns.2.cls = cls && ns.2.inst = inst then
        { r with strands := r.strands.upd {} ns.1 fun x => { x with completed := x.started } } else r) r) s

/-- An Ox engine leaves the healthy mask; jobs that lease it halt (R93). -/
def State.disableOx (s : State) (e cause : Nat) : State :=
  let s := s.updEngine e fun x => { x with state := .disabled, suspect := none }
  let s := s.updIsle (e / 4) fun x => { x with ox := BitVec.ofNat 4 (clearBit x.ox.toNat (e % 4)) }
  let s := (s.countDisable (e / 4) (e % 4)).emit 0x242 3 (srcOx e) none [e / 4, e % 4, cause]
  ((s.haltWhere 0x242 fun _ p => p.hasOx e).dropInFlight (e / 4) 1 (e % 4)).refresh

/-- No loaded plan holds the engine. -/
def State.oxUnheld (s : State) (e : Nat) : Bool := !(s.loaded.any fun cp => cp.2.hasOx e)

/-- The job, if any, with a command of this opcode in flight on an engine: its context. -/
def State.inFlightOn (s : State) (isle cls inst : Nat) (ok : Cmd → Bool) : Option Nat :=
  (s.loaded.find? fun cp => match s.activeRun cp.1 with
    | none => false
    | some r => ((List.range cp.2.strands.length).zip cp.2.strands).any fun ns =>
        ns.2.isle == isle && ns.2.cls == cls && ns.2.inst == inst &&
          (let x := r.strand ns.1
           (List.range (x.started - x.completed)).any fun k => match ns.2.cmds[x.completed + k]? with
             | some cmd => ok cmd
             | none => false)).map (·.1)

end Sys2Proof.Machine
end

