-- ==== Sys2Proof/Machine/BantamOps.lean ====
section
/-! DEFINITION. What the Bantam instructions share (05): registers and lanes, retiring, exceptions and traps, global accesses. -/

namespace Sys2Proof.Machine

/-! ### Registers and lanes -/

/-- g0 reads 0; p0 reads all ones (05, Table 1). -/
def CoreSt.greg (x : CoreSt) (r : Nat) : Word := if r = 0 then 0 else x.g.get 0 r
def CoreSt.vreg (x : CoreSt) (r : Nat) : BitVec 512 := x.v.get 0 r
def CoreSt.preg (x : CoreSt) (r : Nat) : Word := if r = 0 then BitVec.allOnes 64 else x.p.get 0 r
/-- Writes to g0 and p0 are discarded. -/
def CoreSt.setG (x : CoreSt) (r : Nat) (v : Word) : CoreSt := if r = 0 then x else { x with g := x.g.put r v }
def CoreSt.setV (x : CoreSt) (r : Nat) (v : BitVec 512) : CoreSt := { x with v := x.v.put r v }
def CoreSt.setP (x : CoreSt) (r : Nat) (v : Word) : CoreSt := if r = 0 then x else { x with p := x.p.put r v }

/-- STATUS[0]: kernel mode (R95). -/
def CoreSt.kernel (x : CoreSt) : Bool := x.status &&& 1 == 1

/-- Lane width in bits of an ETYPE (R113). -/
def laneBits (et : Nat) : Nat := match et with
  | 0 => 8 | 1 => 16 | 2 => 32 | 3 => 64 | 4 => 32 | _ => 16
def laneCount (et : Nat) : Nat := 512 / laneBits et
def isFloat (et : Nat) : Bool := decide (4 ≤ et)
/-- Format of a float ETYPE. -/
def floatFmt (et : Nat) : Fmt := if et = 5 then .bf16 else if et = 6 then .fp16 else .fp32

def vlane (v : BitVec 512) (w i : Nat) : Nat := v.toNat / 2 ^ (w * i) % 2 ^ w
def vlanes (v : BitVec 512) (w : Nat) : List Nat := (List.range (512 / w)).map (vlane v w)
def ofLanes (w : Nat) (l : List Nat) : BitVec 512 := BitVec.ofNat 512 (l.foldr (fun x acc => x % 2 ^ w + 2 ^ w * acc) 0)

/-! ### Retiring (R95, R99, R116, R123) -/

/-- What an instruction does: retires with its next pc and its beats; holds, where `counts` says that the wait is not solely for responses
of HBM or of other units; ends without retiring; or raises an exception. `kind` says which budget a BUDGET exception names: 0 beats, 1 HBM,
2 Strait. -/
inductive Retire where
  | go (s : State) (pc beats : Nat)
  | hold (counts : Bool)
  | stop (s : State)
  | exc (cause addr : Nat) (f : Option AccessFault) (kind : Nat)

/-- Exception without a memory fault. -/
def raise (cause addr : Nat) : Retire := .exc cause addr none 0
/-- Hold until some of these accesses complete (R99). -/
def holdOn (l : List OpenAccess) : Retire := .hold (l.any (!·.clocked))

/-- The highest-numbered healthy core of an isle (R121). -/
def housekeeperOf (mask : Nat) : Option Nat := (List.range 16).reverse.find? (bit mask)

/-- Core `n` takes the housekeeping of an isle, with HOUSEKEEPING_MOVED where it did not hold it (R121). -/
def State.moveHousekeeper (s : State) (i n : Nat) : State :=
  let old := (s.bant i).housekeeper
  if old = n then s else (s.updBant i fun x => { x with housekeeper := n }).emit 0x253 1 (srcIn i 1 0) none [i, old, n]
/-- A core leaves the healthy mask, its jobs halt, and the housekeeper moves where it was this core (R121, R124). -/
def State.disableCore (s : State) (k cause : Nat) : State :=
  let i := k / 16
  let s := s.updCore k fun x => { x with disabled := true }
  let s := (s.updIsle i fun x => { x with bantam := BitVec.ofNat 16 (clearBit x.bantam.toNat (k % 16)) }).countDisable i (16 + k % 16)
  let s := s.emit 0x251 3 (srcCore k) none [i, k % 16, cause]
  let s := (s.haltWhere 0x251 fun _ p => p.hasCore k).dropInFlight i 2 (k % 16)
  (s.moveHousekeeper i ((housekeeperOf (s.isle i).bantam.toNat).getD (s.bant i).housekeeper)).refresh

/-- A core after its reset: keeper mode at instruction-store offset 0 with CAUSE POWER_ON (R95; 05, Table 13). -/
def resetCore (x : CoreSt) : CoreSt := { ({} : CoreSt) with cause := 0x0C, lastDouble := x.lastDouble, disabled := x.disabled }

/-- A double fault: the Holm resets the core; a second one within 1 s disables it (R117; 05, Table 6). -/
def State.doubleFault (s : State) (k cause : Nat) : State :=
  let x := s.core k
  let s := s.emit 0x250 3 (srcCore k) none [k / 16, k % 16, cause, x.pc.toNat]
  let again := match x.lastDouble with
    | some t => decide (s.nsSince t ≤ 1000000000)
    | none => false
  let s := s.updCore k fun x => { resetCore x with lastDouble := some s.clock.ticks }
  if again then s.disableCore k 0x250 else s

/-- Trap entry (R117): EPC holds `epc`; the handler's address is the trap table's word for CAUSE. -/
def State.trapEntry (s : State) (k cause addr epc : Nat) : State :=
  let x := s.core k
  let entry := s.mem.readLe (coreAddr k (0x10000 + x.trapTab.toNat + cause * 4)) 4
  if entry % 4 ≠ 0 || 0xFFC < entry then s.doubleFault k cause
  else s.updCore k fun x => { x with
    cause := BitVec.ofNat 64 cause, epc := BitVec.ofNat 64 epc, trapAddr := BitVec.ofNat 64 addr, saved := x.status,
    status := (x.status &&& ~~~2) ||| 4, pc := BitVec.ofNat 64 entry }

/-- Code that a kernel-mode exception reports and halts with (05, Table 13). -/
def exceptionCode (cause : Nat) (f : Option AccessFault) : Nat := match f with
  | some f => f.code
  | none => if cause = 4 then 0x624 else if cause = 6 then 0x623 else if cause = 0x0A then 0x429 else 0x626

/-- The report of a kernel-mode exception (R116): CAUSE, EPC, TRAP_ADDR, isle and core are in every payload, after the values of a memory
event's own chapter (log 167). -/
def State.reportException (s : State) (k c cause pc addr : Nat) (f : Option AccessFault) (kind : Nat) : State :=
  match f with
  | some f => s.raiseAccess c (srcCore k) f noPlace noPlace [cause, pc, addr, k / 16, k % 16]
  | none =>
    let vals := [k / 16, k % 16, cause, pc, addr, c]
    s.emit (exceptionCode cause none) 3 (srcCore k) (some c) (if cause = 6 then vals ++ [kind] else vals)

/-- The kernel of a core ends, and its implicit fence of scope 3 opens (R98). -/
def State.endKernel (s : State) (k : Nat) : State :=
  let x := s.core k
  let s := s.updCore k (·.toDrain)
  match x.job with
  | some c => match (s.ctx c).run with
    | some r => s.sendFences c r.number
    | none => s
  | none => s

/-- What a kernel-mode exception of a core does to its isle's counts and to its job (R116). -/
def State.kernelFault (s : State) (k c cause pc addr : Nat) (f : Option AccessFault) (kind : Nat) : State :=
  let s := s.reportException k c cause pc addr f kind
  let s := s.updBant (k / 16) fun b => { b with
    exceptions := satAdd 32 b.exceptions 1, lastCause := BitVec.ofNat 64 cause, lastEpc := BitVec.ofNat 64 pc,
    lastAddr := BitVec.ofNat 64 addr }
  s.haltJob c (exceptionCode cause f)
/-- An exception: in kernel mode the job halts and the core returns to keeper mode (R116); in keeper mode a trap, or a double fault
while IN_TRAP (R117). -/
def State.exception (s : State) (k cause addr : Nat) (f : Option AccessFault) (kind : Nat) : State :=
  let x := s.core k
  if x.kernel then (s.kernelFault k (x.job.getD 0) cause x.pc.toNat addr f kind).endKernel k
  else if bit x.status.toNat 2 then s.doubleFault k cause
  else s.trapEntry k cause addr x.pc.toNat

/-- The lowest wake source that keeper mode accepts as a trap (R117). -/
def CoreSt.wakeTrap (x : CoreSt) : Option Nat :=
  if x.kernel || !(bit x.status.toNat 1) || bit x.status.toNat 2 then none
  else lowestBit (x.wakeMask &&& x.wakeCause).toNat 5

/-- The core executes instructions: it is in service, awake, and waits for no remote data. -/
def CoreSt.runs (x : CoreSt) : Bool := !x.disabled && x.power == .run && !x.waiting

/-- The fetch at PC faults (05, Table 13, FETCH_FAULT). -/
def State.fetchFault (s : State) (k : Nat) (x : CoreSt) : Bool :=
  x.pc.toNat % 4 != 0 || decide (0xFFFC < x.pc.toNat) || (x.kernel && decide (x.pc.toNat < 0x1000)) ||
    (s.badIn (coreAddr k x.pc.toNat) 4).isSome

/-- The instruction that the word at the core's PC spells (R113, R115). -/
def State.fetched (s : State) (c : CoreId) : Option Instr := decodeBantam c (s.mem.readLe (coreAddr c.key (s.core c.key).pc.toNat) 4)
/-- One instruction of a core (R95, R99, R113 to R117, R123): a command `i` takes effect where the word at PC spells it (log 168). A word
that spells no instruction is illegal. Beats past the budget raise BUDGET after the instruction's own exception; an attempt at an
instruction that holds counts one beat where BEATS does not stop. -/
def State.instr (s : State) (i : Instr) (c : CoreId) (body : State → CoreSt → Retire) : Host.Outcome State Fault Refusal :=
  let k := c.key
  let x := s.core k
  if !x.runs then .next s
  else match x.wakeTrap with
  | some n => .next (s.trapEntry k (0x80 + n) 0 x.pc.toNat)
  | none =>
    if s.fetchFault k x then .next (s.exception k 0x0B x.pc.toNat none 0)
    else if s.fetched c = none then .next (s.exception k 1 x.pc.toNat none 0)
    else if s.fetched c ≠ some i then .next s
    else match body s x with
    | .hold counts =>
      if !(x.kernel && counts) then .next s
      else if x.budget ≤ x.beats then .next (s.exception k 6 x.pc.toNat none 0)
      else .next (s.updCore k fun y => { y with beats := y.beats + 1 })
    | .stop t => .next t
    | .exc cause addr f kind => .next (s.exception k cause addr f kind)
    | .go t pc beats =>
      if x.kernel && decide (x.budget < x.beats + beats) then .next (s.exception k 6 x.pc.toNat none 0)
      else .next (t.updCore k fun y => { y with
        pc := BitVec.ofNat 64 pc, beats := if x.kernel then y.beats + beats else y.beats })

/-- An instruction that changes only the core's registers. -/
def State.regInstr (s : State) (i : Instr) (c : CoreId) (legal : Bool) (beats : Nat) (f : CoreSt → CoreSt) :
    Host.Outcome State Fault Refusal :=
  s.instr i c fun s x => if legal then .go (s.updCore c.key f) (x.pc.toNat + 4) beats else raise 1 x.pc.toNat

/-! ### Global accesses (R100, R102, R154) -/

/-- Is the isle-store step of an address of class 0x2 in the address map: a scratch step that is not disabled (R149, R168)? -/
def State.stepMapped (s : State) (a : Nat) : Bool :=
  decide (offOf a / 0x400000 < s.obj (0x3080 + isleOf a) 0) && !(bit (s.isleStore (isleOf a)).disabledSteps.toNat (offOf a / 0x400000))
/-- The job context in the owner register of an HBM address's pseudo-channel (R154). -/
def State.ownerOf (s : State) (a : Nat) : Option Nat := s.pcOwner.find? (isleOf a * 64 + pcOf a)
/-- May a kernel of context `c` and of its plan access this address of its own unit (R60, R94, R100, R154, R301)? -/
def State.leasedAccess (s : State) (c : Nat) (p : Plan) (a : Nat) : Bool :=
  if classOf a < 2 then p.hasMem a && s.ownerOf a == some c
  else if classOf a = 2 then p.hasMem a && s.stepMapped a
  else if classOf a = 3 then decide (offOf a < classLimit 3) && s.pages.find? (isleOf a * 128 + offOf a / 65536) == some c
  else decide (classOf a = 4) && decide (offOf a < classLimit 4) && p.hasCore (isleOf a * 16 + offOf a / 2 ^ 18) &&
    decide (0x10000 ≤ offOf a % 2 ^ 18) && decide (offOf a % 2 ^ 18 < 0x3F000)

/-- May the core access this address of its own unit? In keeper mode it has no job context, so that it reaches no pseudo-channel that has
an owner (R154; log 169). -/
def State.mayAccess (s : State) (x : CoreSt) (a : Nat) : Bool :=
  if x.kernel then match x.job with
    | some c => match (s.ctx c).plan with
      | some p => s.leasedAccess c p a
      | none => false
    | none => false
  else decide (offOf a < classLimit (classOf a)) &&
    (if classOf a < 2 then (s.ownerOf a).isNone else classOf a != 2 || s.stepMapped a)

def State.jobTable (s : State) (x : CoreSt) : ShapeTable := match x.job with
  | some c => match (s.ctx c).plan with
    | some p => s.tableOf p.header.epoch
    | none => s.shape.cur
  | none => s.shape.cur

/-- 48 beats for each Sound hop between the core's isle and the target (R115). -/
def State.hopBeats (s : State) (k : Nat) (x : CoreSt) (isle : Nat) : Nat := ((hops (s.jobTable x) (k / 16) isle).getD 0) * 48

/-- Lines that the ways owned by a job in an isle hold: each cache step that is not disabled gives each way 4,096 of them (R149, R154, R155,
R168). -/
def State.cacheRoom (s : State) (c isle : Nat) : Nat :=
  ((List.range 16).filter fun w => s.wayOwner.find? (isle * 16 + w) == some c).length *
    (((List.range 16).filter fun n => decide (s.obj (0x3080 + isle) 0 ≤ n) && !(bit (s.isleStore isle).disabledSteps.toNat n)).length * 4096)
/-- A load allocates its line in the ways of the job that owns the pseudo-channel, or makes it the most recently used (R155; fully
associative per job, log 46). -/
def State.cacheLoad (s : State) (a : Nat) : State :=
  match if classOf a < 2 then s.ownerOf a else none with
  | none => s
  | some c =>
    let i := isleOf a
    let room := s.cacheRoom c i
    if room = 0 then s else
    let line : CacheLine := ⟨a / 64 * 64, c⟩
    let others := (s.caches.get [] i).filter (· != line)
    let mine := (others.filter (·.job == c)).take (room - 1)
    { s with caches := s.caches.put i (line :: (mine ++ others.filter (·.job != c))) }

/-- Outcome of checking a global access. -/
inductive Access where
  | here (s : State) (a beats : Nat)
  | away (port : Nat) (w : WindowOps)
  | no (r : Retire)

/-- FENCE scope of an access to an isle. -/
def scopeOf (k isle : Nat) : Nat := if isle = k / 16 then 1 else 2

def faultCause : AccessFault → Nat
  | .shared _ => 9
  | .uncorrectable _ => 5
  | .refused _ => 4
/-- Exception of a memory fault. -/
def accessExc (a : Nat) (f : AccessFault) : Retire := .exc (faultCause f) a (some f) 0
/-- A global access of `n` bytes at `a`, whose width is `al` (R99, R100, R102, R113): where it goes, or why it is not performed. `fault` is
what the memory at a place of this unit would answer; it is reported before a passed budget (R123). -/
def State.access (s : State) (k : Nat) (x : CoreSt) (a al n : Nat) (kind : TxKind) (fault : Nat → Option AccessFault) : Access :=
  if a % al ≠ 0 then .no (raise 3 a)
  else if unitOf a ≠ s.unitNo then
    match x.job.bind fun c => (s.ctx c).plan.bind fun p => if x.kernel then p.importFor kind a al else none with
    | none => .no (raise 4 a)
    | some (port, w) =>
      if !x.straitOn || x.straitLeft < n then .no (.exc 6 a none 2)
      else if 8 ≤ x.accesses.length then .no (holdOn x.accesses) else .away port w
  else
    let l := localOf a
    if !(s.mayAccess x l) then .no (raise 4 a)
    else match fault l with
    | some f => .no (accessExc a f)
    | none =>
    if classOf l < 2 && x.kernel && (!x.hbmOn || x.hbmLeft < n) then .no (.exc 6 a none 1)
    else if 8 ≤ x.accesses.length then .no (holdOn x.accesses)
    else
      let (t, ok) := s.crossRoute (x.job.getD 64) (k / 16) (isleOf l) 0 none
      if ok then .here (t.updCore k fun y => { y with
          outstanding := y.outstanding ++ [⟨scopeOf k (isleOf l), decide (classOf l < 2)⟩]
          hbmLeft := if classOf l < 2 && x.kernel then y.hbmLeft - n else y.hbmLeft }) l (s.hopBeats k x (isleOf l))
      else .no (.stop t)

/-- A request to another unit (R260): its epoch, its window's key and unit. -/
def State.remoteRequest (s : State) (k c : Nat) (port : Nat) (w : WindowOps) (n : Nat) (t : Tx) (land : Landing) : State :=
  let run := match (s.ctx c).run with
    | some r => r.number
    | none => 0
  let s := s.updCore k fun x => { x with straitLeft := x.straitLeft - n, outstanding := x.outstanding ++ [farAccess], waiting := land.blocks }
  (s.request port ⟨{ t with epoch := s.epochOf c run, key := w.key.toNat }, c, run, unitOf t.addr, land⟩).flush port

end Sys2Proof.Machine
end

