-- ==== Sys2Proof/Machine/BantamAlu.lean ====
section
/-! DEFINITION. The scalar Bantam instructions on general registers (R107; 05, Table 12). -/

namespace Sys2Proof.Machine

/-! ### Results -/

def aluShl (a b : Word) : Word := a <<< (b.toNat % 64)
def aluShr (a b : Word) : Word := a >>> (b.toNat % 64)
def aluSar (a b : Word) : Word := a.sshiftRight (b.toNat % 64)
def aluSlt (a b : Word) : Word := if a.slt b then 1 else 0
def aluSltu (a b : Word) : Word := if a.ult b then 1 else 0
def aluMulh (a b : Word) : Word := BitVec.ofInt 64 (a.toInt * b.toInt / (2 ^ 64 : Nat))
def aluMulhu (a b : Word) : Word := BitVec.ofNat 64 (a.toNat * b.toNat / 2 ^ 64)
/-- Division rounds toward zero; by zero gives all ones; the most negative value by −1 gives itself (R107). -/
def aluDiv (a b : Word) : Word := if b = 0 then BitVec.allOnes 64 else BitVec.ofInt 64 (a.toInt.tdiv b.toInt)
def aluDivu (a b : Word) : Word := if b = 0 then BitVec.allOnes 64 else BitVec.ofNat 64 (a.toNat / b.toNat)
/-- The remainder that goes with the quotient; by zero gives the dividend (R107). -/
def aluRem (a b : Word) : Word := if b = 0 then a else BitVec.ofInt 64 (a.toInt.tmod b.toInt)
def aluRemu (a b : Word) : Word := if b = 0 then a else BitVec.ofNat 64 (a.toNat % b.toNat)
def aluMin (a b : Word) : Word := if b.slt a then b else a
def aluMax (a b : Word) : Word := if a.slt b then b else a
def aluClz (a : Word) : Word := BitVec.ofNat 64 (if a = 0 then 64 else 63 - a.toNat.log2)
def aluPopc (a : Word) : Word := BitVec.ofNat 64 (popcount 64 a.toNat)

/-- A format A instruction that writes D from A and B. -/
def State.alu (s : State) (i : Instr) (c : CoreId) (f : FmtA) (beats : Nat) (op : Word → Word → Word) : Host.Outcome State Fault Refusal :=
  s.regInstr i c true beats fun x => x.setG f.d.toNat (op (x.greg f.a.toNat) (x.greg f.b.toNat))

/-- A format A instruction of one operand: B must be 0 (R114). -/
def State.alu1 (s : State) (i : Instr) (c : CoreId) (f : FmtA) (op : Word → Word) : Host.Outcome State Fault Refusal :=
  s.regInstr i c (f.b == 0) 1 fun x => x.setG f.d.toNat (op (x.greg f.a.toNat))

/-- A format I instruction that writes D from A and an immediate. -/
def State.aluImm (s : State) (i : Instr) (c : CoreId) (f : FmtI) (legal : Bool) (op : Word → Word) : Host.Outcome State Fault Refusal :=
  s.regInstr i c legal 1 fun x => x.setG f.d.toNat (op (x.greg f.a.toNat))

def immSx (f : FmtI) : Word := f.imm.signExtend 64
def immZx (f : FmtI) : Word := f.imm.zeroExtend 64
/-- A shift immediate has IMM[15:6] = 0. -/
def immShiftOk (f : FmtI) : Bool := decide (f.imm.toNat < 64)

/-! ### The instructions -/

def execAdd (c : CoreId) (f : FmtA) (s : State) : Host.Outcome State Fault Refusal := s.alu (.add c f) c f 1 (· + ·)
def execSub (c : CoreId) (f : FmtA) (s : State) : Host.Outcome State Fault Refusal := s.alu (.sub c f) c f 1 (· - ·)
def execAnd (c : CoreId) (f : FmtA) (s : State) : Host.Outcome State Fault Refusal := s.alu (.and c f) c f 1 (· &&& ·)
def execOr (c : CoreId) (f : FmtA) (s : State) : Host.Outcome State Fault Refusal := s.alu (.or c f) c f 1 (· ||| ·)
def execXor (c : CoreId) (f : FmtA) (s : State) : Host.Outcome State Fault Refusal := s.alu (.xor c f) c f 1 (· ^^^ ·)
def execShl (c : CoreId) (f : FmtA) (s : State) : Host.Outcome State Fault Refusal := s.alu (.shl c f) c f 1 aluShl
def execShr (c : CoreId) (f : FmtA) (s : State) : Host.Outcome State Fault Refusal := s.alu (.shr c f) c f 1 aluShr
def execSar (c : CoreId) (f : FmtA) (s : State) : Host.Outcome State Fault Refusal := s.alu (.sar c f) c f 1 aluSar
def execSlt (c : CoreId) (f : FmtA) (s : State) : Host.Outcome State Fault Refusal := s.alu (.slt c f) c f 1 aluSlt
def execSltu (c : CoreId) (f : FmtA) (s : State) : Host.Outcome State Fault Refusal := s.alu (.sltu c f) c f 1 aluSltu
def execMul (c : CoreId) (f : FmtA) (s : State) : Host.Outcome State Fault Refusal := s.alu (.mul c f) c f 3 (· * ·)
def execMulh (c : CoreId) (f : FmtA) (s : State) : Host.Outcome State Fault Refusal := s.alu (.mulh c f) c f 3 aluMulh
def execMulhu (c : CoreId) (f : FmtA) (s : State) : Host.Outcome State Fault Refusal := s.alu (.mulhu c f) c f 3 aluMulhu
def execDiv (c : CoreId) (f : FmtA) (s : State) : Host.Outcome State Fault Refusal := s.alu (.div c f) c f 34 aluDiv
def execDivu (c : CoreId) (f : FmtA) (s : State) : Host.Outcome State Fault Refusal := s.alu (.divu c f) c f 34 aluDivu
def execRem (c : CoreId) (f : FmtA) (s : State) : Host.Outcome State Fault Refusal := s.alu (.rem c f) c f 34 aluRem
def execRemu (c : CoreId) (f : FmtA) (s : State) : Host.Outcome State Fault Refusal := s.alu (.remu c f) c f 34 aluRemu
def execMin (c : CoreId) (f : FmtA) (s : State) : Host.Outcome State Fault Refusal := s.alu (.min c f) c f 1 aluMin
def execMax (c : CoreId) (f : FmtA) (s : State) : Host.Outcome State Fault Refusal := s.alu (.max c f) c f 1 aluMax
def execClz (c : CoreId) (f : FmtA) (s : State) : Host.Outcome State Fault Refusal := s.alu1 (.clz c f) c f aluClz
def execPopc (c : CoreId) (f : FmtA) (s : State) : Host.Outcome State Fault Refusal := s.alu1 (.popc c f) c f aluPopc
def execAddi (c : CoreId) (f : FmtI) (s : State) : Host.Outcome State Fault Refusal := s.aluImm (.addi c f) c f true (· + immSx f)
def execSlti (c : CoreId) (f : FmtI) (s : State) : Host.Outcome State Fault Refusal := s.aluImm (.slti c f) c f true (aluSlt · (immSx f))
def execAndi (c : CoreId) (f : FmtI) (s : State) : Host.Outcome State Fault Refusal := s.aluImm (.andi c f) c f true (· &&& immZx f)
def execOri (c : CoreId) (f : FmtI) (s : State) : Host.Outcome State Fault Refusal := s.aluImm (.ori c f) c f true (· ||| immZx f)
def execXori (c : CoreId) (f : FmtI) (s : State) : Host.Outcome State Fault Refusal := s.aluImm (.xori c f) c f true (· ^^^ immZx f)
def execShli (c : CoreId) (f : FmtI) (s : State) : Host.Outcome State Fault Refusal := s.aluImm (.shli c f) c f (immShiftOk f) (aluShl · (immZx f))
def execShri (c : CoreId) (f : FmtI) (s : State) : Host.Outcome State Fault Refusal := s.aluImm (.shri c f) c f (immShiftOk f) (aluShr · (immZx f))
def execSari (c : CoreId) (f : FmtI) (s : State) : Host.Outcome State Fault Refusal := s.aluImm (.sari c f) c f (immShiftOk f) (aluSar · (immZx f))
def execLui (c : CoreId) (f : FmtI) (s : State) : Host.Outcome State Fault Refusal := s.aluImm (.lui c f) c f (f.a == 0) (fun _ => immSx f <<< 16)

/-! ### Branches and jumps (R113; 05, Table 12) -/

/-- Target of a branch: words counted from the branch. -/
def branchTo (x : CoreSt) {w : Nat} (off : BitVec w) : Nat := (x.pc + off.signExtend 64 * 4).toNat

def State.branch (s : State) (i : Instr) (c : CoreId) (f : FmtB) (taken : Word → Word → Bool) : Host.Outcome State Fault Refusal :=
  s.instr i c fun s x =>
    if taken (x.greg f.a.toNat) (x.greg f.b.toNat) then .go s (branchTo x f.off) 2 else .go s (x.pc.toNat + 4) 1

def execBeq (c : CoreId) (f : FmtB) (s : State) : Host.Outcome State Fault Refusal := s.branch (.beq c f) c f (· == ·)
def execBne (c : CoreId) (f : FmtB) (s : State) : Host.Outcome State Fault Refusal := s.branch (.bne c f) c f (· != ·)
def execBlt (c : CoreId) (f : FmtB) (s : State) : Host.Outcome State Fault Refusal := s.branch (.blt c f) c f (·.slt ·)
def execBge (c : CoreId) (f : FmtB) (s : State) : Host.Outcome State Fault Refusal := s.branch (.bge c f) c f (fun a b => !(a.slt b))
def execBltu (c : CoreId) (f : FmtB) (s : State) : Host.Outcome State Fault Refusal := s.branch (.bltu c f) c f (·.ult ·)
def execBgeu (c : CoreId) (f : FmtB) (s : State) : Host.Outcome State Fault Refusal := s.branch (.bgeu c f) c f (fun a b => !(a.ult b))
def execJmp (c : CoreId) (off : BitVec 26) (s : State) : Host.Outcome State Fault Refusal :=
  s.instr (.jmp c off) c fun s x => .go s (branchTo x off) 2
/-- CALL writes the return address to g31. -/
def execCall (c : CoreId) (off : BitVec 26) (s : State) : Host.Outcome State Fault Refusal :=
  s.instr (.call c off) c fun s x => .go (s.updCore c.key (·.setG 31 (x.pc + 4))) (branchTo x off) 2
/-- JR jumps to A and writes the return address to D. -/
def execJr (c : CoreId) (f : FmtA) (s : State) : Host.Outcome State Fault Refusal :=
  s.instr (.jr c f) c fun s x =>
    if f.b == 0 then .go (s.updCore c.key (·.setG f.d.toNat (x.pc + 4))) (x.greg f.a.toNat).toNat 2 else raise 1 x.pc.toNat

end Sys2Proof.Machine
end

