-- ==== Sys2Proof/Machine/BantamMem.lean ====
section
/-! DEFINITION. Loads, stores and atomics of the Bantam cores (R100 to R102, R105, R161; 05, Table 12). -/

namespace Sys2Proof.Machine

/-- Value of a load of `n` bytes. -/
def loadValue (n : Nat) (sx : Bool) (v : Nat) : Word := BitVec.ofNat 64 (if sx then ofInt 64 (toInt (8 * n) v) else v)

/-- A local offset lies in the data store, outside the keeper region in kernel mode (R100). -/
def localOk (x : CoreSt) (a n : Nat) : Bool := decide (a + n ≤ if x.kernel then 0x2F000 else 0x30000)

def byteSize (size : BitVec 2) : Nat := 2 ^ size.toNat

/-- Address of a format M access. -/
def addrM (x : CoreSt) (f : FmtM) : Nat := (x.greg f.a.toNat + f.imm.signExtend 64).toNat

def execLdl (c : CoreId) (f : FmtM) (s : State) : Host.Outcome State Fault Refusal :=
  s.instr (.ldl c f) c fun s x =>
    let n := byteSize f.size
    let a := addrM x f
    let m := coreAddr c.key (0x10000 + a)
    if a % n ≠ 0 then raise 3 a
    else if !(localOk x a n) then raise 4 a
    else match s.readFault m n with
      | some e => accessExc a e
      | none => .go (s.updCore c.key (·.setG f.d.toNat (loadValue n f.sx (s.mem.readLe m n)))) (x.pc.toNat + 4) 2

def execStl (c : CoreId) (f : FmtM) (s : State) : Host.Outcome State Fault Refusal :=
  s.instr (.stl c f) c fun s x =>
    let n := byteSize f.size
    let a := addrM x f
    if f.sx then raise 1 x.pc.toNat
    else if a % n ≠ 0 then raise 3 a
    else if !(localOk x a n) then raise 4 a
    else .go (s.storeBytes (coreAddr c.key (0x10000 + a)) (leBytes n (x.greg f.d.toNat).toNat)) (x.pc.toNat + 4) 1

/-- LDG: a global address of this unit, or a READ through an import window (R100, R260). -/
def execLdg (c : CoreId) (load : LoadM) (s : State) : Host.Outcome State Fault Refusal :=
  let f := load.fmt
  s.instr (.ldg c ⟨f, .intact⟩) c fun s x =>
    let k := c.key
    let n := byteSize f.size
    let a := addrM x f
    match s.access k x a n n .read (s.foundFault · n load.found) with
    | .no r => r
    | .away port w => .go (s.remoteRequest k (x.job.getD 0) port w n
        { kind := .read, len := n, epoch := s.epochOf 0 0, tag := 0, addr := a } (.reg k f.d.toNat n f.sx)) (x.pc.toNat + 4) 24
    | .here t l b => .go (((t.updCore k (·.setG f.d.toNat (loadValue n f.sx (t.mem.readLe l n)))).cacheLoad l).fixBurst l load.found)
        (x.pc.toNat + 4) (24 + b)

/-- STG: a global address of this unit, or one posted WRITE with a byte mask (R100, R260). -/
def execStg (c : CoreId) (f : FmtM) (s : State) : Host.Outcome State Fault Refusal :=
  s.instr (.stg c f) c fun s x =>
    let k := c.key
    let n := byteSize f.size
    let a := addrM x f
    let bs := leBytes n (x.greg f.d.toNat).toNat
    if f.sx then raise 1 x.pc.toNat else
    match s.access k x a n n .write (s.writeFault · n) with
    | .no r => r
    | .away port w => .go (s.remoteRequest k (x.job.getD 0) port w n
        { kind := .write, len := n, epoch := s.epochOf 0 0, tag := 0, addr := a, operand := 2 ^ n - 1, data := bs } (.ack k))
        (x.pc.toNat + 4) 24
    | .here t l b => .go (t.storeBytes l bs) (x.pc.toNat + 4) (24 + b)

/-! ### Vector accesses: only the unmasked lanes (R112) -/

/-- Lanes of a vector access that are not masked. -/
def openLanes (x : CoreSt) (f : FmtVM) : List Nat :=
  (List.range (laneCount f.etype.toNat)).filter (bit (x.preg f.p.toNat).toNat)

def laneBytes (f : FmtVM) : Nat := laneBits f.etype.toNat / 8
def addrVM (x : CoreSt) (f : FmtVM) : Nat := (x.greg f.a.toNat + f.imm.signExtend 64 * 64).toNat

/-- The first lane whose bytes cannot be read. -/
def State.lanesReadFault (s : State) (m z : Nat) (ls : List Nat) : Option AccessFault := ls.findSome? fun i => s.readFault (m + i * z) z

/-- A vector register with the given lanes loaded from memory. -/
def State.loadLanes (s : State) (m z : Nat) (ls : List Nat) (old : BitVec 512) : BitVec 512 :=
  ofLanes (8 * z) ((List.range (64 / z)).map fun i => if ls.contains i then s.mem.readLe (m + i * z) z else vlane old (8 * z) i)

/-- The stores of a vector store, adjoining lanes as one: lanes that together cover a coded unit need no merge (R181). -/
def laneStores (m z : Nat) (ls : List Nat) (v : BitVec 512) : List (Nat × List Byte) :=
  joinStores (ls.map fun i => (m + i * z, leBytes z (vlane v (8 * z) i)))

def execVldl (c : CoreId) (f : FmtVM) (s : State) : Host.Outcome State Fault Refusal :=
  s.instr (.vldl c f) c fun s x =>
    let a := addrVM x f
    let m := coreAddr c.key (0x10000 + a)
    let ls := openLanes x f
    if f.etype = 7 then raise 1 x.pc.toNat
    else if a % 64 ≠ 0 then raise 3 a
    else if ls.isEmpty then .go s (x.pc.toNat + 4) 2
    else if !(localOk x a 64) then raise 4 a
    else match s.lanesReadFault m (laneBytes f) ls with
      | some e => accessExc a e
      | none => .go (s.updCore c.key (·.setV f.vd.toNat (s.loadLanes m (laneBytes f) ls (x.vreg f.vd.toNat)))) (x.pc.toNat + 4) 2

def execVstl (c : CoreId) (f : FmtVM) (s : State) : Host.Outcome State Fault Refusal :=
  s.instr (.vstl c f) c fun s x =>
    let a := addrVM x f
    let ls := openLanes x f
    if f.etype = 7 then raise 1 x.pc.toNat
    else if a % 64 ≠ 0 then raise 3 a
    else if ls.isEmpty then .go s (x.pc.toNat + 4) 1
    else if !(localOk x a 64) then raise 4 a
    else .go (s.storeAll (laneStores (coreAddr c.key (0x10000 + a)) (laneBytes f) ls (x.vreg f.vd.toNat))) (x.pc.toNat + 4) 1

/-- Byte mask of lanes of `z` bytes. -/
def byteMask (z : Nat) (ls : List Nat) : Nat := ls.foldl (fun m i => m + (2 ^ z - 1) * 2 ^ (i * z)) 0

def execVldg (c : CoreId) (load : LoadVM) (s : State) : Host.Outcome State Fault Refusal :=
  let f := load.fmt
  s.instr (.vldg c ⟨f, .intact⟩) c fun s x =>
    let k := c.key
    let a := addrVM x f
    let z := laneBytes f
    let ls := openLanes x f
    if f.etype = 7 then raise 1 x.pc.toNat
    else if a % 64 = 0 && ls.isEmpty then .go s (x.pc.toNat + 4) 24
    else match s.access k x a 64 (ls.length * z) .read fun l => (s.lanesReadFault l z ls).orElse fun _ => s.foundFault l 0 load.found with
    | .no r => r
    | .away port w => .go (s.remoteRequest k (x.job.getD 0) port w (ls.length * z)
        { kind := .read, len := 64, epoch := s.epochOf 0 0, tag := 0, addr := a }
        (.vec k f.vd.toNat (byteMask 1 ls) z)) (x.pc.toNat + 4) 24
    | .here t l b => .go (((t.updCore k (·.setV f.vd.toNat (t.loadLanes l z ls (x.vreg f.vd.toNat)))).cacheLoad l).fixBurst l load.found)
        (x.pc.toNat + 4) (24 + b)

def execVstg (c : CoreId) (f : FmtVM) (s : State) : Host.Outcome State Fault Refusal :=
  s.instr (.vstg c f) c fun s x =>
    let k := c.key
    let a := addrVM x f
    let z := laneBytes f
    let ls := openLanes x f
    if f.etype = 7 then raise 1 x.pc.toNat
    else if a % 64 = 0 && ls.isEmpty then .go s (x.pc.toNat + 4) 24
    else match s.access k x a 64 (ls.length * z) .write fun l => s.storesFault (laneStores l z ls (x.vreg f.vd.toNat)) with
    | .no r => r
    | .away port w => .go (s.remoteRequest k (x.job.getD 0) port w (ls.length * z)
        { kind := .write, len := 64, epoch := s.epochOf 0 0, tag := 0, addr := a, operand := byteMask z ls,
          data := leBytes 64 (x.vreg f.vd.toNat).toNat } (.ack k)) (x.pc.toNat + 4) 24
    | .here t l b => .go (t.storeAll (laneStores l z ls (x.vreg f.vd.toNat))) (x.pc.toNat + 4) (24 + b)

/-! ### Atomics (R105, R161; 07, Table 5) -/

/-- The open reduce line that holds an address of an isle store sees the atomic just made there (R161; DEDUCED, log 165). -/
def State.rebaseLine (s : State) (a : Nat) : State :=
  let k := adderKey (isleOf a) 2
  let off := offOf a / 64 * 64
  match (s.adder k).lines.find? off with
  | some l => s.updAdder k fun d => { d with lines := d.lines.put off (l.rebase (s.mem.readBytes (adderAddr k off) 64)) }
  | none => s
/-- An atomic of `n` bytes on class 0x2: D receives the old value, zero-extended (log 41); `op` gives what is written from old, B, D. -/
def State.amo (s : State) (i : Instr) (c : CoreId) (f : FmtA) (n : Nat) (nonRepro : Bool) (op : Nat → Nat → Nat → Nat) :
    Host.Outcome State Fault Refusal :=
  s.instr i c fun s x =>
    let k := c.key
    let a := (x.greg f.a.toNat).toNat
    if a % n ≠ 0 then raise 3 a
    else if unitOf a ≠ s.unitNo || classOf a ≠ 2 then raise 4 a
    else match s.access k x a n n .write fun l => (s.readFault l n).orElse fun _ => s.writeFault l n with
    | .no r => r
    | .away _ _ => raise 4 a
    | .here t l b =>
        let old := t.mem.readLe l n
        let w := 2 ^ (8 * n)
        let t := (t.storeBytes l (leBytes n (op old ((x.greg f.b.toNat).toNat % w) ((x.greg f.d.toNat).toNat % w)))).rebaseLine l
        let t := match x.job with
          | some c => if nonRepro && x.kernel then t.updRun c fun r => { r with nonRepro := true } else t
          | none => t
        .go (t.updCore k (·.setG f.d.toNat (BitVec.ofNat 64 old))) (x.pc.toNat + 4) (24 + b)

def wideSize (wide : Bool) : Nat := if wide then 8 else 4
def amoAddOp (n old b _d : Nat) : Nat := (old + b) % 2 ^ (8 * n)
def amoMinOp (n old b _d : Nat) : Nat := if toInt (8 * n) b < toInt (8 * n) old then b else old
def amoMaxOp (n old b _d : Nat) : Nat := if toInt (8 * n) old < toInt (8 * n) b then b else old
def amoSwapOp (_old b _d : Nat) : Nat := b
def amoCasOp (old b d : Nat) : Nat := if old = d then b else old

def execAmoAdd (c : CoreId) (wide : Bool) (f : FmtA) (s : State) : Host.Outcome State Fault Refusal :=
  s.amo (.amoAdd c wide f) c f (wideSize wide) false (amoAddOp (wideSize wide))
def execAmoMin (c : CoreId) (wide : Bool) (f : FmtA) (s : State) : Host.Outcome State Fault Refusal :=
  s.amo (.amoMin c wide f) c f (wideSize wide) false (amoMinOp (wideSize wide))
def execAmoMax (c : CoreId) (wide : Bool) (f : FmtA) (s : State) : Host.Outcome State Fault Refusal :=
  s.amo (.amoMax c wide f) c f (wideSize wide) false (amoMaxOp (wideSize wide))
def execAmoSwap (c : CoreId) (wide : Bool) (f : FmtA) (s : State) : Host.Outcome State Fault Refusal :=
  s.amo (.amoSwap c wide f) c f (wideSize wide) false amoSwapOp
def execAmoCas (c : CoreId) (wide : Bool) (f : FmtA) (s : State) : Host.Outcome State Fault Refusal :=
  s.amo (.amoCas c wide f) c f (wideSize wide) false amoCasOp
/-- R111: a retired FADD32 makes the run non-reproducible. -/
def execAmoFadd32 (c : CoreId) (f : FmtA) (s : State) : Host.Outcome State Fault Refusal :=
  s.amo (.amoFadd32 c f) c f 4 true fun old b _ => f32Add old b

/-- R102: the oldest outstanding access of a core in its own unit completes; one to another unit ends with its completion. -/
def execGlobalAccessComplete (c : CoreId) (s : State) : Host.Outcome State Fault Refusal :=
  .next (s.updCore c.key (·.accessDone (·.scope != 3)))

end Sys2Proof.Machine
end

