-- ==== Sys2Proof/Machine/BantamSys.lean ====
section
/-! DEFINITION. Kernels, tokens, fences, modes, control registers and power of the Bantam cores (05). -/

namespace Sys2Proof.Machine

/-! ### KERNEL (R96 to R98, R122) -/

/-- Check 6 of R43 for a KERNEL (R96, R122). -/
def kernelBad (o : KernelOps) : List (Bool × Nat) :=
  [(o.entry.toNat % 4 != 0 || decide (o.entry.toNat < 0x1000), 12),
   (o.args && (beyond o.argLen.toNat 64 4096 || o.argLen.toNat % 64 != 0), 14), (o.budget == 0, 16),
   (o.args && o.arg.toNat % 64 != 0, 20), (o.hbm && o.hbmKib == 0, 24), (o.strait && o.straitKib == 0, 28)]
def kernelValid (o : KernelOps) : Bool := noneBad (kernelBad o)
/-- Check 3: a field whose flag is 0 holds 0. -/
def kernelUnused (o : KernelOps) : List (Bool × Nat) :=
  [(!o.args && o.argLen != 0, 14), (!o.args && o.arg != 0, 20), (!o.hbm && o.hbmKib != 0, 24), (!o.strait && o.straitKib != 0, 28)]
def kernelReserved (o : KernelOps) : Bool := noneBad (kernelUnused o)
/-- Check 8. -/
def kernelFits (o : KernelOps) : Bool := !o.args || decide (o.arg.toNat + o.argLen.toNat ≤ 0x2F000)

/-- Registers of a core as a KERNEL starts (R97). -/
def kernelStart (x : CoreSt) (c : Nat) (o : KernelOps) : CoreSt :=
  { x with
    g := ((({} : Table Word).put 1 (if o.args then o.arg.zeroExtend 64 else 0)).put 2 (if o.args then o.argLen.zeroExtend 64 else 0))
    v := {}, p := {}, pc := o.entry.zeroExtend 64, status := x.status ||| 1, beats := 0, budget := o.budget.toNat
    hbmOn := o.hbm, straitOn := o.strait, hbmLeft := if o.hbm then o.hbmKib.toNat * 1024 else 0
    straitLeft := if o.strait then o.straitKib.toNat * 1024 else 0, job := some c, twait := none, power := .run }

/-- R97, R98: a KERNEL of the run starts on its core, which executes no kernel. -/
def execKernel (ctx : Ctx) (c : CoreId) (ops : KernelOps) (s : State) : Host.Outcome State Fault Refusal :=
  if !(kernelValid ops && kernelReserved ops && kernelFits ops) then .refused .operandRefusedAtLoad else
  let x := s.core c.key
  if (s.activeRun ctx.val).isNone || (s.engineOp ctx.val 2 c.isle.val c.core.val (.kernel ops)).isNone || x.kernel || x.disabled || !(x.power == .run || x.power == .nap) then .next s
  else .next (s.updCore c.key fun x => kernelStart x ctx.val ops)

/-- The strand of a plan on a core. -/
def Plan.coreStrand (p : Plan) (k : Nat) : Option Nat :=
  p.strands.findIdx? fun st => st.cls == 2 && st.isle * 16 + st.inst == k

/-- R98: the implicit fence of scope 3 after HALT completes, once every access of the kernel and every posted request of its epoch has, and
with it the KERNEL command. On a poisoned epoch the fence raises POISONED_FENCE and the job halts (R116, R265; 05, Table 13). -/
def execKernelComplete (c : CoreId) (s : State) : Host.Outcome State Fault Refusal :=
  let k := c.key
  match (s.core k).draining with
  | [] => .next s
  | d :: rest =>
    let ctx := d.ctx
    if !(d.outstanding.isEmpty) then .next s else
    match (s.ctx ctx).run, (s.ctx ctx).plan with
    | some r, some p =>
      if s.postedOpen ctx r.number then .next s else
      let s := s.updCore k fun x => { x with draining := rest }
      let s := s.updBant (k / 16) fun b => { b with kernels := satAdd 64 b.kernels 1 }
      let s := if r.poisoned && r.halted.isNone then s.kernelFault k ctx 0x0A d.pc d.pc none 0 else s
      match p.coreStrand k with
      | some n => .next (s.completeNext ctx n)
      | none => .next s
    | _, _ => .next (s.updCore k fun x => { x with draining := rest })

/-- HALT: kernel mode only; granted before the budget (R98, R123). -/
def execHalt (c : CoreId) (f : FmtA) (s : State) : Host.Outcome State Fault Refusal :=
  s.instr (.halt c f) c fun s x =>
    if !x.kernel || f.d != 0 || f.a != 0 || f.b != 0 then raise 1 x.pc.toNat
    else .stop ((s.updCore c.key fun y => { y with beats := y.beats + 1 }).endKernel c.key)

/-! ### Tokens (R104, R106) -/

/-- What a token instruction makes of its descriptor: counter and isle, or an exception. -/
def State.tokenPlace (s : State) (x : CoreSt) (d : Word) (valueOk : Bool) : Except Retire (Nat × Nat) :=
  let v := d.toNat
  let isle := bits v 17 12
  let counter := bits v 11 0
  if v / 2 ^ 18 ≠ 0 || !valueOk then .error (raise 7 v)
  else if x.kernel && !((x.job.bind fun c => (s.ctx c).plan).any fun p => p.hasToken isle counter) then .error (raise 4 v)
  else .ok (isle, counter)

/-- A kernel's job has halted: the kernel ends at its wait (R49, log 45). -/
def State.jobHalted (s : State) (x : CoreSt) : Bool := x.kernel && (match x.job with
  | some c => (s.activeRun c).isNone
  | none => false)

/-- TSIG: after an implicit fence of scope 2 the counter takes the increment; a counter of another isle takes it from a token message
(R104, R106). -/
def execTsig (c : CoreId) (f : FmtA) (s : State) : Host.Outcome State Fault Refusal :=
  s.instr (.tsig c f) c fun s x =>
    let inc := (x.greg f.b.toNat).toNat
    if f.d != 0 then raise 1 x.pc.toNat else
    match s.tokenPlace x (x.greg f.a.toNat) (decide (1 ≤ inc) && decide (inc ≤ 1023)) with
    | .error r => r
    | .ok (isle, counter) =>
      if x.accesses.any (·.scope ≤ 2) then holdOn (x.accesses.filter (·.scope ≤ 2)) else
      let beats := 4 + s.hopBeats c.key x isle
      let next := x.pc.toNat + 4
      match x.job with
      | some ctx => match s.activeRun ctx with
        | some r =>
          if isle = c.isle.val then .go (s.signal ctx isle counter inc) next beats
          else .go { s with flying := s.flying ++ [⟨ctx, r.number, c.isle.val, isle, counter, inc⟩] } next beats
        | none => .go s next beats
      | none => .go (s.setToken isle counter (Nat.min (s.token isle counter + inc) 65535)) next beats

/-- TWAIT: the core holds until the counter is at least B. -/
def execTwait (c : CoreId) (f : FmtA) (s : State) : Host.Outcome State Fault Refusal :=
  s.instr (.twait c f) c fun s x =>
    let v := (x.greg f.b.toNat).toNat
    if f.d != 0 then raise 1 x.pc.toNat else
    match s.tokenPlace x (x.greg f.a.toNat) (decide (v ≤ 65535)) with
    | .error r => r
    | .ok (isle, counter) =>
      if s.jobHalted x then .stop (s.endKernel c.key)
      else if s.token isle counter < v then .stop (s.updCore c.key fun x => { x with twait := some (isle * 4096 + counter, v) })
      else .go s (x.pc.toNat + 4) (4 + s.hopBeats c.key x isle)

/-- TREAD. -/
def execTread (c : CoreId) (f : FmtA) (s : State) : Host.Outcome State Fault Refusal :=
  s.instr (.tread c f) c fun s x =>
    if f.b != 0 then raise 1 x.pc.toNat else
    match s.tokenPlace x (x.greg f.a.toNat) true with
    | .error r => r
    | .ok (isle, counter) => .go (s.updCore c.key (·.setG f.d.toNat (BitVec.ofNat 64 (s.token isle counter)))) (x.pc.toNat + 4)
        (8 + s.hopBeats c.key x isle)

/-! ### FENCE (R103, R263, R265) -/

/-- FENCE of scope 0 to 4. Scope 3 also waits until every posted request of the epoch is acknowledged or has failed. -/
def execFence (c : CoreId) (f : FmtI) (s : State) : Host.Outcome State Fault Refusal :=
  s.instr (.fence c f) c fun s x =>
    let scope := f.imm.toNat
    if f.a != 0 || f.d != 0 || 4 < scope then raise 1 x.pc.toNat
    else if scope = 4 && x.kernel then raise 2 x.pc.toNat
    else if 1 ≤ scope && scope ≤ 3 && x.accesses.any (·.scope ≤ Nat.min scope 2) then
      holdOn (x.accesses.filter (·.scope ≤ Nat.min scope 2))
    else if scope = 3 then
      match x.job.bind fun ctx => (s.ctx ctx).run.map fun r => (ctx, r) with
      | some (ctx, r) =>
        if s.postedOpen ctx r.number then .stop (s.sendFences ctx r.number)
        else if r.poisoned then raise 0x0A x.pc.toNat
        else .go s (x.pc.toNat + 4) 1
      | none => .go s (x.pc.toNat + 4) 1
    else .go s (x.pc.toNat + 4) 1

/-! ### Keeper instructions (R95, R117 to R120) -/

def noOperands (f : FmtA) : Bool := f.d == 0 && f.a == 0 && f.b == 0

def execBrk (c : CoreId) (f : FmtA) (s : State) : Host.Outcome State Fault Refusal :=
  s.instr (.brk c f) c fun _ x => if noOperands f then raise 8 x.pc.toNat else raise 1 x.pc.toNat

/-- RESUME: SAVED_STATUS into STATUS, and execution goes on at EPC. -/
def execResume (c : CoreId) (f : FmtA) (s : State) : Host.Outcome State Fault Refusal :=
  s.instr (.resume c f) c fun s x =>
    if !(noOperands f) then raise 1 x.pc.toNat
    else if x.kernel then raise 2 x.pc.toNat
    else .go (s.updCore c.key fun y => { y with status := y.saved }) x.epc.toNat 2

/-- RING: the doorbell of core A[3:0] of the isle. -/
def execRing (c : CoreId) (f : FmtA) (s : State) : Host.Outcome State Fault Refusal :=
  s.instr (.ring c f) c fun s x =>
    if f.d != 0 || f.b != 0 then raise 1 x.pc.toNat
    else if x.kernel then raise 2 x.pc.toNat
    else .go (s.wakeCore (c.isle.val * 16 + (x.greg f.a.toNat).toNat % 16) 2) (x.pc.toNat + 4) 2

/-- A running plan leases the core, or has commands of its strand not yet completed: it enters nap only (R119). -/
def State.napOnly (s : State) (k : Nat) : Bool :=
  s.loaded.any fun cp => cp.2.hasCore k && ((s.ctx cp.1).run.any (·.accepted))
/-- The core sleeps in the state of PMODE.MODE that R119 allows it; off loses its registers and its data store, which reads zeros from then
on, and the Holm's side of the core keeps what a wake needs: PMODE, WAKEMASK, WAKECAUSE, TIMECMP and WATCH (05, Table 5; log 170). -/
def State.sleepCore (s : State) (k : Nat) : State :=
  let mode := if s.napOnly k then 0 else (s.core k).pmode.toNat % 4
  if mode = 2 then
    let s := { (s.clearBad (coreAddr k 0x10000) 0x30000) with mem := s.mem.clear (coreAddr k 0x10000) 0x30000 }
    s.updCore k fun x => { resetCore x with
      power := .off, pmode := x.pmode, wakeMask := x.wakeMask, wakeCause := x.wakeCause, timecmp := x.timecmp, watch := x.watch }
  else s.updCore k fun x => { x with power := if mode = 1 then .doze else .nap }

/-- Entry to I2 (R120, R418, R419): the SRAM is kept, other logic state is lost, the stacks are in self-refresh, the local port is held. -/
def State.retainIsle (s : State) (i : Nat) : State :=
  let s := (List.range 16).foldl (fun s n => s.updCore (i * 16 + n) fun x => { resetCore x with power := .off }) s
  let s := (List.range 4).foldl (fun s n => s.updEngine (i * 4 + n) fun e => { e with active := {}, shadow := {}, acc := {}, masks := {} }) s
  let s := (List.range 2).foldl (fun s n => s.updStack (i * 2 + n) fun x => { x with selfRefresh := true }) s
  { s with power := { s.power with
      isle := s.power.isle.put i .i2
      hold := s.power.hold.put (holdIsle i) .held
      ready := s.power.ready.put (holdIsle i) false } }

/-- May the isle enter I2 now (R120, R419)? Every other healthy core is in doze or off with no wake due, which the arbiter would grant
first, and no loaded plan names the isle, so that every engine is idle. -/
def State.mayRetain (s : State) (k : Nat) : Bool :=
  (List.range 16).all (fun n => n == k % 16 || !(bit (s.isle (k / 16)).bantam.toNat n) ||
    (let x := s.core (k / 16 * 16 + n)
     (x.power == .doze || x.power == .off) && x.wakeMask &&& x.wakeCause == 0)) && !(s.loaded.any fun cp => cp.2.names (k / 16))

/-- WAIT (R118, R120). -/
def execWait (c : CoreId) (f : FmtA) (s : State) : Host.Outcome State Fault Refusal :=
  s.instr (.wait c f) c fun s x =>
    let k := c.key
    if !(noOperands f) then raise 1 x.pc.toNat
    else if x.kernel then raise 2 x.pc.toNat
    else if x.wakeMask &&& x.wakeCause != 0 then .go s (x.pc.toNat + 4) 0
    else
      let s := s.updCore k fun y => { y with pc := y.pc + 4 }
      if bit x.pmode.toNat 2 && (s.bant c.isle.val).housekeeper == c.core.val then
        if s.mayRetain k then .stop (s.retainIsle c.isle.val)
        else .stop ((s.updCore k fun y => { y with pmode := y.pmode ||| 8 }).sleepCore k)
      else .stop (s.sleepCore k)

/-- R118: a core with an enabled wake source leaves nap, doze or off; after off it starts at 0 with CAUSE POWER_ON. In an isle that is not
in I0 no core wakes. -/
def execCoreWake (c : CoreId) (s : State) : Host.Outcome State Fault Refusal :=
  let x := s.core c.key
  if x.power == .run || x.wakeMask &&& x.wakeCause == 0 || s.power.isle.get .i3 c.isle.val != .i0 then .next s
  else if x.power == .off then .next (s.updCore c.key fun x => { x with power := .run, pc := 0, cause := 0x0C })
  else .next (s.updCore c.key fun x => { x with power := .run })

/-- R117; 05, Table 17. -/
def execTimecmpReached (c : CoreId) (s : State) : Host.Outcome State Fault Refusal := .next (s.wakeCore c.key 3)

/-! ### Control registers (05, Tables 14 to 17) -/

/-- Value of a control register, by number. -/
def State.csr (s : State) (c : CoreId) (x : CoreSt) (n : Nat) : Option Word :=
  match n with
  | 0x000 => some x.status | 0x001 => some x.cause | 0x002 => some x.epc | 0x003 => some x.trapAddr | 0x004 => some x.trapTab
  | 0x005 => some x.idlePc | 0x006 => some x.saved | 0x010 => some x.pmode | 0x011 => some x.wakeMask | 0x012 => some x.wakeCause
  | 0x013 => some x.timecmp | 0x014 => some x.watch
  | 0x020 => some (BitVec.ofNat 64 x.beats) | 0x021 => some (BitVec.ofNat 64 x.budget)
  | 0x022 => some (BitVec.ofNat 64 x.hbmLeft) | 0x023 => some (BitVec.ofNat 64 x.straitLeft)
  | 0x030 => some (BitVec.ofNat 64 c.core.val) | 0x031 => some (BitVec.ofNat 64 c.isle.val)
  | 0x032 => some (BitVec.ofNat 64 s.unitNo) | 0x033 => some (BitVec.ofNat 64 (x.job.getD 0))
  | 0x040 => some (BitVec.ofNat 64 s.clock.base)
  | _ => none

/-- Registers that kernel mode may not read. -/
def csrKeeper (n : Nat) : Bool := decide (1 ≤ n) && decide (n ≤ 0x14)

def execCsrr (c : CoreId) (f : FmtI) (s : State) : Host.Outcome State Fault Refusal :=
  s.instr (.csrr c f) c fun s x =>
    let n := f.imm.toNat
    match s.csr c x n with
    | none => raise 1 x.pc.toNat
    | some v =>
      if f.a != 0 then raise 1 x.pc.toNat
      else if x.kernel && csrKeeper n then raise 2 x.pc.toNat
      else .go (s.updCore c.key (·.setG f.d.toNat v)) (x.pc.toNat + 4) 2

/-- Bits of `old` that `mask` does not name, with the bits of `v` that it names. -/
def merge (old v mask : Word) : Word := (old &&& ~~~mask) ||| (v &&& mask)

/-- PMODE after a write: MODE 3 leaves MODE, ISLE only on the housekeeping core, DENIED cleared by writing 1 (05, Table 16). -/
def writePmode (old v : Word) (keeper : Bool) : Word :=
  let p := if v &&& 3 == 3 then old else merge old v 3
  let p := if keeper then merge p v 4 else p
  p &&& ~~~(v &&& 8)

/-- A write of a control register in keeper mode; read-only registers and values out of range are left (log 43). -/
def State.writeCsr (s : State) (c : CoreId) (n : Nat) (v : Word) : State :=
  let k := c.key
  let keeper := (s.bant c.isle.val).housekeeper == c.core.val
  let u := s.updCore k
  match n with
  | 0x000 => u fun x => { x with status := merge x.status v 6 }
  | 0x001 => u fun x => { x with cause := v }
  | 0x002 => u fun x => { x with epc := v }
  | 0x003 => u fun x => { x with trapAddr := v }
  | 0x004 => if v.toNat % 1024 = 0 && 0x2F000 ≤ v.toNat && v.toNat ≤ 0x2FC00 then u fun x => { x with trapTab := v } else s
  | 0x005 => u fun x => { x with idlePc := v }
  | 0x006 => u fun x => { x with saved := v &&& 7 }
  | 0x010 => u fun x => { x with pmode := writePmode x.pmode v keeper }
  | 0x011 => u fun x => { x with wakeMask := v &&& 0x1F }
  | 0x012 => u fun x => { x with wakeCause := x.wakeCause &&& ~~~(v &&& 0x1F) }
  | 0x013 => u fun x => { x with timecmp := v }
  | 0x014 =>
    let w := v &&& 0xFFFFFFF
    let s := u fun x => { x with watch := w }
    if bits w.toNat 27 12 ≤ s.token c.isle.val (bits w.toNat 11 0) then s.wakeCore k 1 else s
  | _ => s

/-- CSRW: PRIVILEGED for every register in kernel mode. -/
def execCsrw (c : CoreId) (f : FmtI) (s : State) : Host.Outcome State Fault Refusal :=
  s.instr (.csrw c f) c fun s x =>
    let n := f.imm.toNat
    if (s.csr c x n).isNone || f.d != 0 then raise 1 x.pc.toNat
    else if x.kernel then raise 2 x.pc.toNat
    else .go (s.writeCsr c n (x.greg f.a.toNat)) (x.pc.toNat + 4) 2

/-! ### Stall and housekeeping (R121, R124) -/

/-- The core waits in TWAIT: the counter of its last TWAIT that had to wait is still below the target. -/
def State.atTwait (s : State) (x : CoreSt) : Bool := x.twait.any fun w => decide (s.tokens.get 0 w.1 < w.2)
/-- R124; 05, Table 6: a core that retires nothing for 20 µs, while it is not in WAIT, TWAIT or a clocked-rate wait, halts the job of its
kernel and is disabled. In keeper mode there is no job (DEDUCED, log 171). -/
def execBantamStall (c : CoreId) (s : State) : Host.Outcome State Fault Refusal :=
  let k := c.key
  let x := s.core k
  if !x.runs || s.atTwait x then .next s else
  let s := s.emit 0x252 3 (srcCore k) x.job ([c.isle.val, c.core.val, x.pc.toNat] ++ x.job.toList)
  let s := match x.job with
    | some ctx => s.haltJob ctx 0x252
    | none => s
  .next ((s.updCore k fun y => { resetCore y with power := .run }).disableCore k 0x252)

/-- R121: the counts of an isle go to the Holm, whose objects read them (18, Table 1, activity 15). -/
def execHousekeepingReport (isle : Isle) (s : State) : Host.Outcome State Fault Refusal :=
  if s.power.isle.get .i3 isle.val == .i0 then .next (s.bgCycle 15 isle.val 0) else .next s

end Sys2Proof.Machine
end

