-- ==== Sys2Proof/Machine/BantamVec.lean ====
section
/-! DEFINITION. The vector instructions of the Bantam cores (R107 to R112; 05, Table 12). -/

namespace Sys2Proof.Machine

/-! ### One lane -/

/-- Result of an exact float operation, rounded once to the lane format (R108). -/
def toLane (et : Nat) (v : Fp) : Nat := (floatFmt et).encode false v
def ofLane (et b : Nat) : Fp := (floatFmt et).decode b

def laneAddOp (et a b : Nat) : Nat :=
  if isFloat et then toLane et (exactSum [ofLane et a, ofLane et b]) else (a + b) % 2 ^ laneBits et
def laneNegate (et b : Nat) : Nat :=
  if isFloat et then (if (ofLane et b).isNan then toLane et .nan else (b + 2 ^ (laneBits et - 1)) % 2 ^ laneBits et)
  else (2 ^ laneBits et - b) % 2 ^ laneBits et
def laneSubOp (et a b : Nat) : Nat :=
  if isFloat et then laneAddOp et a (laneNegate et b) else (a + 2 ^ laneBits et - b) % 2 ^ laneBits et
def laneMulOp (et a b : Nat) : Nat :=
  if isFloat et then toLane et ((ofLane et a).mul (ofLane et b)) else a * b % 2 ^ laneBits et
def laneFmaOp (et d a b : Nat) : Nat :=
  if isFloat et then toLane et (exactSum [ofLane et d, (ofLane et a).mul (ofLane et b)]) else (d + a * b) % 2 ^ laneBits et

/-- Signed order of integer lanes; order of float lanes with −0 below +0, for lanes that are not NaN (R108). -/
def laneKey (et b : Nat) : Int :=
  if isFloat et then (if bit b (laneBits et - 1) then -((b % 2 ^ (laneBits et - 1) : Nat) : Int) - 1 else (b : Int))
  else toInt (laneBits et) b
def laneNan (et b : Nat) : Bool := isFloat et && (ofLane et b).isNan
def laneMinOp (et a b : Nat) : Nat :=
  if laneNan et a || laneNan et b then toLane et .nan else if laneKey et b < laneKey et a then b else a
def laneMaxOp (et a b : Nat) : Nat :=
  if laneNan et a || laneNan et b then toLane et .nan else if laneKey et a < laneKey et b then b else a

/-- Shift amounts use the low log2 bits of the lane width (R107). -/
def laneShl (et a b : Nat) : Nat := a * 2 ^ (b % laneBits et) % 2 ^ laneBits et
def laneShr (et a b : Nat) : Nat := a / 2 ^ (b % laneBits et)
def laneSar (et a b : Nat) : Nat := ofInt (laneBits et) (toInt (laneBits et) a / (2 ^ (b % laneBits et) : Nat))
def laneAbs (et a : Nat) : Nat :=
  if isFloat et then (if laneNan et a then toLane et .nan else a % 2 ^ (laneBits et - 1))
  else if bit a (laneBits et - 1) then (2 ^ laneBits et - a) % 2 ^ laneBits et else a

/-! ### Vectors -/

/-- Each unmasked lane computed from the lanes of VD, VA and VB; a masked lane keeps its value (R112). -/
def vecMap (x : CoreSt) (f : FmtV) (op : Nat → Nat → Nat → Nat) : BitVec 512 :=
  let w := laneBits f.etype.toNat
  let p := (x.preg f.p.toNat).toNat
  let d := x.vreg f.vd.toNat
  ofLanes w ((List.range (512 / w)).map fun i =>
    if bit p i then op (vlane d w i) (vlane (x.vreg f.va.toNat) w i) (vlane (x.vreg f.vb.toNat) w i) else vlane d w i)

/-- A lane-wise instruction of 1 beat for integers and `fb` for floats. -/
def State.vec (s : State) (i : Instr) (c : CoreId) (f : FmtV) (legal : Bool) (fb : Nat) (op : Nat → Nat → Nat → Nat) :
    Host.Outcome State Fault Refusal :=
  s.regInstr i c (legal && f.etype != 7) (if isFloat f.etype.toNat then fb else 1) fun x => x.setV f.vd.toNat (vecMap x f op)

def etInt (f : FmtV) : Bool := decide (f.etype.toNat < 4)

def execVadd (c : CoreId) (f : FmtV) (s : State) : Host.Outcome State Fault Refusal :=
  s.vec (.vadd c f) c f true 4 fun _ a b => laneAddOp f.etype.toNat a b
def execVsub (c : CoreId) (f : FmtV) (s : State) : Host.Outcome State Fault Refusal :=
  s.vec (.vsub c f) c f true 4 fun _ a b => laneSubOp f.etype.toNat a b
def execVmul (c : CoreId) (f : FmtV) (s : State) : Host.Outcome State Fault Refusal :=
  s.vec (.vmul c f) c f true 4 fun _ a b => laneMulOp f.etype.toNat a b
/-- VFMA costs 4 beats for every ETYPE. -/
def execVfma (c : CoreId) (f : FmtV) (s : State) : Host.Outcome State Fault Refusal :=
  s.regInstr (.vfma c f) c (f.etype != 7) 4 fun x => x.setV f.vd.toNat (vecMap x f fun d a b => laneFmaOp f.etype.toNat d a b)
def execVmin (c : CoreId) (f : FmtV) (s : State) : Host.Outcome State Fault Refusal :=
  s.vec (.vmin c f) c f true 4 fun _ a b => laneMinOp f.etype.toNat a b
def execVmax (c : CoreId) (f : FmtV) (s : State) : Host.Outcome State Fault Refusal :=
  s.vec (.vmax c f) c f true 4 fun _ a b => laneMaxOp f.etype.toNat a b
def execVand (c : CoreId) (f : FmtV) (s : State) : Host.Outcome State Fault Refusal := s.vec (.vand c f) c f true 1 fun _ a b => a &&& b
def execVor (c : CoreId) (f : FmtV) (s : State) : Host.Outcome State Fault Refusal := s.vec (.vor c f) c f true 1 fun _ a b => a ||| b
def execVxor (c : CoreId) (f : FmtV) (s : State) : Host.Outcome State Fault Refusal := s.vec (.vxor c f) c f true 1 fun _ a b => a ^^^ b
def execVshl (c : CoreId) (f : FmtV) (s : State) : Host.Outcome State Fault Refusal :=
  s.vec (.vshl c f) c f (etInt f) 1 fun _ a b => laneShl f.etype.toNat a b
def execVshr (c : CoreId) (f : FmtV) (s : State) : Host.Outcome State Fault Refusal :=
  s.vec (.vshr c f) c f (etInt f) 1 fun _ a b => laneShr f.etype.toNat a b
def execVsar (c : CoreId) (f : FmtV) (s : State) : Host.Outcome State Fault Refusal :=
  s.vec (.vsar c f) c f (etInt f) 1 fun _ a b => laneSar f.etype.toNat a b
def execVabs (c : CoreId) (f : FmtV) (s : State) : Host.Outcome State Fault Refusal :=
  s.vec (.vabs c f) c f (f.vb == 0) 1 fun _ a _ => laneAbs f.etype.toNat a
def execVneg (c : CoreId) (f : FmtV) (s : State) : Host.Outcome State Fault Refusal :=
  s.vec (.vneg c f) c f (f.vb == 0) 1 fun _ a _ => laneNegate f.etype.toNat a

/-- VSEL: the predicate chooses between VA and VB in every lane. -/
def execVsel (c : CoreId) (f : FmtV) (s : State) : Host.Outcome State Fault Refusal :=
  s.regInstr (.vsel c f) c (f.etype != 7) 1 fun x =>
    let w := laneBits f.etype.toNat
    x.setV f.vd.toNat (ofLanes w ((List.range (512 / w)).map fun i =>
      if bit (x.preg f.p.toNat).toNat i then vlane (x.vreg f.va.toNat) w i else vlane (x.vreg f.vb.toNat) w i))

/-! ### Reductions (R110) -/

/-- The unmasked lanes of VA in ascending order. -/
def openValues (x : CoreSt) (f : FmtV) : List Nat :=
  let w := laneBits f.etype.toNat
  ((List.range (512 / w)).filter (bit (x.preg f.p.toNat).toNat)).map (vlane (x.vreg f.va.toNat) w)

/-- Sum in ascending order: a float sum rounds to FP32 at each step and to the lane format once at the end. -/
def sumLanes (et : Nat) : List Nat → Nat
  | [] => 0
  | v :: r =>
    if isFloat et then toLane et (f32 (r.foldl (fun acc y => toF32 (exactSum [f32 acc, ofLane et y])) (toF32 (ofLane et v))))
    else (r.foldl (· + ·) v) % 2 ^ laneBits et

def reduceLanes (et : Nat) (op : Nat → Nat → Nat → Nat) : List Nat → Nat
  | [] => 0
  | v :: r => r.foldl (op et) (op et v v)

/-- A reduction: the result in lane 0, zero in every other lane. With every lane masked the manual states no result: a free value
(log 47). -/
def State.vred (s : State) (i : Instr) (c : CoreId) (f : FmtV) (red : Nat → List Nat → Nat) : Host.Outcome State Fault Refusal :=
  s.instr i c fun s x =>
    if f.vb != 0 || f.etype = 7 then raise 1 x.pc.toNat else
    let et := f.etype.toNat
    let vs := openValues x f
    let r := if vs.isEmpty then (Config.freeOf [0x10, et, (x.vreg f.va.toNat).toNat]).toNat else red et vs
    .go (s.updCore c.key (·.setV f.vd.toNat (ofLanes (laneBits et) [r]))) (x.pc.toNat + 4) 12

def execVredsum (c : CoreId) (f : FmtV) (s : State) : Host.Outcome State Fault Refusal := s.vred (.vredsum c f) c f sumLanes
def execVredmax (c : CoreId) (f : FmtV) (s : State) : Host.Outcome State Fault Refusal := s.vred (.vredmax c f) c f fun et => reduceLanes et laneMaxOp
def execVredmin (c : CoreId) (f : FmtV) (s : State) : Host.Outcome State Fault Refusal := s.vred (.vredmin c f) c f fun et => reduceLanes et laneMinOp

/-! ### Comparisons (R112) -/

/-- Order of lanes for VCMP: −0 equals +0 (log 42). -/
def compareKey (et b : Nat) : Int :=
  let k := laneKey et b
  if isFloat et && decide (k < 0) then k + 1 else k

/-- VCMP: bit i for each unmasked lane, 0 elsewhere. The manual states no comparison of a NaN: such a bit is a free value (log 42). -/
def State.vcmp (s : State) (i : Instr) (c : CoreId) (f : FmtV) (legal : Bool) (op : Int → Int → Bool) (key : Nat → Nat → Int) :
    Host.Outcome State Fault Refusal :=
  s.instr i c fun s x =>
    if !legal || f.etype = 7 || bit f.vd.toNat 3 || f.vd.toNat % 8 = 0 then raise 1 x.pc.toNat else
    let et := f.etype.toNat
    let w := laneBits et
    let bitOf (i : Nat) : Bool :=
      let a := vlane (x.vreg f.va.toNat) w i
      let b := vlane (x.vreg f.vb.toNat) w i
      bit (x.preg f.p.toNat).toNat i && (if laneNan et a || laneNan et b then bit (Config.freeOf [0x31, et, a, b]).toNat i else op (key et a) (key et b))
    let r := (List.range (512 / w)).foldl (fun m i => if bitOf i then m + 2 ^ i else m) 0
    .go (s.updCore c.key (·.setP (f.vd.toNat % 8) (BitVec.ofNat 64 r))) (x.pc.toNat + 4) 1

def execVcmpEq (c : CoreId) (f : FmtV) (s : State) : Host.Outcome State Fault Refusal := s.vcmp (.vcmpEq c f) c f true (fun a b => a == b) compareKey
def execVcmpNe (c : CoreId) (f : FmtV) (s : State) : Host.Outcome State Fault Refusal := s.vcmp (.vcmpNe c f) c f true (fun a b => a != b) compareKey
def execVcmpLt (c : CoreId) (f : FmtV) (s : State) : Host.Outcome State Fault Refusal := s.vcmp (.vcmpLt c f) c f true (fun a b => a < b) compareKey
def execVcmpLe (c : CoreId) (f : FmtV) (s : State) : Host.Outcome State Fault Refusal := s.vcmp (.vcmpLe c f) c f true (fun a b => a ≤ b) compareKey
/-- VCMP LTU takes integer lanes only. -/
def execVcmpLtu (c : CoreId) (f : FmtV) (s : State) : Host.Outcome State Fault Refusal :=
  s.vcmp (.vcmpLtu c f) c f (etInt f) (fun a b => a < b) fun _ b => (b : Int)

/-! ### VGATE and VCVT (R85, R109) -/

def execVgate (c : CoreId) (fn : Byte) (f : FmtV) (s : State) : Host.Outcome State Fault Refusal :=
  s.instr (.vgate c fn f) c fun s x => match GateFn.ofCode fn.toNat with
    | some g =>
      if f.etype != 4 || f.vb != 0 then raise 1 x.pc.toNat else
      let par := (x.greg 31).toNat
      .go (s.updCore c.key (·.setV f.vd.toNat (vecMap x f fun _ a _ => gateApply g false (par % 2 ^ 32) (par / 2 ^ 32) a)))
        (x.pc.toNat + 4) 8
    | none => raise 1 x.pc.toNat

/-- Elements converted by VCVT: element i of VA at the source width becomes element i of VD at the destination width; the rest of VD
keeps its bits (log 48). -/
def convertLanes (x : CoreSt) (f : FmtV) (src dst : Fmt) (sat : Bool) : BitVec 512 :=
  let ws := 8 * src.size
  let wd := 8 * dst.size
  let n := 512 / Nat.max ws wd
  let d := x.vreg f.vd.toNat
  ofLanes wd ((List.range (512 / wd)).map fun i =>
    if i < n && bit (x.preg f.p.toNat).toNat i then dst.encode sat (src.decode (vlane (x.vreg f.va.toNat) ws i)) else vlane d wd i)

/-- VCVT between the formats 0x01 to 0x06; the manual gives no conversion to INT32 (R85). -/
def execVcvt (c : CoreId) (fn : Byte) (f : FmtV) (s : State) : Host.Outcome State Fault Refusal :=
  s.instr (.vcvt c fn f) c fun s x => match Fmt.ofCode f.vb.toNat, Fmt.ofCode (fn.toNat % 128) with
    | some src, some dst =>
      if f.etype != 0 || src = .int32 || dst = .int32 then raise 1 x.pc.toNat
      else .go (s.updCore c.key (·.setV f.vd.toNat (convertLanes x f src dst (bit fn.toNat 7)))) (x.pc.toNat + 4) 2
    | _, _ => raise 1 x.pc.toNat

/-! ### Format X -/

def xLanes (f : FmtX) : Nat := laneCount f.etype.toNat

def execBcast (c : CoreId) (f : FmtX) (s : State) : Host.Outcome State Fault Refusal :=
  s.regInstr (.bcast c f) c (f.etype != 7 && f.lane == 0) 2 fun x =>
    x.setV f.vd.toNat (ofLanes (laneBits f.etype.toNat) ((List.range (xLanes f)).map fun _ => (x.greg f.g.toNat).toNat))

def execInsert (c : CoreId) (f : FmtX) (s : State) : Host.Outcome State Fault Refusal :=
  s.regInstr (.insert c f) c (f.etype != 7 && decide (f.lane.toNat < xLanes f)) 2 fun x =>
    let w := laneBits f.etype.toNat
    x.setV f.vd.toNat (ofLanes w ((List.range (xLanes f)).map fun i =>
      if i = f.lane.toNat then (x.greg f.g.toNat).toNat else vlane (x.vreg f.vd.toNat) w i))

/-- EXTRACT sign-extends an integer lane. -/
def execExtract (c : CoreId) (f : FmtX) (s : State) : Host.Outcome State Fault Refusal :=
  s.regInstr (.extract c f) c (f.etype != 7 && decide (f.lane.toNat < xLanes f)) 2 fun x =>
    let w := laneBits f.etype.toNat
    let v := vlane (x.vreg f.vd.toNat) w f.lane.toNat
    x.setG f.g.toNat (BitVec.ofNat 64 (if isFloat f.etype.toNat then v else ofInt 64 (toInt w v)))

/-- Fields of PSET and PGET: ETYPE, LANE and VD[3] are 0. -/
def predOk (f : FmtX) : Bool := f.etype == 0 && f.lane == 0 && decide (f.vd.toNat < 8)

def execPset (c : CoreId) (f : FmtX) (s : State) : Host.Outcome State Fault Refusal :=
  s.regInstr (.pset c f) c (predOk f) 2 fun x => x.setP f.vd.toNat (x.greg f.g.toNat)
def execPget (c : CoreId) (f : FmtX) (s : State) : Host.Outcome State Fault Refusal :=
  s.regInstr (.pget c f) c (predOk f) 2 fun x => x.setG f.g.toNat (x.preg f.vd.toNat)

end Sys2Proof.Machine
end

