-- ==== Sys2Proof/Machine/OpticOps.lean ====
section
/-! DEFINITION. What the optical commands share (11): lasers, rings, lanes leaving service, the port taken down. -/

namespace Sys2Proof.Machine

/-- Laser `n` at manufacture: it carries lane `n`, or is a spare (R227). -/
def laserAtStart (n : Nat) : LaserSt := { state := if n < 32 then .carrying else .spare }
def PortSt.laser (x : PortSt) (n : Nat) : LaserSt := x.lasers.get (laserAtStart n) n
def PortSt.updLaser (x : PortSt) (n : Nat) (f : LaserSt → LaserSt) : PortSt := { x with lasers := x.lasers.upd (laserAtStart n) n f }
def PortSt.ring (x : PortSt) (n : Nat) : RingSt := x.rings.get {} n
def PortSt.updRing (x : PortSt) (n : Nat) (f : RingSt → RingSt) : PortSt := { x with rings := x.rings.upd {} n f }

/-- Channel on which a lane is sent, and received (R227). -/
def PortSt.sends (x : PortSt) (lane : Nat) : Nat := x.txChan.get lane lane
def PortSt.receives (x : PortSt) (lane : Nat) : Nat := x.rxChan.get lane lane
/-- The lane that a laser carries. -/
def PortSt.laneOf (x : PortSt) (n : Nat) : Option Nat := (List.range 32).find? fun l => x.sends l == n

/-- Spares that are healthy, in order of their numbers. -/
def PortSt.spares (x : PortSt) : List Nat := (List.range 36).filter fun n => (x.laser n).state == .spare

/-- The lowest spare. -/
def PortSt.spare (x : PortSt) : Option Nat := x.spares.head?

/-- Shore site of a port (R51). -/
def siteOf (port : Nat) : Nat := port / 4

/-- Boundary state of a shore site; the optics of an unpowered site do nothing (R423). -/
def State.siteOn (s : State) (site : Nat) : Bool := s.power.hold.get .unpowered (holdSite site) != .unpowered

/-- The site is on and its boundary released (R422, R423). -/
def State.siteOpen (s : State) (site : Nat) : Bool := s.power.hold.get .unpowered (holdSite site) == .released

/-- Initial bias of a laser of a port, by number. -/
def initialBias (port n : Nat) : Nat := Config.laserInitialBias (Fin.ofNat 128 port) (Fin.ofNat 36 n)

/-- Headroom in percent, as a whole number from below (R240). -/
def headroom (initial bias : Nat) : Int := if initial = 0 then 0 else (1250 * (initial : Int) - 1000 * bias) * 100 / (250 * initial)

/-! ### Rings (R228, R234, R237) -/

/-- Highest heater shift, in 0.01 GHz, and one free spectral range. -/
def shiftMax : Nat := 1080000
def shiftRange : Int := 720000
def shiftMid : Int := 540000

def inRange (v : Int) : Bool := decide (0 ≤ v) && decide (v ≤ shiftMax)

/-- Heater shift after a move by `up` channels: of the resonance orders inside the range, the one nearer 5.4 THz. -/
def moveShift (shift : Nat) (up : Int) : Nat :=
  let v : Int := shift - up * 20000
  (([v, v + shiftRange, v - shiftRange].filter inRange).foldl (fun (b : Option Int) v => match b with
    | none => some v
    | some w => if (v - shiftMid).natAbs < (w - shiftMid).natAbs then some v else some w) none).getD v |>.toNat

/-- The heater shift is in the margin band (R228). -/
def inMargin (shift : Nat) : Bool := decide (shift < 108000) || decide (972000 < shift)

/-- Heater shift after a change of `d` hundredths of a degree at the site: a ring moves 14 GHz lower for 1 °C, and the heater supplies
the rest (R228, R234). -/
def feedShift (shift : Nat) (d : Int) : Int := (shift : Int) - 14 * d

/-- The prepared spare is unlit, and its substitution ends (R231). -/
def PortSt.dropPrepared (x : PortSt) : PortSt := match x.subst with
  | some b => { x.updLaser b.spare fun y => { y with lit := y.state == .carrying } with subst := none }
  | none => x
/-- What a failed ring's entry in the repair map keeps while its site has no power (11, Table 5; R64). -/
def PortSt.failedRings (x : PortSt) : Table RingSt := (x.rings.keep fun _ r => r.state == .failed).map fun _ _ => { state := .failed }

/-! ### Lanes leaving service (R239, R243; 11, Table 5) -/

/-- A lane leaves striping for a move or a hop: no report. -/
def State.laneAside (s : State) (port lane : Nat) : State :=
  let s := s.updPort port fun x => { x with lanes := x.lanes.filter (· != lane) }
  if (s.port port).lanes.length ≤ 30 then s.voidPort port else s

/-- Below 16 lanes the port is taken down and its link resets (R243, R272). -/
def State.portDown (s : State) (port : Nat) : State :=
  let s := s.emit 0x406 3 (srcPort port) none [port, (s.port port).lanes.length]
  let s := s.updPort port fun x => { x.dropPrepared with optic := .down, lanes := [], peerMove := none }
  if (s.port port).link = .down then s else s.linkReset port .down

/-- A lane in service leaves it for a fault. -/
def State.laneOut (s : State) (port lane : Nat) : State :=
  if !((s.port port).lanes.contains lane) then s else
  let s := s.laneAside port lane
  let n := (s.port port).lanes.length
  let s := s.emit 0x405 2 (srcPort port) none [port, lane, n]
  if n < 16 then s.portDown port else s

/-- The receiving end of a dark or erring lane sends LANE_DROP, and the lane leaves striping at the agreed codeword (R257); without a link it
leaves at once. -/
def State.dropLane (s : State) (port lane : Nat) : State :=
  if (s.port port).link = .up then s.sendLink port 2 lane 0 else s.laneOut port lane
/-- A lane joins striping, lanes ascending. -/
def insertLane (lane : Nat) : List Nat → List Nat
  | [] => [lane]
  | l :: r => if lane < l then lane :: l :: r else if lane = l then l :: r else l :: insertLane lane r

/-- LASER_SPARES_EXHAUSTED, once for a port (R243). -/
def State.checkSpares (s : State) (port : Nat) : State :=
  let x := s.port port
  if x.spares.isEmpty && !x.exhausted then
    (s.updPort port fun x => { x with exhausted := true }).emit 0x403 2 (srcPort port) none [port]
  else s

/-- A lane becomes due for substitution. -/
def PortSt.dueFor (x : PortSt) (lane : Nat) : PortSt := { x with due := insertLane lane x.due }

/-- A laser carrying a lane reaches end of life or fails: the lane leaves service at once, and its substitution is due (R243). -/
def State.laserFailed (s : State) (port n bias : Nat) : State :=
  match (s.port port).laneOf n with
  | none => s
  | some lane =>
    let s := s.updPort port fun x => (x.updLaser n fun l => { l with state := .failed, lit := false }).dueFor lane
    let s := s.emit 0x404 3 (srcPort port) none [port, lane, n, initialBias port n, bias]
    s.laneOut port lane

/-- The modulator ring of a substitution moves from one channel to another (R237). -/
def PortSt.moveRing (x : PortSt) (ring from_ to_ : Nat) : PortSt :=
  x.updRing ring fun r => { r with shift := moveShift r.shift ((to_ : Int) - from_) }

/-- A substitution is given up: the lane returns to its old laser where that has not reached end of life, and stays due, with its spare lit
for the retry (R242, R247). -/
def State.revertMove (s : State) (port : Nat) (b : Substitution) : State :=
  s.updPort port fun x =>
    let old := x.sends b.lane
    if !b.out then x else
    let x := { x with subst := some { b with out := false } }
    let x := x.moveRing b.lane b.spare old
    if (x.laser old).state = .carrying then { x with lanes := insertLane b.lane x.lanes } else x

/-- Both rings of a lane are locked. -/
def PortSt.laneLocked (x : PortSt) (lane : Nat) : Bool := (x.ring lane).state == .locked && (x.ring (32 + lane)).state == .locked

/-- The filter that the peer's move has taken to another channel goes back to its old one, and its lane returns (R242). -/
def PortSt.revertPeer (x : PortSt) : PortSt := match x.peerMove with
  | some (l, old) =>
    { x.moveRing (32 + l) (x.receives l) old with rxChan := x.rxChan.put l old, lanes := insertLane l x.lanes, peerMove := none }
  | none => x
/-- The spare whose test is due: spares are tested in turn (R244). -/
def PortSt.dueSpare (x : PortSt) : Option Nat := (x.spares.find? fun n => decide (x.nextTest ≤ n)).orElse fun _ => x.spare
/-- A hop of the ring is due: it is locked with its heater in the margin band, and no substitution that can run replaces the hop (R237,
R247). -/
def PortSt.hopDue (x : PortSt) (r : Nat) : Bool :=
  (x.ring r).state == .locked && inMargin (x.ring r).shift && !(decide (r < 32) && x.due.contains r && !(x.spares.isEmpty))
/-- May the ring be locked at this heater shift: a full acquisition chooses the order nearest 5.4 THz (R235), a search stays within 90 GHz
of the held shift (R236)? -/
def RingSt.mayLockAt (x : RingSt) (shift : Nat) : Bool :=
  if x.state = .held then decide (((shift : Int) - x.shift).natAbs ≤ 9000) && decide (shift ≤ shiftMax)
  else decide (180000 ≤ shift) && decide (shift ≤ 900000)

def State.cassette (s : State) (c : Nat) : CassetteSt := s.strait.cassettes.get {} c
def State.updCassette (s : State) (c : Nat) (f : CassetteSt → CassetteSt) : State :=
  { s with strait := { s.strait with cassettes := s.strait.cassettes.upd {} c f } }
def srcCassette (c : Nat) : Source := srcIn 0xFF 0x0A c

end Sys2Proof.Machine
end

