-- ==== Sys2Proof/Machine/Optics.lean ====
section
/-! DEFINITION. The optical commands of the Strait ports (11). -/

namespace Sys2Proof.Machine

/-- R230, R240, R243: a lit laser's normalised bias in 10 µA, or none where its power loop cannot reach locked power. -/
def execLaserBiasSample (port : Port) (laser : Laser) (bias : Option (BitVec 16)) (s : State) : Host.Outcome State Fault Refusal :=
  let (p, n) := (port.val, laser.val)
  let l := (s.port p).laser n
  if !l.lit || !(s.siteOn (siteOf p)) then .next s else
  match bias with
  | none => .next (if l.state = .carrying then s.laserFailed p n (l.bias.getD 0) else s)
  | some b =>
    let b := b.toNat
    let i := initialBias p n
    let s := s.updPort p (·.updLaser n fun l => { l with bias := some b })
    let last := !((List.range 36).any fun m => decide (n < m) && ((s.port p).laser m).lit)
    let s := if last then s.bgCycle 14 0xFF p else s
    match (s.port p).laneOf n with
    | none => .next s
    | some lane =>
      if l.state != .carrying then .next s else
      let s := if 49 * i < 40 * b && !l.lowRaised then
          ((s.updPort p fun x => (x.updLaser n fun l => { l with lowRaised := true }).dueFor lane).emit 0x401 2 (srcPort p) none
            [p, lane, n, i, b])
        else s
      .next (if 5 * i ≤ 4 * b then s.laserFailed p n b else s)

/-- R234, R228, R247: the heaters of the locked rings of the site's four ports follow its temperature, in 0.01 °C. A heater that
reaches its end loses the lock, by what it cannot supply, and the ring searches under R236. -/
def execRingFeedForward (site : Site) (temp : Int) (s : State) : Host.Outcome State Fault Refusal :=
  let n := site.val
  if !(s.siteOn n) then .next s else
  let old := s.strait.siteTemp.get temp n
  let s := { s with strait := { s.strait with siteTemp := s.strait.siteTemp.put n temp } }
  if temp = old then .next s else
  .next ((List.range 4).foldl (fun s k =>
    let p := n * 4 + k
    (s.port p).rings.keys.foldl (fun s r =>
      let x := (s.port p).ring r
      if x.state != .locked then s else
      let v := feedShift x.shift (temp - old)
      if 0 < v && decide (v < shiftMax) then s.updPort p (·.updRing r fun y => { y with shift := v.toNat })
      else
        let end_ : Nat := if v ≤ 0 then 0 else shiftMax
        let err : Int := (v - end_) / 10
        ((s.updPort p (·.updRing r fun y => { y with shift := end_, state := .held, err := err })).emit 0x407 2 (srcPort p) none
          [p, r % 32, i64 err]).laneOut p (r % 32)) s) s)

/-- R234: the set point moves by at most 0.5 GHz; the lane stays in service. A trim gives way to a move (R247). -/
def execSetPointTrim (port : Port) (lane : Lane) (step : Int) (s : State) : Host.Outcome State Fault Refusal :=
  let (p, l) := (port.val, lane.val)
  let x := s.port p
  if 50 < step.natAbs || !(x.lanes.contains l) || (x.ring l).state != .locked || (match x.subst with
      | some b => b.lane == l
      | none => false) then .next s else
  let s := s.updPort p (·.updRing l fun r => { r with setPoint := r.setPoint + step })
  .next (if x.lanes.getLast? = some l then s.bgCycle 12 0xFF p else s)

/-- R235, R236: a ring is locked at a heater shift. The port's optics are locked once every ring that has not failed is. A lane whose rings are
both locked again is offered with LANE_ADD (R257). Drop filters hold while the port is in loss of light (R245). -/
def execRingLockAcquired (port : Port) (ring : Ring) (shift : Nat) (s : State) : Host.Outcome State Fault Refusal :=
  let (p, r) := (port.val, ring.val)
  let x := s.port p
  let st := (x.ring r).state
  if st = .locked || st = .failed || !((x.ring r).mayLockAt shift) || x.optic = .loss && 32 ≤ r || !(s.siteOn (siteOf p)) then .next s else
  let t := (s.updPort p fun x =>
    let x := x.updRing r fun y => { y with state := .locked, shift := shift, err := 0, fails := 0 }
    if (x.optic = .acquiring || x.optic = .dark) && (List.range 64).all fun n =>
        (x.ring n).state == .locked || (x.ring n).state == .failed then { x with optic := .locked }
    else x)
  let l := r % 32
  .next (if (t.port p).laneLocked l && !((t.port p).lanes.contains l) && (t.port p).link == .up then t.sendLink p 3 l 0 else t)

/-- R236: a locked ring whose error, in 0.1 GHz, has left ±2 GHz for 1 ms takes its lane out and searches. -/
def execRingUnlocked (port : Port) (ring : Ring) (err : Int) (s : State) : Host.Outcome State Fault Refusal :=
  let (p, r) := (port.val, ring.val)
  if ((s.port p).ring r).state != .locked || err.natAbs ≤ 20 then .next s else
  let s := s.updPort p (·.updRing r fun y => { y with state := .held, err := err })
  .next ((s.emit 0x407 2 (srcPort p) none [p, r % 32, i64 err]).laneOut p (r % 32))

/-- R236: the search near the held shift has not found the resonance in 2 ms. R235: on a ring that acquires, its acquisition has failed
(DEDUCED, log 173); the second failure fails the ring for good, and its lane is out (11, Table 5). -/
def execRingRelockTimeout (port : Port) (ring : Ring) (s : State) : Host.Outcome State Fault Refusal :=
  let (p, r) := (port.val, ring.val)
  let x := s.port p
  let y := x.ring r
  if x.optic = .dark || x.optic = .loss && 32 ≤ r || !(s.siteOn (siteOf p)) then .next s
  else if y.state = .held then .next (s.updPort p (·.updRing r fun y => { y with state := .acquiring }))
  else if y.state != .acquiring then .next s
  else if y.fails = 0 then .next (s.updPort p (·.updRing r fun y => { y with fails := 1 }))
  else .next (((s.updPort p (·.updRing r fun y => { y with state := .failed })).emit 0x409 3 (srcPort p) none [p, r % 32]).laneOut p (r % 32))

/-- R237, R238, R247: a hop by one free spectral range towards mid-range, whole in one command (log 37). It waits while a lane of the
port is out for a move, or where a lower lane's hop is due, and a substitution due on the lane replaces it. -/
def execRingHop (port : Port) (ring : Ring) (s : State) : Host.Outcome State Fault Refusal :=
  let (p, r) := (port.val, ring.val)
  let x := s.port p
  let moving := x.peerMove.isSome || (match x.subst with
    | some b => b.out
    | none => false)
  let first := !((List.range 64).any fun q => decide (q % 32 < r % 32) && x.hopDue q)
  if !(x.hopDue r) || moving || !first then .next s else
  let out := if x.lanes.contains (r % 32) then x.lanes.length - 1 else x.lanes.length
  let s := s.updPort p fun x =>
    { x.updRing r fun y => { y with shift := if y.shift < 108000 then y.shift + 720000 else y.shift - 720000 } with
      hops := satAdd 32 x.hops 1 }
  let s := s.emit 0x408 0 (srcPort p) none [p, r % 32]
  .next (if out ≤ 30 then s.voidPort p else s)

/-- R241, Table 3, steps 1 and 2: the lowest due lane's substitution lights the lowest spare and sends the lane-move notice, which a retry
sends again (R242). -/
def execLaserSubstitution (port : Port) (lane : Lane) (s : State) : Host.Outcome State Fault Refusal :=
  let (p, l) := (port.val, lane.val)
  let x := s.port p
  let prepared := x.subst.map (·.spare)
  match prepared.orElse fun _ => x.spare with
  | none => .next s
  | some n =>
    let other := x.subst.any fun b => b.lane != l || b.out
    if !(x.due.contains l) || prepared.isNone && x.due.head? ≠ some l || other || x.peerMove.isSome || x.optic = .loss ||
        x.optic = .down || !(s.siteOn (siteOf p)) || x.linkCmds.any (fun c => c.mine && c.cmd == 1) then .next s
    else
      let s := s.updPort p fun x => { x.updLaser n fun y => { y with lit := true } with subst := some ⟨l, n, false⟩ }
      .next (if x.link = .up then s.sendLink p 1 l n else s)

/-- R241, Table 3, steps 7 and 8: the lane is back on its new channel, the old laser is off and worn. At the receiving end the moved
filter's lane is back. -/
def execLaneReturned (port : Port) (lane : Lane) (s : State) : Host.Outcome State Fault Refusal :=
  let (p, l) := (port.val, lane.val)
  let x := s.port p
  if x.optic = .loss then .next s else
  match x.subst, x.peerMove with
  | some b, _ =>
    if b.lane ≠ l || !b.out then .next s else
    let s := s.updPort p fun x =>
      let x := x.updLaser (x.sends l) fun y => { y with state := if y.state = .failed then .failed else .worn, lit := false }
      let x := x.updLaser b.spare fun y => { y with state := .carrying }
      { x with
        txChan := x.txChan.put l b.spare
        lanes := insertLane l x.lanes
        due := x.due.filter (· != l)
        tries := x.tries.drop l
        subst := none
        substitutions := satAdd 32 x.substitutions 1 }
    .next ((s.emit 0x402 1 (srcPort p) none [p, l, b.spare]).checkSpares p)
  | none, some m =>
    if m.1 ≠ l then .next s
    else .next (s.updPort p fun x => { x with lanes := insertLane l x.lanes, peerMove := none })
  | none, none => .next s

/-- R242: the lane reverts and stays due; a second failure of the lane with the same spare marks that spare failed. At the receiving end the
filter goes back to its old channel. Loss of light has abandoned the substitution, so that it does not time out (R247). -/
def execSubstitutionTimeout (port : Port) (lane : Lane) (s : State) : Host.Outcome State Fault Refusal :=
  let (p, l) := (port.val, lane.val)
  let x := s.port p
  if x.optic = .loss then .next s else
  match x.subst, x.peerMove with
  | some b, _ =>
    if b.lane ≠ l || !b.out then .next s else
    let s := s.revertMove p b
    if x.tries.get (0, 0) l ≠ (b.spare, 1) then .next (s.updPort p fun x => { x with tries := x.tries.put l (b.spare, 1) })
    else .next ((s.updPort p fun x => { (x.dropPrepared).updLaser b.spare fun y => { y with state := .failedSpare, lit := false } with
      tries := x.tries.drop l }).checkSpares p)
  | none, some m =>
    if m.1 ≠ l then .next s
    else .next (s.updPort p (·.revertPeer))
  | none, none => .next s

/-- R244: the spare whose turn it is is lit for its test, unless another spare is (R231), and passes at no more than 1.1 times its initial
bias; the test is whole in one command. A prepared substitution comes first (R247). -/
def execSpareLaserTest (port : Port) (laser : Laser) (bias : BitVec 16) (s : State) : Host.Outcome State Fault Refusal :=
  let (p, n) := (port.val, laser.val)
  let x := s.port p
  if x.dueSpare != some n || x.subst.isSome || !(s.siteOn (siteOf p)) then .next s else
  let last := x.spares.getLast? = some n
  let s := s.updPort p fun x => { x.updLaser n fun y => { y with bias := some bias.toNat } with nextTest := if last then 0 else n + 1 }
  let s := if last then s.bgCycle 13 0xFF p else s
  if 10 * bias.toNat ≤ 11 * initialBias p n then .next s
  else .next (((s.updPort p (·.updLaser n fun y => { y with state := .failedSpare, lit := false })).emit 0x40D 2 (srcPort p) none [p, n]).checkSpares p)

/-- R245, R271: every lane in service is dark; the drop filters hold, and the retrain starts. -/
def execLossOfLight (port : Port) (brightest : Int) (s : State) : Host.Outcome State Fault Refusal :=
  let p := port.val
  let x := s.port p
  if x.lanes.isEmpty && x.link != .retraining || x.optic = .loss || x.optic = .down || x.optic = .dark then .next s else
  let s := s.updPort p fun x =>
    { (List.range 32).foldl (fun x l => x.updRing (32 + l) fun r =>
        { r with state := if r.state = .failed then .failed else .held }) x with
      optic := .loss, losses := satAdd 32 x.losses 1 }
  .next ((s.emit 0x40B 2 (srcPort p) none [p, i64 brightest]).retrain p 0)

/-- R245, R247: light is back; the filters search for their locks, with their lanes out of service, and an abandoned move reverts, of this end
or of the peer. -/
def execLightRestored (port : Port) (s : State) : Host.Outcome State Fault Refusal :=
  let p := port.val
  let x := s.port p
  if x.optic ≠ .loss then .next s else
  let s := s.updPort p fun x => { x with optic := .acquiring }
  let s := match x.subst with
    | some b => s.revertMove p b
    | none => s
  let s := s.updPort p fun x =>
    let x := x.revertPeer
    { x with lanes := x.lanes.filter x.laneLocked }
  .next (s.emit 0x40C 1 (srcPort p) none [p])

/-- R245, R247: one lane is dark while others are lit; not while a lane-move notice for it is open. -/
def execLaneDark (port : Port) (lane : Lane) (s : State) : Host.Outcome State Fault Refusal :=
  let (p, l) := (port.val, lane.val)
  let x := s.port p
  let moving := match x.peerMove with
    | some m => m.1 == l
    | none => false
  if !(x.lanes.contains l) || x.lanes.length < 2 || x.optic = .loss || moving then .next s
  else .next ((s.emit 0x40A 2 (srcPort p) none [p, l]).dropLane p l)

/-- R246. -/
def execCassetteRemoved (c : Fin 8) (s : State) : Host.Outcome State Fault Refusal :=
  if !(s.cassette c.val).present then .next s
  else .next ((s.updCassette c.val fun x => { x with present := false, changed := s.clock.base }).emit 0x40E 1 (srcCassette c.val) none [c.val])

/-- R246. -/
def execCassetteInserted (c : Fin 8) (ident : CassetteId) (s : State) : Host.Outcome State Fault Refusal :=
  if (s.cassette c.val).present then .next s
  else .next ((s.updCassette c.val fun x =>
    { present := true, serial := ident.serial, loss := ident.loss, insertions := satAdd 32 x.insertions 1, changed := s.clock.base }).emit
      0x40F 1 (srcCassette c.val) none [c.val])

end Sys2Proof.Machine
end

