-- ==== Sys2Proof/Machine/LambOps.lean ====
section
/-! DEFINITION. What the Lamb commands share (10): geometry checks, source elements, pixel conversion, writing output rows. -/

namespace Sys2Proof.Machine

/-! ### Formats and layouts (R204 to R206) -/

def isPixel (fmt : Nat) : Bool := fmt == 0x10 || fmt == 0x11
/-- Element size of an image's format (R205). -/
def pixelSize (fmt : Nat) : Nat := if isPixel fmt then 1 else fmtSize fmt
/-- Format of the elements that a source gives: BF16 for a pixel code (R211). -/
def elemFmt (fmt : Nat) : Nat := if isPixel fmt then 2 else fmt

/-- The layout of an image of `w` × `h` pixels meets R205 and R206. -/
def LambImage.layoutOk (g : LambImage) (w h : Nat) : Bool :=
  if g.fmt = 0x11 then g.c == 3 && g.pixStride == 1 && w % 2 == 0 && h % 2 == 0 && decide (w ≤ g.rowStride)
  else (g.fmt != 0x10 || g.c == 3 && g.pixStride == 3) && decide (g.c * pixelSize g.fmt ≤ g.pixStride) &&
    decide ((w - 1) * g.pixStride + g.c * pixelSize g.fmt ≤ g.rowStride)

/-- Bytes from OFFSET that an image of `w` × `h` pixels reaches. -/
def LambImage.extent (g : LambImage) (w h : Nat) : Nat :=
  if g.fmt = 0x11 then (h + h / 2 - 1) * g.rowStride + w
  else (h - 1) * g.rowStride + (w - 1) * g.pixStride + g.c * pixelSize g.fmt

/-- The extent lies inside its class, and inside one operand store in class 0x3 (R222, check 8). -/
def LambImage.fits (g : LambImage) (w h : Nat) : Bool :=
  decide (g.offset * 64 + g.extent w h ≤ classLimit g.cls) &&
    (g.cls != 3 || decide (g.offset * 64 % 2 ^ 21 + g.extent w h ≤ 2 ^ 21))

/-- The extents of source and destination share no byte (R222). -/
def lambApart (a : LambImage) (m : Nat) (b : LambImage) (n : Nat) : Bool :=
  a.cls != b.cls || decide (a.offset * 64 + m ≤ b.offset * 64) || decide (b.offset * 64 + n ≤ a.offset * 64)

/-- Output width or height of R209; 0 where the window does not fit. -/
def windowOut (len before after d k step : Nat) : Nat :=
  if len + before + after < d * (k - 1) + 1 then 0 else (len + before + after - (d * (k - 1) + 1)) / step + 1

def lambOw (g : LambImage) (w : LambWin) (p : LambPad) : Nat := windowOut g.w p.pl p.pr w.dx w.kw w.sx
def lambOh (g : LambImage) (w : LambWin) (p : LambPad) : Nat := windowOut g.h p.pt p.pb w.dy w.kh w.sy

/-- What every command with OY checks: the layouts of R204 to R206, the output range, the extents, no overlap (R222). -/
def lambCommon (g d : LambImage) (ow oh : Nat) (oy : OyRange) (pixelsLoaded : Bool) : Bool :=
  decide (g.cls ≤ 3) && decide (d.cls ≤ 3) && g.w != 0 && g.h != 0 && g.c != 0 && ow != 0 && oh != 0 && oy.count != 0 &&
    g.layoutOk g.w g.h && d.layoutOk ow oy.count.toNat && decide (oy.first.toNat + oy.count.toNat ≤ oh) &&
    g.fits g.w g.h && d.fits ow oy.count.toNat && lambApart g (g.extent g.w g.h) d (d.extent ow oy.count.toNat) &&
    (pixelsLoaded || !(isPixel g.fmt || isPixel d.fmt))

/-- Formats of 10, Table 2. -/
def patchFmts (g d : Nat) : Bool := ((decide (1 ≤ g) && decide (g ≤ 7)) || isPixel g) && d == elemFmt g
def lconvFmts (g d : Nat) : Bool := (g == 2 || isPixel g) && (d == 1 || d == 2 || d == 3 || isPixel d)
def floatFmts (g d : Nat) : Bool := decide (1 ≤ g) && decide (g ≤ 3) && decide (1 ≤ d) && decide (d ≤ 3)

/-! ### Source elements -/

def LambSt.f32At (l : LambSt) (o : Nat) : Nat := fieldAt l.buf o 4

/-- Byte address of channel `c` of pixel (x, y) (R205, R206, R211). -/
def LambImage.addr (g : LambImage) (isle x y c : Nat) : Nat :=
  let o := g.offset * 64
  if g.fmt = 0x11 then
    (if c = 0 then gaddr isle g.cls (o + y * g.rowStride + x)
     else gaddr isle g.cls (o + g.h * g.rowStride + y / 2 * g.rowStride + x / 2 * 2 + (c - 1)))
  else gaddr isle g.cls (o + y * g.rowStride + x * g.pixStride + c * pixelSize g.fmt)

/-- A byte of a pixel code as a BF16 pattern (R211). -/
def LambSt.pixelIn (l : LambSt) (b c : Nat) : Nat :=
  let v := f32Mul (toF32 (.fin false b 0)) (l.f32At (4 * c))
  Fmt.encode .bf16 false (f32 (f32Add v (l.f32At (12 + 4 * c))))

/-- Element (x, y, c) of the source, as a pattern of `elemFmt`. -/
def State.lambElem (s : State) (isle : Nat) (g : LambImage) (x y c : Nat) : Nat :=
  let v := s.mem.readLe (g.addr isle x y c) (pixelSize g.fmt)
  if isPixel g.fmt then (s.lamb isle).pixelIn v c else v

/-- Every read of a class of the isle is answered correctly. -/
def State.readsClean (s : State) (isle cls : Nat) : Bool := s.bad.rows.isEmpty && !(s.stackRefuses (gaddr isle cls 0))

/-- What stops the read of channels `c0` to `c0 + n − 1` of a pixel. -/
def State.lambBad (s : State) (isle : Nat) (g : LambImage) (c0 n : Nat) (xy : Nat × Nat) : Option AccessFault :=
  if s.readsClean isle g.cls then none
  else (List.range n).findSome? fun k => s.readFault (g.addr isle xy.1 xy.2 (c0 + k)) (pixelSize g.fmt)

/-- Source position of tap `t` of output pixel (ox, oy), or padding (R209). -/
def tapAt (g : LambImage) (w : LambWin) (p : LambPad) (ox oy t : Nat) : Option (Nat × Nat) :=
  let x := ox * w.sx + t % w.kw * w.dx
  let y := oy * w.sy + t / w.kw * w.dy
  if p.pl ≤ x && p.pt ≤ y && decide (x - p.pl < g.w) && decide (y - p.pt < g.h) then some (x - p.pl, y - p.pt) else none

/-! ### Output -/

/-- An FP32 pattern converted to a pixel byte (R211). -/
def LambSt.pixelOut (l : LambSt) (v c : Nat) : Nat :=
  match f32 (f32Add (f32Mul v (l.f32At (24 + 4 * c))) (l.f32At (36 + 4 * c))) with
  | .nan => 0
  | .inf neg => if neg then 0 else 255
  | .fin neg m e =>
    let q := if 0 ≤ e then m * 2 ^ e.toNat else divEven m (2 ^ (-e).toNat)
    if neg then 0 else Nat.min q 255

/-- An FP32 pattern converted to a number format (R85). -/
def convertF32 (fmt v : Nat) : Nat := match Fmt.ofCode fmt with
  | some f => f.encode false (f32 v)
  | none => 0

/-- The stores of one output row: its pixels, each a list of patterns, as one run where they lie next to each other. -/
def rowRun (a stride z : Nat) (pixels : List (List Nat)) : List (Nat × List Byte) :=
  let bytes := pixels.map fun p => p.flatMap (leBytes z)
  if bytes.all fun b => b.length == stride then [(a, bytes.flatten)]
  else ((List.range bytes.length).zip bytes).map fun nb => (a + nb.1 * stride, nb.2)

/-- Work through output rows in turn: what each must read is correct, then its stores are made; a fault ends the command. -/
def State.lambRows (s : State) (c isle : Nat) (rows : List Nat) (bad : State → Nat → Option AccessFault)
    (stores : State → Nat → List (Nat × List Byte)) : State :=
  let (s, ok) := rows.foldl (fun (sb : State × Bool) r =>
    if !sb.2 then sb else
    match bad sb.1 r with
    | some f => (sb.1.accessFault c (srcIn isle 4 0) f noPlace noPlace, false)
    | none => sb.1.performStores c (srcIn isle 4 0) (stores sb.1 r)) (s, true)
  if ok then s.updLamb isle fun l => { l with completed := satAdd 32 l.completed 1 } else s

/-- Address of output row `r` of a destination that is no YC420 image. -/
def LambImage.rowAddr (d : LambImage) (isle r : Nat) : Nat := gaddr isle d.cls (d.offset * 64 + r * d.rowStride)

/-- The Lamb engine of the isle performs this command of the context's run, in flight on it, outside its BG_WINDOWs (R31, R42, R49). -/
def State.lambRuns (s : State) (c isle : Nat) (op : PlanOp) : Bool :=
  (s.engineOp c 3 isle 0 op).isSome && (s.lamb isle).state != .disabled && !(s.inWindow (windowKey isle 3 0))

/-- What stops the reads of the taps of an output row. -/
def State.tapsBad (s : State) (isle : Nat) (g : LambImage) (w : LambWin) (p : LambPad) (ow oy t0 tn c0 cn : Nat) : Option AccessFault :=
  if s.readsClean isle g.cls then none
  else (List.range ow).findSome? fun ox => (List.range tn).findSome? fun t =>
    (tapAt g w p ox oy (t0 + t)).bind (s.lambBad isle g c0 cn)

/-! ### LCONV (R213) -/

/-- First weight byte of the parameter buffer (R210). -/
def lambWoff (co : Nat) : Nat := ceilDiv (64 + 4 * co) 64 * 64

/-- One accumulator of an LCONV: taps in ascending order, channels in groups of 16, one rounding for each group. -/
def State.lconvSum (s : State) (isle : Nat) (g : LambImage) (w : LambWin) (p : LambPad) (co ox oy oc : Nat) : Nat :=
  let buf := (s.lamb isle).buf
  (List.range (w.kw * w.kh)).foldl (fun acc t =>
    let at_ := tapAt g w p ox oy t
    (List.range (ceilDiv g.c 16)).foldl (fun acc u =>
      let terms := ((List.range (Nat.min 16 (g.c - u * 16))).map (u * 16 + ·)).map fun ci =>
        let x := match at_ with
          | some (x, y) => Fmt.decode .bf16 (s.lambElem isle g x y ci)
          | none => .fin false 0 0
        x.mul (Fmt.decode .bf16 (fieldAt buf (lambWoff co + ((t * g.c + ci) * co + oc) * 2) 2))
      toF32 (exactSum (f32 acc :: terms))) acc) 0

/-- An output element of an LCONV as FP32: bias and gate function. -/
def State.lconvElem (s : State) (isle : Nat) (g : LambImage) (w : LambWin) (p : LambPad) (o : LconvOps) (co ox oy oc : Nat) : Nat :=
  let l := s.lamb isle
  let v := s.lconvSum isle g w p co ox oy oc
  let v := if o.bias then f32Add v (l.f32At (64 + 4 * oc)) else v
  match GateFn.ofCode o.func.toNat with
  | some f => gateApply f false (l.f32At 48) (l.f32At 52) v
  | none => v

/-- One chroma byte of a 2 × 2 block of FP32 values (R211). -/
def LambSt.chroma (l : LambSt) (c tl tr bl br : Nat) : Nat :=
  l.pixelOut (f32Mul (f32Add (f32Add (f32Add tl tr) bl) br) 0x3E800000) c

/-- The stores of output row `oy` of an LCONV, the `r`-th of its command. In YC420 the chroma row of a pair is written with its lower
row; the plane follows the OY_COUNT luma rows of the command (log 52). -/
def State.lconvRow (s : State) (isle : Nat) (g d : LambImage) (w : LambWin) (p : LambPad) (o : LconvOps) (ow oy r : Nat) :
    List (Nat × List Byte) :=
  let l := s.lamb isle
  let el (ox oy c : Nat) : Nat := s.lconvElem isle g w p o d.c ox oy c
  if d.fmt = 0x11 then
    let luma := rowRun (d.rowAddr isle r) 1 1 ((List.range ow).map fun ox => [l.pixelOut (el ox oy 0) 0])
    if r % 2 = 0 then luma else
    luma ++ rowRun (gaddr isle d.cls (d.offset * 64 + o.oy.count.toNat * d.rowStride + r / 2 * d.rowStride)) 2 1
      ((List.range (ow / 2)).map fun i => [1, 2].map fun c =>
        l.chroma c (el (2 * i) (oy - 1) c) (el (2 * i + 1) (oy - 1) c) (el (2 * i) oy c) (el (2 * i + 1) oy c))
  else rowRun (d.rowAddr isle r) d.pixStride (pixelSize d.fmt) ((List.range ow).map fun ox => (List.range d.c).map fun c =>
    if isPixel d.fmt then l.pixelOut (el ox oy c) c else convertF32 d.fmt (el ox oy c))

/-! ### POOL (R214) -/

/-- FP32 pattern of a float source element; exact. -/
def State.lambF32 (s : State) (isle : Nat) (g : LambImage) (x y c : Nat) : Nat := toF32 (fmtValue g.fmt (s.lambElem isle g x y c))

/-- An FP32 pattern divided by `n`, rounded once. -/
def f32Div (v n : Nat) : Nat := match f32 v with
  | .fin neg m e => roundRat .fp32 false neg m n e
  | .inf neg => if neg then 0xFF800000 else 0x7F800000
  | .nan => canonNan

def State.poolElem (s : State) (isle : Nat) (g : LambImage) (w : LambWin) (p : LambPad) (mode ox oy c : Nat) : Nat :=
  let taps := (List.range (w.kw * w.kh)).map fun t => (tapAt g w p ox oy t).map fun xy => s.lambF32 isle g xy.1 xy.2 c
  let inside := taps.filterMap id
  if mode = 0 then inside.foldl f32Max 0xFF800000 else
  let sum := match taps.map (·.getD 0) with
    | [] => 0
    | v :: r => r.foldl f32Add v
  let n := if mode = 1 then inside.length else w.kw * w.kh
  if n = 0 then 0 else f32Div sum n

/-! ### RESAMPLE (R215) -/

/-- rn32(0.75 × a + 0.25 × b). -/
def blend (a b : Nat) : Nat :=
  toF32 (exactSum [(Fp.fin false 3 (-2)).mul (f32 a), (Fp.fin false 1 (-2)).mul (f32 b)])

/-- The two source indices of output index `o`, clamped to 0 to `n` − 1. -/
def blendAt (o n : Nat) : Nat × Nat :=
  let i := o / 2
  (i, if o % 2 = 0 then i - 1 else Nat.min (i + 1) (n - 1))

def State.bilinear (s : State) (isle : Nat) (g : LambImage) (ox oy c : Nat) : Nat :=
  let (x0, x1) := blendAt ox g.w
  let (y0, y1) := blendAt oy g.h
  let row (y : Nat) : Nat := blend (s.lambF32 isle g x0 y c) (s.lambF32 isle g x1 y c)
  blend (row y0) (row y1)

end Sys2Proof.Machine
end

