-- ==== Sys2Proof/Machine/Lamb.lean ====
section
/-! DEFINITION. The Lamb commands and the engine's patrol and stall (10). -/

namespace Sys2Proof.Machine

/-- Check 6 for an LGEOM: fields of a group that run from 1, and formats (10, Table 4; R204). -/
def lgeomBad : LgeomOps → List (Bool × Nat)
  | .src _ fmt _ w h c _ _ => [(!(beyond fmt.toNat 1 7 == false || isPixel fmt.toNat), 14), (w == 0, 20), (h == 0, 22), (c == 0, 24)]
  | .win kw kh sx sy dx dy => [(kw == 0, 14), (kh == 0, 16), (sx == 0, 18), (sy == 0, 20), (dx == 0, 22), (dy == 0, 24)]
  | .pad _ _ _ _ => []
  | .dst _ fmt _ c _ _ => [(!(beyond fmt.toNat 1 7 == false || isPixel fmt.toNat), 14), (c == 0, 24)]
def lgeomClass : LgeomOps → Nat
  | .src cls _ _ _ _ _ _ _ => cls.toNat
  | .dst cls _ _ _ _ _ => cls.toNat
  | _ => 0
def lgeomValid (o : LgeomOps) : Bool := decide (lgeomClass o ≤ 3) && noneBad (lgeomBad o)

def LambSt.setGroup (l : LambSt) : LgeomOps → LambSt
  | .src cls fmt o w h c rs ps => { l with src := some ⟨cls.toNat, fmt.toNat, o.toNat, w.toNat, h.toNat, c.toNat, rs.toNat, ps.toNat⟩ }
  | .win kw kh sx sy dx dy => { l with win := some ⟨kw.toNat, kh.toNat, sx.toNat, sy.toNat, dx.toNat, dy.toNat⟩ }
  | .pad pl pr pt pb => { l with pad := some ⟨pl.toNat, pr.toNat, pt.toNat, pb.toNat⟩ }
  | .dst cls fmt o c rs ps => { l with dst := some ⟨cls.toNat, fmt.toNat, o.toNat, 0, 0, c.toNat, rs.toNat, ps.toNat⟩ }

def LambSt.done (l : LambSt) : LambSt := { l with completed := satAdd 32 l.completed 1 }

/-- R208. -/
def execLgeom (ctx : Ctx) (isle : Isle) (ops : LgeomOps) (s : State) : Host.Outcome State Fault Refusal :=
  if !(lgeomValid ops) then .refused .operandRefusedAtLoad
  else if !(s.lambRuns ctx.val isle.val (.lgeom ops)) then .next s
  else .next (s.updLamb isle.val fun l => (l.setGroup ops).done)

/-- Check 6 for an LWLOAD; a LEN above 65,536 fails check 8 (R222). -/
def lwloadBad (o : LwloadOps) : List (Bool × Nat) := [(decide (o.len.toNat < 64) || o.len.toNat % 64 != 0, 20)]
def lwloadValid (o : LwloadOps) : Bool := decide (o.cls.toNat ≤ 3) && noneBad (lwloadBad o)
def lwloadOver (o : LwloadOps) : List (Bool × Nat) :=
  [(decide (65536 < o.len.toNat), 20),
   (decide (classLimit o.cls.toNat < o.src.toNat * 64 + o.len.toNat) ||
      o.cls == 3 && decide (2 ^ 21 < o.src.toNat * 64 % 2 ^ 21 + o.len.toNat), 16)]
def lwloadFits (o : LwloadOps) : Bool := noneBad (lwloadOver o)

/-- R210. -/
def execLwload (ctx : Ctx) (isle : Isle) (ops : LwloadOps) (s : State) : Host.Outcome State Fault Refusal :=
  if !(lwloadValid ops && lwloadFits ops) then .refused .operandRefusedAtLoad
  else if !(s.lambRuns ctx.val isle.val (.lwload ops)) then .next s else
  let a := gaddr isle.val ops.cls.toNat (ops.src.toNat * 64)
  match s.readFault a ops.len.toNat with
  | some f => .next (s.accessFault ctx.val (srcIn isle.val 4 0) f noPlace noPlace)
  | none => .next (s.updLamb isle.val fun l =>
      { l with buf := s.mem.readBytes a ops.len.toNat ++ l.buf.drop ops.len.toNat }.done)

def oyRows (o : OyRange) : List Nat := List.range o.count.toNat

/-- R212. -/
def execPatch (ctx : Ctx) (isle : Isle) (ops : PatchOps) (s : State) : Host.Outcome State Fault Refusal :=
  let i := isle.val
  let l := s.lamb i
  match l.src, l.win, l.pad, l.dst with
  | some g, some w, some p, some d =>
    let ow := lambOw g w p
    let (t0, tn) := (ops.tapFirst.toNat, ops.tapCount.toNat)
    let (c0, cn) := (ops.cFirst.toNat, ops.cCount.toNat)
    if !(lambCommon g d ow (lambOh g w p) ops.oy (!l.buf.isEmpty) && patchFmts g.fmt d.fmt && d.c == tn * cn && tn != 0 && cn != 0 &&
        decide (t0 + tn ≤ w.kw * w.kh) && decide (c0 + cn ≤ g.c)) then .refused .operandRefusedAtLoad
    else if !(s.lambRuns ctx.val i (.patch ops)) then .next s
    else .next (s.lambRows ctx.val i (oyRows ops.oy)
      (fun s r => s.tapsBad i g w p ow (ops.oy.first.toNat + r) t0 tn c0 cn)
      (fun s r => rowRun (d.rowAddr i r) d.pixStride (pixelSize d.fmt) ((List.range ow).map fun ox =>
        (List.range tn).flatMap fun t => match tapAt g w p ox (ops.oy.first.toNat + r) (t0 + t) with
          | some (x, y) => (List.range cn).map fun c => s.lambElem i g x y (c0 + c)
          | none => List.replicate cn 0)))
  | _, _, _, _ => .refused .operandRefusedAtLoad

/-- R213. -/
def execLconv (ctx : Ctx) (isle : Isle) (ops : LconvOps) (s : State) : Host.Outcome State Fault Refusal :=
  let i := isle.val
  let l := s.lamb i
  match l.src, l.win, l.pad, l.dst with
  | some g, some w, some p, some d =>
    let ow := lambOw g w p
    if !(lambCommon g d ow (lambOh g w p) ops.oy (!l.buf.isEmpty) && lconvFmts g.fmt d.fmt && decide (w.kw ≤ 11) && decide (w.kh ≤ 11) &&
        (decide (g.c ≤ 16) || decide (d.c ≤ 16)) && decide (ops.func.toNat ≤ 0x0B) &&
        decide (lambWoff d.c + 2 * w.kw * w.kh * g.c * d.c ≤ l.buf.length)) then .refused .operandRefusedAtLoad
    else if !(s.lambRuns ctx.val i (.lconv ops)) then .next s
    else .next (s.lambRows ctx.val i (oyRows ops.oy)
      (fun s r => s.tapsBad i g w p ow (ops.oy.first.toNat + r) 0 (w.kw * w.kh) 0 g.c)
      (fun s r => s.lconvRow i g d w p ops ow (ops.oy.first.toNat + r) r))
  | _, _, _, _ => .refused .operandRefusedAtLoad

/-- R214. -/
def execPool (ctx : Ctx) (isle : Isle) (ops : PoolOps) (s : State) : Host.Outcome State Fault Refusal :=
  let i := isle.val
  let l := s.lamb i
  match l.src, l.win, l.pad, l.dst with
  | some g, some w, some p, some d =>
    let ow := lambOw g w p
    if !(lambCommon g d ow (lambOh g w p) ops.oy true && floatFmts g.fmt d.fmt && decide (ops.mode.toNat ≤ 2) && d.c == g.c) then
      .refused .operandRefusedAtLoad
    else if !(s.lambRuns ctx.val i (.pool ops)) then .next s
    else .next (s.lambRows ctx.val i (oyRows ops.oy)
      (fun s r => s.tapsBad i g w p ow (ops.oy.first.toNat + r) 0 (w.kw * w.kh) 0 g.c)
      (fun s r => rowRun (d.rowAddr i r) d.pixStride (pixelSize d.fmt) ((List.range ow).map fun ox =>
        (List.range d.c).map fun c => convertF32 d.fmt (s.poolElem i g w p ops.mode.toNat ox (ops.oy.first.toNat + r) c))))
  | _, _, _, _ => .refused .operandRefusedAtLoad

/-- R215. -/
def execResample (ctx : Ctx) (isle : Isle) (ops : ResampleOps) (s : State) : Host.Outcome State Fault Refusal :=
  let i := isle.val
  let l := s.lamb i
  let (fx, fy) := (ops.fx.toNat, ops.fy.toNat)
  match l.src, l.dst with
  | some g, some d =>
    let factors := if ops.mode = 0 then decide (1 ≤ fx) && decide (fx ≤ 16) && decide (1 ≤ fy) && decide (fy ≤ 16)
      else ops.mode == 1 && fx == 2 && fy == 2
    if !(factors && lambCommon g d (fx * g.w) (fy * g.h) ops.oy true && floatFmts g.fmt d.fmt && decide (fx * g.w ≤ 65535) &&
        decide (fy * g.h ≤ 65535) && d.c == g.c) then .refused .operandRefusedAtLoad
    else if !(s.lambRuns ctx.val i (.resample ops)) then .next s else
    let rowsOf (oy : Nat) : List Nat := if ops.mode = 0 then [oy / fy] else [(blendAt oy g.h).1, (blendAt oy g.h).2]
    .next (s.lambRows ctx.val i (oyRows ops.oy)
      (fun s r => (rowsOf (ops.oy.first.toNat + r)).findSome? fun y => (List.range g.w).findSome? fun x => s.lambBad i g 0 g.c (x, y))
      (fun s r =>
        let oy := ops.oy.first.toNat + r
        rowRun (d.rowAddr i r) d.pixStride (pixelSize d.fmt) ((List.range (fx * g.w)).map fun ox => (List.range d.c).map fun c =>
          if ops.mode = 0 then
            (if g.fmt = d.fmt then s.lambElem i g (ox / fx) (oy / fy) c else convertF32 d.fmt (s.lambF32 i g (ox / fx) (oy / fy) c))
          else convertF32 d.fmt (s.bilinear i g ox oy c))))
  | _, _ => .refused .operandRefusedAtLoad

/-- Output width, height and channels of a REGROUP, where its source divides (R216). -/
def regroupShape (g : LambImage) (dir f : Nat) : Option (Nat × Nat × Nat) :=
  if f < 2 || 8 < f then none
  else if dir = 0 then (if g.w % f = 0 && g.h % f = 0 then some (g.w / f, g.h / f, f * f * g.c) else none)
  else if dir = 1 then (if g.c % (f * f) = 0 then some (g.w * f, g.h * f, g.c / (f * f)) else none)
  else none

/-- The source element of output element (ox, oy, k) (R216). -/
def regroupFrom (g : LambImage) (dir f ox oy k : Nat) : Nat × Nat × Nat :=
  if dir = 0 then (f * ox + k / g.c % f, f * oy + k / g.c / f, k % g.c)
  else (ox / f, oy / f, (oy % f * f + ox % f) * (g.c / (f * f)) + k)

/-- R216. -/
def execRegroup (ctx : Ctx) (isle : Isle) (ops : RegroupOps) (s : State) : Host.Outcome State Fault Refusal :=
  let i := isle.val
  let l := s.lamb i
  match l.src, l.dst with
  | some g, some d => match regroupShape g ops.dir.toNat ops.f.toNat with
    | none => .refused .operandRefusedAtLoad
    | some (ow, oh, oc) =>
      if !(lambCommon g d ow oh ops.oy (!l.buf.isEmpty) && patchFmts g.fmt d.fmt && d.c == oc) then .refused .operandRefusedAtLoad
      else if !(s.lambRuns ctx.val i (.regroup ops)) then .next s else
      let from_ (ox oy k : Nat) : Nat × Nat × Nat := regroupFrom g ops.dir.toNat ops.f.toNat ox oy k
      .next (s.lambRows ctx.val i (oyRows ops.oy)
        (fun s r => if s.readsClean i g.cls then none else (List.range ow).findSome? fun ox => (List.range oc).findSome? fun k =>
          let (x, y, c) := from_ ox (ops.oy.first.toNat + r) k
          s.lambBad i g c 1 (x, y))
        (fun s r => rowRun (d.rowAddr i r) d.pixStride (pixelSize d.fmt) ((List.range ow).map fun ox => (List.range oc).map fun k =>
          let (x, y, c) := from_ ox (ops.oy.first.toNat + r) k
          s.lambElem i g x y c)))
  | _, _ => .refused .operandRefusedAtLoad

/-- The Lamb engine leaves the healthy mask; jobs that lease it halt (R225). -/
def State.disableLamb (s : State) (isle cause : Nat) : State :=
  let s := s.updLamb isle fun l => { l with state := .disabled, suspect := none }
  let s := s.updIsle isle fun x => { x with lamb := false }
  let s := (s.countDisable isle 4).emit 0x262 3 (srcIn isle 4 0) none [isle, cause]
  ((s.haltWhere 0x262 fun _ p => p.hasLamb isle).dropInFlight isle 3 0).refresh

/-- Vectors of a full patrol of a Lamb engine (R393). -/
def lambVectors : Nat := 1024

def LambSt.vectorDone (x : LambSt) (foreground : Bool) : LambSt :=
  let x := if x.vector + 1 = lambVectors then { x with vector := 0, passed := satAdd 32 x.passed 1, state := .healthy }
    else { x with vector := x.vector + 1, state := .testing }
  if foreground then { x with state := .healthy, skipped := satAdd 32 x.skipped 1 } else x

/-- R224, R393; 10, Table 7: one vector, in a BG_WINDOW of the Lamb strand or on an unheld engine. A second miscompare in one unit
disables the engine. -/
def execLambPatrolVector (isle : Isle) (miscompare : Option (Fin 2)) (foreground : Bool) (s : State) :
    Host.Outcome State Fault Refusal :=
  let i := isle.val
  let x := s.lamb i
  if x.state = .disabled || !(s.inWindow (windowKey i 3 0) || !(s.loaded.any fun cp => cp.2.hasLamb i)) then .next s else
  match miscompare with
  | none =>
    let s := s.updLamb i (·.vectorDone foreground)
    let s := if x.vector + 1 = lambVectors then s.bgCycle 10 i 0 else s
    .next (if foreground then s.bgInterrupt 10 i 0 else s)
  | some u =>
    let s := s.emit 0xB12 2 (srcIn i 4 0) none [i, u.val, x.vector]
    if x.suspect = some u.val then .next (s.disableLamb i 0xB12)
    else .next (s.updLamb i fun x => { x with suspect := some u.val, state := .healthy })

/-- 10, Table 7: the job halts and the engine is disabled. -/
def execLambStall (isle : Isle) (s : State) : Host.Outcome State Fault Refusal :=
  match s.inFlightOn isle.val 3 0 fun _ => true with
  | none => .next s
  | some c => .next (((s.emit 0x261 3 (srcIn isle.val 4 0) (some c) [isle.val, c]).haltJob c 0x261).disableLamb isle.val 0x261)

end Sys2Proof.Machine
end

