-- ==== Sys2Proof/Machine/LinkOps.lean ====
section
/-! DEFINITION. What the link and transaction commands of the Straits share (12; R450 to R459): replay, acknowledgements, admitting a
received request, read data landing. -/

namespace Sys2Proof.Machine

/-- The loopback mode of a Strait port; 0 none (R459). -/
def State.straitLoop (s : State) (port : Nat) : Nat := match s.inject.loops.find? fun l => l.target == 1 && l.inst == port with
  | some l => l.mode
  | none => 0

/-! ### Bring-up (R254, R255) -/

/-- The pod-number conflicts of R255 with the peer of any other port, a FENCED one's too, and a wrong link format. A loopback plug's match is
none (R459). -/
def State.podConflict (s : State) (port : Nat) (peer : PeerId) : Bool :=
  let own := s.straitLoop port == 2 && peer.serial == Config.unitSerial && peer.port.toNat == port
  let claimed := s.strait.ports.rows.any fun r => r.1 != port && match r.2.peer with
    | some q => q.serial != peer.serial && q.pod == peer.pod
    | none => false
  peer.format != 1 || !own && (peer.pod.toNat == s.unitNo || claimed)

/-- Lanes of a mask whose rings are locked at this end, ascending. -/
def PortSt.agreedLanes (x : PortSt) (mask : Nat) : List Nat := (List.range 32).filter fun l => bit mask l && x.laneLocked l

/-- Flits beyond the peer's ACK_SEQ, where it lies among those sent. -/
def PortSt.unacked (x : PortSt) (ack : Nat) : Nat :=
  let n := (x.txSeq + 65536 - 1 - ack) % 65536
  if n ≤ x.replayBuf.length then n else x.replayBuf.length
/-- What this end gives at step 5 of bring-up (R254). -/
def State.identity (s : State) (port : Nat) : PeerId :=
  { serial := Config.unitSerial, pod := BitVec.ofNat 8 s.unitNo, port := BitVec.ofNat 8 port, format := 1
    ackSeq := BitVec.ofNat 16 (((s.port port).rxSeq + 65535) % 65536) }

/-! ### Replay (R256) -/

/-- The flits of the replay buffer go out again, in order. Injectors do not act on a replay (R450). -/
def State.resend (s : State) (port : Nat) : State :=
  let s := (s.port port).replayBuf.foldl (fun s f => s.putFlit port f .pass) s
  s.updPort port fun x => { x with replayed := satAdd 64 x.replayed x.replayBuf.length }
/-- A sender replays what is unacknowledged; after 8 replays without progress the port retrains with cause REPLAY. -/
def State.replay (s : State) (port : Nat) : State :=
  let x := s.port port
  if x.replayBuf.isEmpty then s
  else if 8 ≤ x.replays then s.retrain port 1
  else (s.updPort port fun x => { x with replays := x.replays + 1 }).resend port
/-- ACK_SEQ of an intact flit. -/
def PortSt.acknowledge (x : PortSt) (ack : Nat) : PortSt :=
  let n := x.unacked ack
  if n < x.replayBuf.length then { x with replayBuf := x.replayBuf.drop (x.replayBuf.length - n), replays := 0 } else x
/-- Credits of an accepted flit, up to the peer's buffer sizes (R252). -/
def PortSt.credit (x : PortSt) (h : LinkHeader) : PortSt :=
  { x with
    creditReq := Nat.min 2048 (x.creditReq + h.creditReq)
    creditRsp := Nat.min 2048 (x.creditRsp + h.creditRsp)
    creditTok := Nat.min 64 (x.creditTok + h.creditTok) }
/-- A link command that both ends agree on: an even LINK_AT at least 4 codewords ahead, a lane and, in a LANE_MOVE, a channel of the port
(R257). -/
def PortSt.agrees (x : PortSt) (c : LinkCmd) : Bool :=
  let ahead := (c.at_ + 2 ^ 32 - x.rxCodeword) % 2 ^ 32
  c.at_ % 2 == 0 && decide (4 ≤ ahead) && decide (ahead < 2 ^ 31) && decide (c.lane < 32) && (c.cmd != 1 || decide (c.channel < 36))
/-- The link command of an accepted flit is kept until its codeword. -/
def PortSt.keepLink (x : PortSt) (l : Option LinkCmd) : PortSt := match l with
  | some c => if x.agrees c then { x with linkCmds := x.linkCmds ++ [c] } else x
  | none => x
/-- The codeword count, extended from the 16 bits of a codeword header, and the lane-map identifier (R248). -/
def PortSt.countCodeword (x : PortSt) (h : BitVec 20) : PortSt :=
  { x with
    rxCodeword := (x.rxCodeword + (h.toNat % 65536 + 65536 - x.rxCodeword % 65536) % 65536) % 2 ^ 32
    rxMap := h.toNat / 65536 }
/-- Slots of a channel are free again, and their credits are owed (R252). A rejected header of no known kind is in the request channel. -/
def PortSt.owe (x : PortSt) (kind : Option TxKind) (n : Nat) : PortSt :=
  if kind = some .token then { x with owedTok := x.owedTok + n }
  else if kind.any (·.isCompletion) then { x with owedRsp := x.owedRsp + n }
  else { x with owedReq := x.owedReq + n }
/-- A whole transaction enters the buffer of its channel. -/
def PortSt.enqueue (x : PortSt) (t : Tx) : PortSt :=
  if t.kind.isCompletion then { x with rsps := x.rsps ++ [t] } else { x with reqs := x.reqs ++ [t] }
/-- Read the transactions that are whole; `n` bounds their number. -/
def PortSt.absorb : Nat → PortSt → PortSt
  | 0, x => x
  | n + 1, x => match parseSlots x.rxSlots with
    | .more => x
    | .tx t rest => ({ x with rxSlots := rest }.enqueue t).absorb n
    | .rejected t k rest => ({ x with rxSlots := rest }.owe (t.map Tx.kind) k).absorb n
/-- The slots of an accepted flit follow those received (R251). -/
def PortSt.takeSlots (x : PortSt) (l : List (List Byte)) : PortSt :=
  let x := { x with rxSlots := x.rxSlots ++ l }
  x.absorb x.rxSlots.length

/-! ### Acknowledgements and refusals (R261 to R263) -/

/-- The cumulative acknowledgement of what has been performed. Its EPOCH has no use and is 0 (log 54). -/
def State.ackNow (s : State) (port : Nat) : State :=
  let x := s.port port
  if x.toAck = 0 then s
  else (s.updPort port fun x => { x with toAck := 0 }).answer port { kind := .ack, epoch := ⟨0, 0, 0⟩, tag := x.lastTag }

/-- A posted request has been performed: an acknowledgement is due, at once after 64 (R263). -/
def State.performed (s : State) (port tag : Nat) : State :=
  let s := s.updPort port fun x => { x with toAck := x.toAck + 1, lastTag := tag }
  if 64 ≤ (s.port port).toAck then s.ackNow port else s
/-- A contribution of the port was returned and is held there, so that its REDUCE is not performed yet (R158, R267). -/
def State.holds (s : State) (port : Nat) : Bool := s.adders.values.any fun a => a.returned.any (·.src == srcPort port)
/-- A REDUCE whose held contributions have all been added, or dropped with a halted job, has been performed. -/
def State.settleHeld (s : State) (port : Nat) : State := match (s.port port).held with
  | some tag => if s.holds port then s else (s.updPort port fun x => { x with held := none }).performed port tag
  | none => s

def Plan.id (p : Option Plan) : Nat := match p with
  | some p => p.header.planId
  | none => 0

/-- A request is refused: what was performed is acknowledged, the NAK goes out, the epoch is marked (R261 to R263; 12, Table 8). -/
def State.refuseRequest (s : State) (port : Nat) (h : Tx) (cause : Nat) (c : Option Nat) : State :=
  let s := (s.ackNow port).updPort port fun x => { x with
    naksOut := satAdd 32 x.naksOut 1
    refused := if x.refused.contains h.epoch then x.refused else x.refused ++ [h.epoch] }
  let s := s.answer port { kind := .nak, epoch := h.epoch, tag := h.tag, cause := cause, len := h.len, addr := h.addr }
  s.emit 0x42B 1 (srcPort port) none [epochWord h.epoch, Plan.id (c.bind fun c => (s.ctx c).plan)]

/-- The export window that a request falls in, with its context (R259, R261). -/
def State.exportFor (s : State) (port : Nat) (h : Tx) : Option (Nat × WindowOps) :=
  (s.windowsOn port).find? fun w =>
    w.2.key.toNat == h.key && (w.2.peerUnit == 0xFF || w.2.peerUnit.toNat == h.epoch.pod.toNat) &&
      bit w.2.rights.toNat (rightBit h.kind) &&
      (if h.kind = .token then w.2.mode == 3 && windowCounts w.2 (bits h.addr 17 12) (bits h.addr 11 0)
       else w.2.mode == 1 && windowHolds w.2 h.addr h.len)
/-- A request leaves its buffer and frees its slots (R252). -/
def State.drained (s : State) (port : Nat) (t : Tx) : State :=
  s.updPort port fun x => { x with reqs := x.reqs.drop 1 }.owe (some t.kind) t.slots

/-- Is the isle SERVING or DRAINING? -/
def State.isleServing (s : State) (i : Nat) : Bool := (s.isle i).state == .serving || (s.isle i).state == .draining

/-- Isle that a request goes to. -/
def Tx.targetIsle (t : Tx) : Nat := if t.kind = .token then bits t.addr 17 12 else isleOf t.addr
/-- What the owner, isle and window checks make of a request (R261): its exporting context, or the cause of its refusal. -/
def State.checkRequest (s : State) (port : Nat) (h : Tx) : Except (Nat × Option Nat) Nat :=
  if (s.port port).refused.contains h.epoch then .error (6, none) else
  match s.exportFor port h with
  | none => .error (2, none)
  | some (c, _) =>
    if !(s.isleServing h.targetIsle) then .error (3, some c)
    else if h.kind != .token && !(match (s.ctx c).plan with
        | some p => s.leasedAccess c p (localOf h.addr)
        | none => false) then .error (4, some c)
    else .ok c

/-- An uncorrectable unit that a remote request meets is counted and reported, and its frame is marked for repair (R153, R169); the job of
its reader is the initiator's, which learns it from the NAK. -/
def State.remoteBad (s : State) (port c : Nat) (f : Option AccessFault) : State := match f with
  | some (.uncorrectable a) => s.raiseAccess c (srcPort port) (.uncorrectable a) noPlace noPlace []
  | _ => s

/-- What a request of an exporting context comes to past the checks: it crosses the Sounds of its route under the plan's epoch, and is
performed by `act`, or refused with a cause; `fault` is what the refusal of `act` raises here. A packet that a Sound poisons is an
uncorrectable error (R261). -/
def State.performRequest (s : State) (port c : Nat) (t : Tx) (fault : State → Nat → State) (act : State → Nat → Except Nat State) : State :=
  let (s, ok) := s.crossRoute c (sitePlace (siteOf port)) t.targetIsle (if t.kind = .token then 3 else 0) none
  if !ok then s.refuseRequest port t 1 (some c) else
  match act s c with
  | .ok s =>
    if t.kind = .read then s
    else if s.holds port then s.updPort port fun x => { x with held := some t.tag }
    else s.performed port t.tag
  | .error cause => (fault s c).refuseRequest port t cause (some c)
/-- Past the injector and the marks of its epoch, a request is checked and performed (R261, R262, R454). -/
def State.admitRequest (s : State) (port : Nat) (t : Tx) (fault : State → Nat → State) (act : State → Nat → Except Nat State) : State :=
  let (s, hit) := (s.drained port t).inject1 1 port 1 1
  if hit = .drop then
    (if t.kind = .read then s else s.updPort port fun x => { x with
      silent := if x.silent.contains t.epoch then x.silent else x.silent ++ [t.epoch] })
  else if (s.port port).silent.contains t.epoch then s
  else match s.checkRequest port t with
    | .error (cause, c) => s.refuseRequest port t cause c
    | .ok c => s.performRequest port c t fault act
/-- The request at the front of the buffer of an UP port, in TAG order: nothing is performed before a REDUCE whose contributions are held
(R261, R267). A request that the buffer's front is not changes nothing (log 168). -/
def State.receive (s : State) (port : Nat) (t : Tx) (fault : State → Nat → State) (act : State → Nat → Except Nat State) : State :=
  if (s.port port).link != .up || (s.port port).reqs.head? != some t || s.holds port then s
  else ((s.settleHeld port).admitRequest port t fault act).flush port
/-- A request of the row's operands. -/
def reqTx (h : ReqHeader) (kind : TxKind) : Tx :=
  { kind := kind, len := h.len.toNat, epoch := h.epoch, tag := h.tag.toNat, key := h.key.toNat, addr := h.addr.toNat }

/-- The stores of a WRITE: all its bytes, or the runs that the mask of a short one names, counted from ADDRESS (log 38). -/
def maskRuns (a : Nat) (mask : Nat) : Nat → List Byte → Option (Nat × List Byte) → List (Nat × List Byte)
  | _, [], cur => cur.toList
  | i, b :: r, cur =>
    if bit mask i then maskRuns a mask (i + 1) r (match cur with
      | some (p, bs) => some (p, bs ++ [b])
      | none => some (a + i, [b]))
    else cur.toList ++ maskRuns a mask (i + 1) r none

def faultCauseNak : AccessFault → Nat
  | .shared _ => 4
  | .uncorrectable _ => 1
  | .refused _ => 4

/-- Why an adder refuses a contribution (R160, R261): a shared frame, slots that do not fit, an uncorrectable line. -/
def State.reduceRefusal (s : State) (k : Nat) (x : Contribution) : Option Nat :=
  let addr := adderAddr k x.offset.toNat
  if s.sharedAt addr then some 4
  else match (s.adder k).lines.find? x.offset.toNat with
    | some l =>
      let held := (s.adder k).park.any fun q => q.c.offset == x.offset && q.c.slot == x.slot
      if x.slots.toNat ≠ l.slots || x.fmt.toNat ≠ l.fmt || x.unordered != l.unordered || decide (l.slots ≤ x.slot.toNat) ||
          l.added.contains x.slot.toNat || held then some 5 else none
    | none => if x.slots.toNat ≤ x.slot.toNat then some 5 else (s.readFault addr 64).map fun _ => 1

/-! ### Completions -/

/-- The outstanding request of a TAG. -/
def PortSt.findTag (x : PortSt) (tag : Nat) (ok : TxKind → Bool) : Option Request := x.open_.find? fun q => q.tx.tag == tag && ok q.tx.kind

/-- A request is no longer outstanding; a READ gives back its reserved response room. -/
def State.dropOpen (s : State) (port : Nat) (q : Request) : State :=
  s.updPort port fun x => { x with open_ := x.open_.erase q, rspRoom := Nat.min 2048 (x.rspRoom + readRoom q.tx) }

/-- Does a cumulative acknowledgement up to `tag` cover `t`, modulo 2^32? -/
def tagCovers (tag t : Nat) : Bool := decide ((tag + 2 ^ 32 - t) % 2 ^ 32 < 2 ^ 31)

/-- A core that waited for remote data goes on. -/
def State.coreData (s : State) (k : Nat) (f : CoreSt → CoreSt) : State :=
  s.updCore k fun x => f { x with waiting := false, outstanding := x.outstanding.erase farAccess }

/-- The lanes of a vector load, from the bytes read. -/
def landLanes (old : BitVec 512) (mask z : Nat) (data : List Byte) : BitVec 512 :=
  ofLanes (8 * z) ((List.range (64 / z)).map fun i => if bit mask i then fieldAt data (i * z) z else vlane old (8 * z) i)

/-- Read data lands (R260). A page shared since then is not written, and the job halts (R141). -/
def State.landData (s : State) (port : Nat) (q : Request) (data : List Byte) : State :=
  if !(s.isRun q.ctx q.run) then s else
  match q.land with
  | .mem a list index => match s.writeFault a data.length with
    | some f => s.accessFault q.ctx (srcPort port) f list index
    | none => s.storeBytes a data
  | .reg k d n sx =>
    let v := ofBytes data
    s.coreData k (·.setG d (BitVec.ofNat 64 (if sx then ofInt 64 (toInt (8 * n) v) else v)))
  | .vec k vd mask z => s.coreData k fun x => x.setV vd (landLanes (x.vreg vd) mask z data)
  | .ack _ | .nowhere => s

/-- Is the completion at the front of a port's response buffer of this kind and TAG, with this CAUSE and data? -/
def PortSt.completes (x : PortSt) (kind : TxKind) (tag cause : Nat) (data : List Byte) : Bool :=
  x.rsps.head?.any fun t => t.kind == kind && t.tag == tag && t.cause == cause && t.data == data
/-- The completion at the front of the response buffer of an UP port, past the injector; its slots are free again. -/
def State.receiveCompletion (s : State) (port : Nat) (kind : TxKind) (tag cause : Nat) (data : List Byte) (act : State → State) : State :=
  if (s.port port).link != .up || !((s.port port).completes kind tag cause data) then s else
  let (s, hit) := (s.updPort port fun x => { x with rsps := x.rsps.drop 1 }.owe (some kind) (1 + ceilDiv data.length 32)).inject1 1 port 1 2
  (if hit = .drop then s else act s).flush port

/-! ### Strait commands of a plan (R258 to R260) -/

/-- An epoch word of a run of this unit, its number, and its context, for a request. -/
def State.requestOf (s : State) (c : Nat) (r : Run) (w : WindowOps) (t : Tx) (land : Landing) : Request :=
  ⟨{ t with epoch := s.epochOf c r.number, key := w.key.toNat }, c, r.number, unitOf t.addr, land⟩

/-- Check 6 for a WINDOW (R258, R259). -/
def windowBad (own : Nat) (o : WindowOps) : List (Bool × Nat) :=
  let base := o.base.toNat
  let import_ := o.mode == 0 || o.mode == 2
  [(!(decide (o.peerUnit.toNat ≤ 63) || !import_ && o.peerUnit == 0xFF), 14), (o.key == 0, 16),
   ((if o.mode.toNat < 2 then base % 65536 != 0 || decide (2 < classOf base) else false) || (unitOf base == own) == import_, 20),
   (o.span == 0 || decide (2 ≤ o.mode.toNat) && decide (4096 < base % 4096 + o.span.toNat), 28)]
def windowValid (own : Nat) (o : WindowOps) : Bool :=
  decide (o.mode.toNat ≤ 3) && decide (o.rights.toNat < 16) && noneBad (windowBad own o)

/-- Check 6 for an RGET, RPUT or RREDUCE (R143, R258). -/
def remoteBad (own : Nat) (o : RemoteOps) : List (Bool × Nat) :=
  [(unitOf (remoteBase o) == own, 12), (o.localList && decide (2 ^ 36 ≤ o.loc.toNat), 18), (o.count == 0, 24)]
def remoteValid (own : Nat) (o : RemoteOps) : Bool := noneBad (remoteBad own o)

/-- The import window of a remote command on its port (R259). -/
def State.remoteWindow (s : State) (c port : Nat) (kind : TxKind) (o : RemoteOps) : Option WindowOps :=
  (s.ctx c).plan.bind fun p => p.importOn port kind (remoteBase o) (o.count.toNat * 65536)

/-- An access through a null entry is counted (R142). -/
def State.countNull (s : State) (c : Nat) (o : RemoteOps) : State :=
  s.updIsle (s.listIsle c (refList (localSide o))) fun x => { x with nullAccess := satAdd 32 x.nullAccess 1 }

/-- The 16 transactions of a page (R260). -/
def State.sendPage (s : State) (c port : Nat) (r : Run) (w : WindowOps) (page : Nat) (mk : Nat → Tx × Landing) : State :=
  (List.range 16).foldl (fun s k =>
    let (t, land) := mk k
    s.request port (s.requestOf c r w { t with addr := page + k * 4096 } land)) s

/-- RPUT and RREDUCE: the local pages go out in page order; one that cannot be read halts the job. -/
def State.sendPages (s : State) (c port : Nat) (r : Run) (w : WindowOps) (kind : TxKind) (operand : Nat) (o : RemoteOps) : State :=
  ((List.range o.count.toNat).foldl (fun (sb : State × Bool) k =>
    if !sb.2 then sb else
    let s := sb.1
    let go (s : State) (bytes : Nat → List Byte) : State × Bool :=
      (s.sendPage c port r w (remoteBase o + k * 65536) fun j =>
        ({ kind := kind, len := 4096, epoch := s.epochOf 0 0, tag := 0, operand := operand, data := bytes j }, .nowhere), true)
    match r.sidePage o.localList (localSide o) k with
    | none => go (s.countNull c o) fun _ => List.replicate 4096 0
    | some a => match s.readFault a 65536 with
      | some f => (s.accessFault c (srcPort port) f noPlace noPlace, false)
      | none => go s fun j => s.mem.readBytes (a + j * 4096) 4096) (s, true)).1

end Sys2Proof.Machine
end

