-- ==== Sys2Proof/Machine/Remote.lean ====
section
/-! DEFINITION. Transactions on the Straits, and the Strait commands of a plan (12, R258 to R268). -/

namespace Sys2Proof.Machine

/-! ### Received requests -/

/-- A remote read allocates a line for each that it reads (R155). -/
def State.cacheLines (s : State) (a n : Nat) : State :=
  (List.range (ceilDiv n 64)).foldl (fun s k => s.cacheLoad (a / 64 * 64 + k * 64)) s
/-- R261, R262. -/
def execStraitRead (port : Port) (h : ReqHeader) (s : State) : Host.Outcome State Fault Refusal :=
  .next (s.receive port.val (reqTx h .read) (fun s c => s.remoteBad port.val c (s.readFault (localOf h.addr.toNat) h.len.toNat)) fun s _ =>
    let a := localOf h.addr.toNat
    match s.readFault a h.len.toNat with
    | some f => .error (faultCauseNak f)
    | none =>
      let data := s.mem.readBytes a h.len.toNat
      .ok ((s.cacheLines a h.len.toNat).answer port.val
        { kind := .data, epoch := h.epoch, tag := h.tag.toNat, len := data.length, data := data }))
/-- R261, R262: a posted WRITE changes all its bytes or none. One of more than 64 bytes has no mask. -/
def execStraitWrite (port : Port) (h : ReqHeader) (mask : BitVec 64) (data : List Byte) (s : State) :
    Host.Outcome State Fault Refusal :=
  let a := localOf h.addr.toNat
  let stores := if h.len.toNat ≤ 64 then maskRuns a mask.toNat 0 data none else [(a, data)]
  .next (s.receive port.val { reqTx h .write with operand := mask.toNat, data := data } (fun s c => s.remoteBad port.val c (s.storesFault stores)) fun s _ =>
    match s.storesFault stores with
    | some f => .error (faultCauseNak f)
    | none => .ok (s.storeAll stores))

/-- The contribution to line `n` of a REDUCE: every lane is named (R267). -/
def reduceLine (h : ReqHeader) (slot slots : BitVec 12) (fmt : BitVec 2) (unordered : Bool) (data : List Byte) (n : Nat) : Contribution :=
  let z := laneSize fmt.toNat
  { offset := BitVec.ofNat 48 (offOf h.addr.toNat + n * 64), slot := slot, slots := slots, unordered := unordered, fmt := fmt,
    lanes := BitVec.ofNat 32 (2 ^ (64 / z) - 1),
    data := (List.range (64 / z)).map fun i => BitVec.ofNat 64 (fieldAt data (n * 64 + i * z) z) }

/-- What a refused contribution raises here: REDUCE_SLOT_ERROR, which halts the exporting job (R160; 12, Table 8), or an uncorrectable
line. -/
def State.reduceFault (s : State) (port k c : Nat) (x : Contribution) : State := match s.reduceRefusal k x with
  | some 5 => s.slotError k c x (match (s.adder k).lines.find? x.offset.toNat with
      | some l => l.slots
      | none => 0)
  | some 1 => s.remoteBad port c (s.readFault (adderAddr k x.offset.toNat) 64)
  | _ => s

/-- OPERAND of a REDUCE (12, Table 3). -/
def reduceField (slot slots : BitVec 12) (fmt : BitVec 2) (unordered : Bool) : Nat :=
  slot.toNat + slots.toNat * 2 ^ 12 + fmt.toNat * 2 ^ 24 + (if unordered then 2 ^ 26 else 0)
/-- R267, R261: one contribution for each line goes to the target's adder. A slot error halts the exporting job (12, Table 8). -/
def execStraitReduce (port : Port) (h : ReqHeader) (slot slots : BitVec 12) (fmt : BitVec 2) (unordered : Bool) (data : List Byte)
    (s : State) : Host.Outcome State Fault Refusal :=
  let n := h.len.toNat / 64
  let k := adderKey (isleOf h.addr.toNat) (classOf h.addr.toNat)
  let t := { reqTx h .reduce with operand := reduceField slot slots fmt unordered, data := data }
  let lines := (List.range n).map (reduceLine h slot slots fmt unordered data)
  let bad (s : State) : Option Contribution := lines.find? fun x => (s.reduceRefusal k x).isSome
  .next (s.receive port.val t (fun s c => match bad s with
      | some x => s.reduceFault port.val k c x
      | none => s) fun s c => match (bad s).bind (s.reduceRefusal k) with
    | some cause => .error cause
    | none => .ok (lines.foldl (fun s x => s.contribute k c (srcPort port.val) x)
        (if unordered then s.updRun c fun r => { r with nonRepro := true } else s)))

/-- R263, R262, R454: the fence-done follows the acknowledgement of everything performed, and clears the epoch's mark. -/
def execStraitFence (port : Port) (epoch : Epoch) (tag : BitVec 32) (s : State) : Host.Outcome State Fault Refusal :=
  let p := port.val
  let x := s.port p
  let front := x.reqs.head?.any fun t => t.kind == .fence && t.epoch == epoch && t.tag == tag.toNat
  if x.link != .up || !front || s.holds p then .next s else
  let marked := x.refused.contains epoch || x.silent.contains epoch
  let s := (((s.settleHeld p).drained p { kind := .fence, epoch := epoch, tag := tag.toNat }).ackNow p).updPort p fun x => { x with
    refused := x.refused.filter (· != epoch), silent := x.silent.filter (· != epoch) }
  .next (s.answer p { kind := .fenceDone, epoch := epoch, tag := tag.toNat, cause := if marked then 6 else 0 })

/-- R268, R44, R45: ADDRESS gives the counter, its isle and the increment; VOID marks the receiving run. -/
def execStraitToken (port : Port) (h : ReqHeader) (inc : BitVec 14) (void_ : Bool) (s : State) : Host.Outcome State Fault Refusal :=
  let t := { reqTx h .token with addr := h.addr.toNat + inc.toNat * 2 ^ 18, cause := if void_ then 1 else 0 }
  .next (s.receive port.val t (fun s _ => s) fun s c =>
    let s := if void_ then s.updRun c fun r => { r with boundVoid := true } else s
    .ok (s.signal c (bits h.addr.toNat 17 12) (bits h.addr.toNat 11 0) inc.toNat))

/-! ### Completions -/

/-- R260, R266. -/
def execCompletionReadData (port : Port) (tag : BitVec 32) (data : List Byte) (s : State) : Host.Outcome State Fault Refusal :=
  let p := port.val
  .next (s.receiveCompletion p .data tag.toNat 0 data fun s =>
    match (s.port p).findTag tag.toNat (· == .read) with
    | some q => if data.length = q.tx.len then ((s.dropOpen p q).landData p q data).pump p else s
    | none => s)

/-- R263: every posted request up to the TAG is acknowledged. -/
def execCompletionAck (port : Port) (tag : BitVec 32) (s : State) : Host.Outcome State Fault Refusal :=
  let p := port.val
  .next (s.receiveCompletion p .ack tag.toNat 0 [] fun s =>
    let done := (s.port p).open_.filter fun q => isPosted q.tx.kind && tagCovers tag.toNat q.tx.tag
    done.foldl (fun s q => (s.dropOpen p q).freeAck q.land) s)

/-- R264, R266; 12, Table 8. A completion whose CAUSE is reserved is rejected as it is received: no code of chapter 12 names that, and it
only frees its response slots (DESIGN CHOICE, log 57). -/
def execCompletionNak (port : Port) (tag : BitVec 32) (cause : BitVec 4) (s : State) : Host.Outcome State Fault Refusal :=
  let p := port.val
  if cause = 0 || 6 < cause.toNat then .next s else
  .next (s.receiveCompletion p .nak tag.toNat cause.toNat [] fun s =>
    match (s.port p).findTag tag.toNat (· != .fence) with
    | some q =>
      let s := (s.dropOpen p q).updPort p fun x => { x with naksIn := satAdd 32 x.naksIn 1 }
      (s.failRequest p q cause.toNat).pump p
    | none => s)

/-- An RFENCE of the context is in flight. -/
def State.rfenceInFlight (s : State) (c : Nat) : Bool := (s.performing c fun st cmd => st.cls == 5 && cmd.op == some .rfence).isSome

/-- R263, R265: the fence of a port is done; a fence completes once no posted request of its epoch is outstanding on any port, and the
first of a poisoned epoch halts the job. -/
def execCompletionFenceDone (port : Port) (tag : BitVec 32) (cause : BitVec 4) (s : State) : Host.Outcome State Fault Refusal :=
  let p := port.val
  if 6 < cause.toNat then .next s else
  .next (s.receiveCompletion p .fenceDone tag.toNat cause.toNat [] fun s =>
    match (s.port p).findTag tag.toNat (· == .fence) with
    | none => s
    | some q =>
      let s := s.dropOpen p q
      match s.activeRun q.ctx with
      | some r =>
        if r.number = q.run && r.poisoned && !(s.postedOpen q.ctx q.run) && s.rfenceInFlight q.ctx then s.fencePoisoned q.ctx else s
      | none => s)

/-- R263: within 1 µs of performing. -/
def execAckSend (port : Port) (s : State) : Host.Outcome State Fault Refusal :=
  if (s.port port.val).link = .up then .next ((s.settleHeld port.val).ackNow port.val) else .next s

/-- R264: the 2 ms of a posted request run only while its port is UP. -/
def execPostedRequestTimeout (port : Port) (tag : BitVec 32) (s : State) : Host.Outcome State Fault Refusal :=
  let p := port.val
  if (s.port p).link != .up then .next s else
  match (s.port p).findTag tag.toNat isPosted with
  | some q => .next ((s.dropOpen p q).failPosted p q 16)
  | none => .next s

/-- R266. -/
def execRemoteReadTimeout (port : Port) (tag : BitVec 32) (s : State) : Host.Outcome State Fault Refusal :=
  let p := port.val
  if (s.port p).link != .up then .next s else
  match (s.port p).findTag tag.toNat (· == .read) with
  | some q => .next (((s.dropOpen p q).failRead p q).pump p |>.flush p)
  | none => .next s

/-! ### Strait commands -/

/-- R259: installed at launch; in its place it waits and signals only. -/
def execWindow (_ctx : Ctx) (_port : Port) (ops : WindowOps) (s : State) : Host.Outcome State Fault Refusal :=
  if windowValid s.unitNo ops then .next s else .refused .operandRefusedAtLoad

/-- The run whose command of these operands a Strait port performs (R42, R49). -/
def State.portRuns (s : State) (c port : Nat) (op : PlanOp) : Option Run :=
  (s.performing c fun st cmd => st.cls == 5 && st.inst == port && cmd.op == some op).map (·.1)
/-- R260: 16 READs for each page, in page order, landing in the local pages; a null page is read and not written. -/
def execRget (ctx : Ctx) (port : Port) (ops : RemoteOps) (s : State) : Host.Outcome State Fault Refusal :=
  let (c, p) := (ctx.val, port.val)
  if !(remoteValid s.unitNo ops) then .refused .operandRefusedAtLoad else
  match s.portRuns c p (.rget ops), s.remoteWindow c p .read ops with
  | none, _ => .next s
  | some _, none => .refused .operandRefusedAtLoad
  | some r, some w => .next (((List.range ops.count.toNat).foldl (fun s k =>
      let page := r.sidePage ops.localList (localSide ops) k
      let s := if page.isNone then s.countNull c ops else s
      s.sendPage c p r w (remoteBase ops + k * 65536) fun j =>
        ({ kind := .read, len := 4096, epoch := s.epochOf 0 0, tag := 0 }, match page with
          | some a => .mem (a + j * 4096) (sideList ops.localList (localSide ops)) (sideIndex ops.localList (localSide ops) k)
          | none => .nowhere)) s).flush p)

/-- R260: 16 posted WRITEs for each page. -/
def execRput (ctx : Ctx) (port : Port) (ops : RemoteOps) (s : State) : Host.Outcome State Fault Refusal :=
  let (c, p) := (ctx.val, port.val)
  if !(remoteValid s.unitNo ops) then .refused .operandRefusedAtLoad else
  match s.portRuns c p (.rput ops), s.remoteWindow c p .write ops with
  | none, _ => .next s
  | some _, none => .refused .operandRefusedAtLoad
  | some r, some w => .next (s.sendPages c p r w .write 0 ops)

/-- OPERAND of a REDUCE (12, Table 3). -/
def reduceOperand (o : RemoteOps) : Nat := reduceField o.slot o.slots o.rfmt o.unordered

/-- R267: 16 REDUCEs for each page; UNORDERED marks the initiating run. -/
def execRreduce (ctx : Ctx) (port : Port) (ops : RemoteOps) (s : State) : Host.Outcome State Fault Refusal :=
  let (c, p) := (ctx.val, port.val)
  if !(remoteValid s.unitNo ops) || ops.slots == 0 then .refused .operandRefusedAtLoad else
  match s.portRuns c p (.rreduce ops), s.remoteWindow c p .reduce ops with
  | none, _ => .next s
  | some _, none => .refused .operandRefusedAtLoad
  | some r, some w =>
    let s := if ops.unordered then s.updRun c fun r => { r with nonRepro := true } else s
    .next (s.sendPages c p r w .reduce (reduceOperand ops) ops)

/-- R263: a FENCE goes out on each port with posted requests of the epoch outstanding; COMMAND_COMPLETE waits for them. -/
def execRfence (ctx : Ctx) (port : Port) (s : State) : Host.Outcome State Fault Refusal :=
  match s.portRuns ctx.val port.val .rfence with
  | some r => .next (s.sendFences ctx.val r.number)
  | none => .next s

/-- Check 6 for an RSIGNAL (R258). -/
def rsignalBad (own : Nat) (o : RsignalOps) : List (Bool × Nat) :=
  [(decide (63 < o.unit.toNat) || o.unit.toNat == own, 12), (decide (63 < o.isle.toNat), 13), (decide (4095 < o.counter.toNat), 14),
   (beyond o.inc.toNat 1 1023, 16)]
def rsignalValid (own : Nat) (o : RsignalOps) : Bool := noneBad (rsignalBad own o)

/-- R268; 12, Table 3: a TOKEN to a counter of another unit. -/
def execRsignal (ctx : Ctx) (port : Port) (ops : RsignalOps) (s : State) : Host.Outcome State Fault Refusal :=
  let (c, p) := (ctx.val, port.val)
  if !(rsignalValid s.unitNo ops) then .refused .operandRefusedAtLoad else
  let w := (s.ctx c).plan.bind fun q => q.tokenImport p ops.unit.toNat ops.isle.toNat ops.counter.toNat
  match s.portRuns c p (.rsignal ops), w with
  | none, _ => .next s
  | some _, none => .refused .operandRefusedAtLoad
  | some r, some w =>
    let addr := ops.counter.toNat + ops.isle.toNat * 2 ^ 12 + ops.inc.toNat * 2 ^ 18
    let q := s.requestOf c r w { kind := .token, epoch := s.epochOf 0 0, tag := 0, addr := addr } .nowhere
    .next (s.request p { q with unit := ops.unit.toNat })

/-- R452: a unit held for reorder is sent in its place, and this is no injection. -/
def execReorderHoldTimeout (point : Fin 16) (s : State) : Host.Outcome State Fault Refusal :=
  let x := s.inject.points.get {} point.val
  if !x.holding then .next s
  else .next { s with inject := { s.inject with
    points := s.inject.points.put point.val { x with holding := false, injected := x.injected - 1 } } }

end Sys2Proof.Machine
end

