-- ==== Sys2Proof/Machine/LoadChecks.lean ====
section
/-! DEFINITION. Checks 1 to 6 of the loader (R43): each gives the image offset of the first offending field. -/

namespace Sys2Proof.Machine

def indexed {α : Type} (l : List α) : List (Nat × α) := (List.range l.length).zip l

def leaseAt (p : Plan) (i : Nat) : Nat := p.header.leaseOff + 32 * i
def strandAt (p : Plan) (i : Nat) : Nat := p.header.strandOff + 16 * i
def listAt (p : Plan) (i : Nat) : Nat := p.header.listOff + 32 * i
def tokenAt (p : Plan) (i : Nat) : Nat := p.header.tokenOff + 8 * i
def cmdAt (st : Strand) (k : Nat) : Nat := st.cmdOff + 32 * k

/-- Does a list draw frames (R129)? -/
def PageList.drawsAny (l : PageList) : Bool := l.kind == 2 || l.kind == 3 || l.kind == 4 && decide (l.inherit < l.capacity)

/-- Conditions at offsets from `o`. -/
def shifted (o : Nat) (l : List (Bool × Nat)) : List (Bool × Nat) := l.map fun b => (b.1, o + b.2)

/-! ### Checks 1 and 2 -/

def checkMagic (p : Plan) : Option Nat := firstBad [(p.header.magic != 0x4C505856, 0), (p.header.format != 1, 4)]

/-- A section or a piece: the field that places it, its offset, its length. -/
structure Extent where
  field : Nat
  off : Nat
  len : Nat
deriving DecidableEq, Repr

def Extent.meets (a b : Extent) : Bool := decide (a.off < b.off + b.len) && decide (b.off < a.off + a.len)

def planSections (p : Plan) : List Extent :=
  let h := p.header
  [⟨16, h.leaseOff, h.leaseCount * 32⟩, ⟨24, h.strandOff, h.strandCount * 16⟩, ⟨28, h.listOff, h.listCount * 32⟩,
   ⟨36, h.tokenOff, h.tokenCount * 8⟩]

def planPieces (p : Plan) : List Extent :=
  (indexed p.strands).map (fun ns => ⟨strandAt p ns.1 + 4, ns.2.cmdOff, ns.2.cmdCount * 32⟩) ++
  (indexed p.lists).filterMap fun nl =>
    if nl.2.kind = 1 then some ⟨listAt p nl.1, nl.2.entryOff, nl.2.capacity * 8⟩ else none

/-- Each extent that meets an earlier one. -/
def overlapBad : List Extent → List Extent → List (Bool × Nat)
  | _, [] => []
  | seen, e :: r => (seen.any e.meets, e.field) :: overlapBad (e :: seen) r

/-- R26: counts and header fields with a stated range. -/
def headerRange (img : List Byte) (h : PlanHeader) : List (Bool × Nat) :=
  [(h.length != img.length || decide (h.length < 256), 12), (beyond h.leaseCount 1 64, 20), (beyond h.strandCount 1 1600, 22),
   (beyond h.listCount 1 1048576, 32), (beyond h.tokenCount 1 262144, 40), (decide (500000 < h.weaveNs), 44), (h.pathStints == 0, 64)]

/-- R27: isles, and the counts of a lease entry. -/
def leaseRange (p : Plan) : List (Bool × Nat) :=
  (indexed p.leases).flatMap fun nl =>
    let l := nl.2
    shifted (leaseAt p nl.1)
      [(decide (63 < l.isle) || (p.leases.take nl.1).any fun m => m.isle == l.isle, 0),
       (beyond l.tokenSpan 1 4096 || decide (l.tokenBase < 4096 ∧ 4096 < l.tokenBase + l.tokenSpan), 18),
       (bit l.flags 1 && (beyond l.scratchSpan 1 16 || decide (l.scratchBase < 16 ∧ 16 < l.scratchBase + l.scratchSpan)), 25)]

def countRange (p : Plan) : List (Bool × Nat) :=
  (indexed p.strands).map (fun ns => (beyond ns.2.cmdCount 1 16777216, strandAt p ns.1 + 8)) ++
  (indexed p.lists).flatMap fun nl =>
    let l := nl.2
    shifted (listAt p nl.1) [(beyond l.capacity 1 65535, 8), (l.kind == 4 && beyond l.inherit 1 l.capacity, 12),
      (l.drawsAny && beyond l.poolSpan 1 393216, 20)]

/-- Check 2: PLAN_LAYOUT_BAD. -/
def checkLayout (img : List Byte) (p : Plan) : Option Nat :=
  let n := img.length
  firstBad (headerRange img p.header ++
    (planSections p).map (fun e => (e.off % 32 != 0 || decide (n < e.off + e.len), e.field)) ++
    leaseRange p ++ countRange p ++
    (indexed p.strands).map (fun ns => (ns.2.cmdOff % 32 != 0, strandAt p ns.1 + 4)) ++
    (indexed p.lists).map (fun nl => (nl.2.kind == 1 && nl.2.entryOff % 8 != 0, listAt p nl.1)) ++
    (planPieces p).map (fun e => (decide (n < e.off + e.len), e.field)) ++
    overlapBad [⟨0, 0, 256⟩] (planSections p ++ planPieces p))

/-! ### Check 3 -/

/-- ENGINE_FLAGS bits that an opcode defines. -/
def flagsDefined (c : Cmd) : Nat :=
  if c.cls = 1 then (if c.opcode = 2 then 3 else 0) else if c.cls = 2 then 7 else if c.cls = 4 then 3 else if c.cls = 5 then 0x7F else 0

/-- Reserved bytes among the operands: first byte and number (the chapters' operand tables). -/
def operandGaps (c : Cmd) : List (Nat × Nat) :=
  match c.cls, c.opcode with
  | 1, 1 => [(17, 1), (22, 10)]
  | 1, 2 => [(24, 8)]
  | 1, 3 => [(31, 1)]
  | 1, 4 => [(23, 9)]
  | 1, 5 => [(18, 14)]
  | 3, 1 => match c.at 12 1 with
    | 0 => [(15, 1)]
    | 1 => [(13, 1), (26, 6)]
    | 2 => [(13, 1), (22, 10)]
    | _ => [(15, 1), (20, 4)]
  | 3, 2 => [(13, 3), (24, 8)]
  | 3, 3 => [(24, 8)]
  | 3, 4 => [(18, 14)]
  | 3, 5 => [(17, 15)]
  | 3, 6 => [(19, 13)]
  | 3, 7 => [(18, 14)]
  | 5, 1 => [(15, 1)]
  | 5, 2 => [(26, 6)]
  | 5, 3 => [(26, 6)]
  | 5, 4 => [(30, 2)]
  | 5, 5 => [(12, 20)]
  | 5, 6 => [(18, 14)]
  | 6, 1 => [(12, 20)]
  | 6, 2 => [(16, 16)]
  | 6, 0x10 => [(22, 10)]
  | 6, 0x11 => [(24, 8)]
  | 6, 0x12 => [(20, 12)]
  | _, _ => []

/-- A format code that 04, Table 2 reserves. -/
def fmtReserved (v : Nat) : Bool := (Fmt.ofCode v).isNone

/-- Reserved bits and encodings within named operand bytes. -/
def operandReserved (c : Cmd) : List (Bool × Nat) :=
  match c.cls, c.opcode with
  | 1, 3 => [(fmtReserved (c.at 17 1), 17), (c.at 20 2 / 1024 % 4 != 0, 20), (bit (c.at 23 1) 7, 23)] ++ (match oxOp c with
    | some (.drain o) => drainReserved o
    | _ => [])
  | 1, 1 => [(decide (2 ^ 21 ≤ c.at 12 4), 12), (fmtReserved (c.at 16 1), 16)]
  | 1, 2 => [(decide (2 ^ 21 ≤ c.at 12 4), 12), (fmtReserved (c.at 22 1), 22), (decide (16 ≤ c.at 23 1), 23)]
  | 1, 4 => [(decide (2 ^ 21 ≤ c.at 12 4), 12), (fmtReserved (c.at 22 1), 22)]
  | 1, _ => [(decide (2 ^ 21 ≤ c.at 12 4), 12)]
  | 2, 1 => match c.op with
    | some (.kernel o) => kernelUnused o
    | _ => []
  | 3, 1 => [(decide (3 < c.at 12 1), 12), ((c.at 12 1 == 0 || c.at 12 1 == 3) && decide (16 ≤ c.at 13 1), 13),
      ((c.at 12 1 == 0 || c.at 12 1 == 3) && fmtReserved (c.at 14 1) && !(isPixel (c.at 14 1)), 14)]
  | 3, 2 => [(decide (16 ≤ c.at 12 1), 12)]
  | 3, 4 => [(decide (0x0B < c.at 16 1), 16), (decide (2 ≤ c.at 17 1), 17)]
  | 3, 5 => [(decide (2 < c.at 16 1), 16)]
  | 3, 6 => [(decide (1 < c.at 16 1), 16)]
  | 3, 7 => [(decide (1 < c.at 16 1), 16)]
  | 4, 1 => [(c.at 30 1 != 0, 30), (c.at 31 1 != 0, 31)]
  | 4, 2 => [(decide (32 ≤ c.at 30 1), 30)]
  | 5, 1 => [(decide (3 < c.at 12 1), 12), (decide (16 ≤ c.at 13 1), 13)]
  | 5, 4 => [(decide (8 ≤ c.at 29 1), 29)]
  | _, _ => []

/-- Reserved fields and encodings of a command (R30). A reserved OPCODE is left to check 6 (`cmdBad`). DESIGN CHOICE, log 63. -/
def cmdReserved (img : List Byte) (o : Nat) (c : Cmd) : List (Bool × Nat) :=
  shifted o ([(c.cls == 0 || decide (7 ≤ c.cls), 1), (fieldAt img (o + 2) 1 / 2 != 0, 2), (c.flags &&& flagsDefined c != c.flags, 3),
    (decide (2 ≤ c.waitMode) || c.waitMode == 0 && (c.waitCounter != 0 || c.waitTarget != 0), 4),
    (decide (2 ≤ c.sigMode) || c.sigMode == 0 && (c.sigCounter != 0 || c.sigIsle != 0 || c.sigInc != 0), 8)] ++
    (if c.op.isSome || c.cls == 3 && c.opcode == 1 then
      operandReserved c ++ (operandGaps c).map fun g => (c.at g.1 g.2 != 0, g.1) else []))

/-- Instances of an engine class (02, Table 3). -/
def instances (cls : Nat) : Nat := if cls = 1 then 4 else if cls = 2 then 16 else if cls = 5 then 128 else 1

def leaseReserved (img : List Byte) (p : Plan) : List (Bool × Nat) :=
  (indexed p.leases).flatMap fun nl =>
    let l := nl.2
    let o := leaseAt p nl.1
    shifted o ([(decide (4 ≤ l.flags), 1), (decide (16 ≤ l.ox), 2), (fieldAt img (o + 3) 1 != 0, 3), (decide (4096 ≤ l.tokenBase), 16)] ++
      (indexed l.shares).map (fun s => (decide (99 < s.2), 20 + s.1)) ++
      [(decide (16 ≤ l.scratchBase), 24), (!(bit l.flags 1) && l.scratchSpan != 0, 25), (fieldAt img (o + 26) 6 != 0, 26)])

def strandReserved (img : List Byte) (p : Plan) : List (Bool × Nat) :=
  (indexed p.strands).flatMap fun ns =>
    let st := ns.2
    let o := strandAt p ns.1
    shifted o [(if st.cls = 5 then st.isle != 0xFF else decide (64 ≤ st.isle), 0), (beyond st.cls 1 6, 1),
      (decide (instances st.cls ≤ st.inst), 2), (fieldAt img (o + 3) 1 != 0, 3), (fieldAt img (o + 12) 4 != 0, 12)] ++
    (indexed st.cmds).flatMap fun kc => cmdReserved img (cmdAt st kc.1) kc.2

/-- R143, first line. A list's isle that the wafer lacks lies outside the lease, for check 7. -/
def listReserved (img : List Byte) (p : Plan) : List (Bool × Nat) :=
  (indexed p.lists).flatMap fun nl =>
    let l := nl.2
    let o := listAt p nl.1
    shifted o [(!(beyond l.kind 2 4) && l.entryOff != 0, 0), (beyond l.kind 1 4, 5), (decide (2 ≤ l.flags), 6),
      (if l.drawsAny then decide (3 ≤ l.target) else l.target != 0, 7), (l.kind != 4 && l.inherit != 0, 12),
      (!l.drawsAny && l.poolBase != 0, 16), (!l.drawsAny && l.poolSpan != 0, 20), (fieldAt img (o + 24) 8 != 0, 24)]

/-- Check 3: RESERVED_NONZERO. -/
def checkReserved (img : List Byte) (p : Plan) : Option Nat :=
  firstBad ([(beyond p.header.profile 1 3, 6), (fieldAt img 7 1 != 0, 7), (fieldAt img 96 160 != 0, 96)] ++
    leaseReserved img p ++ strandReserved img p ++ listReserved img p ++
    (indexed p.tokens).flatMap fun nt => shifted (tokenAt p nt.1)
      [(decide (64 ≤ nt.2.isle), 0), (fieldAt img (tokenAt p nt.1 + 1) 1 != 0, 1), (decide (4096 ≤ nt.2.counter), 2)])

/-! ### Checks 4 and 5 -/

def checkProfile (s : State) (p : Plan) : Option Nat := firstBad [(decide (s.power.force < p.header.profile), 6)]

/-- R63: the first offending isle, or 0xFF where the cause is the epoch alone or an unpublished shape. -/
def checkShape (s : State) (p : Plan) : Option Nat :=
  if !s.shape.published then some 0xFF
  else match (p.leases.find? fun l => !(bit s.shape.cur.mask l.isle)).map (·.isle) with
    | some i => some i
    | none => if p.header.epoch != s.shape.cur.epoch then some 0xFF else none

/-! ### Check 6: stint-local parts of an Ox strand (R69, R91) -/

/-- What the present stint has written. -/
structure OxStint where
  active : Option Nat := none
  shadow : Option Nat := none
  acc : Table Bool := {}
  masks : List Nat := []
deriving DecidableEq, Repr

def OxStint.maskOk (x : OxStint) (n : Nat) : Bool := n == 0 || x.masks.contains n
def accRange (x : OxStint) (first n : Nat) (p : Bool → Bool) : Bool :=
  (List.range n).all fun i => match x.acc.find? (first + i) with
    | some t => p t
    | none => false
/-- Rows `first` to `first + n − 1` of the file's 1,024. -/
def OxStint.setAcc (x : OxStint) (first n : Nat) (t : Bool) : OxStint :=
  { x with acc := (List.range (Nat.min n (1024 - first))).foldl (fun a i => a.put (first + i) t) x.acc }

/-- A command of an Ox strand: what it must not find, and the stint after it. -/
def OxStint.step (x : OxStint) : PlanOp → List (Bool × Nat) × OxStint
  | .wload o => ([], { x with shadow := some o.wfmt.toNat })
  | .matmul o =>
    let x := if o.swap then { x with active := x.shadow, shadow := x.active } else x
    let i := o.ifmt.toNat == 6
    ([(x.active.isNone, 0), (!(x.active.any fun w => fmtPair w o.ifmt.toNat), 22), (!(x.maskOk o.mask.toNat), 23),
      (o.acc && !(accRange x o.accRow.toNat o.m.toNat (· == i)), 20)], x.setAcc o.accRow.toNat o.m.toNat i)
  | .drain o => ([(o.ofmt.toNat == 7 && !(accRange x o.accRow.toNat o.rows.toNat id), 17), (!(x.maskOk o.mask.toNat), 20),
      (!(accRange x o.accRow.toNat o.rows.toNat fun _ => true), 20)], x)
  | .accload o => ([], x.setAcc o.accRow.toNat o.rows.toNat (o.sfmt.toNat == 7))
  | .maskset o => ([], { x with masks := x.masks ++ (List.range o.count.toNat).map (o.first.toNat + ·) })
  | _ => ([], x)

def oxStintBad (o : Nat) : OxStint → List Cmd → List (Bool × Nat)
  | _, [] => []
  | x, c :: r => match c.op with
    | some op =>
      let (bad, y) := x.step op
      shifted o bad ++ oxStintBad (o + 32) (if c.yield then {} else y) r
    | none => oxStintBad (o + 32) x r

/-! ### Check 6: geometry of a Lamb strand (R203, R222) -/

/-- A Lamb command with output rows, resolved against its stint's groups: source and destination with output width and height, the
channels DST.C must have, whether its formats and its own limits hold, the source rows it reaches, its beats, and the buffer bytes
that an LCONV needs. -/
structure LambJob where
  g : LambImage
  d : LambImage
  ow : Nat
  oh : Nat
  oy : OyRange
  channels : Nat
  fmts : Bool
  limits : Bool
  reach : Nat → Nat → Bool
  beats : Nat
  latency : Nat := 16
  weights : Nat := 0

/-- Source rows that the taps `t0` to `t0 + tn − 1` reach from output row `oy` (R209). -/
def tapRow (w : LambWin) (p : LambPad) (t0 tn oy y : Nat) : Bool :=
  (List.range w.kh).any fun ky => decide (t0 < (ky + 1) * w.kw) && decide (ky * w.kw < t0 + tn) &&
    oy * w.sy + ky * w.dy == y + p.pt

/-- 10, Table 5. -/
def lambBeats (rows width z n : Nat) : Nat := width * rows * ceilDiv (n * z) 256

/-- The command resolved; none where it takes no output rows, and `some none` where a group it uses is not written (R203). -/
def lambJob (l : LambSt) : PlanOp → Option (Option LambJob)
  | .patch o => some <| do
    let g ← l.src; let w ← l.win; let p ← l.pad; let d ← l.dst
    let (tn, cn) := (o.tapCount.toNat, o.cCount.toNat)
    let ow := lambOw g w p
    pure { g, d, ow, oh := lambOh g w p, oy := o.oy, channels := tn * cn, fmts := patchFmts g.fmt d.fmt,
           limits := tn != 0 && cn != 0 && decide (o.tapFirst.toNat + tn ≤ w.kw * w.kh) && decide (o.cFirst.toNat + cn ≤ g.c),
           reach := tapRow w p o.tapFirst.toNat tn,
           beats := tn * lambBeats o.oy.count.toNat ow (pixelSize g.fmt) cn * (if g.fmt = 0x11 then 2 else 1) }
  | .lconv o => some <| do
    let g ← l.src; let w ← l.win; let p ← l.pad; let d ← l.dst
    let ow := lambOw g w p
    pure { g, d, ow, oh := lambOh g w p, oy := o.oy, channels := d.c, fmts := lconvFmts g.fmt d.fmt,
           limits := decide (w.kw ≤ 11) && decide (w.kh ≤ 11) && (decide (g.c ≤ 16) || decide (d.c ≤ 16)),
           reach := tapRow w p 0 (w.kw * w.kh),
           beats := ow * o.oy.count.toNat * w.kw * w.kh * ceilDiv g.c 16 * ceilDiv d.c 16, latency := 32,
           weights := lambWoff d.c + 2 * w.kw * w.kh * g.c * d.c }
  | .pool o => some <| do
    let g ← l.src; let w ← l.win; let p ← l.pad; let d ← l.dst
    let ow := lambOw g w p
    pure { g, d, ow, oh := lambOh g w p, oy := o.oy, channels := g.c, fmts := floatFmts g.fmt d.fmt, limits := true,
           reach := tapRow w p 0 (w.kw * w.kh), beats := w.kw * w.kh * lambBeats o.oy.count.toNat ow (pixelSize g.fmt) g.c }
  | .resample o => some <| do
    let g ← l.src; let d ← l.dst
    let (fx, fy) := (o.fx.toNat, o.fy.toNat)
    let near := o.mode == 0
    pure { g, d, ow := fx * g.w, oh := fy * g.h, oy := o.oy, channels := g.c, fmts := floatFmts g.fmt d.fmt,
           limits := (if near then !(beyond fx 1 16) && !(beyond fy 1 16) else fx == 2 && fy == 2) &&
             decide (fx * g.w ≤ 65535) && decide (fy * g.h ≤ 65535),
           reach := fun oy y => if near then oy / fy == y else (blendAt oy g.h).1 == y || (blendAt oy g.h).2 == y,
           beats := lambBeats o.oy.count.toNat (fx * g.w) (pixelSize g.fmt) g.c * (if near then 1 else 2) }
  | .regroup o => some <| do
    let g ← l.src; let d ← l.dst
    let (f, z, n) := (o.f.toNat, pixelSize g.fmt, o.oy.count.toNat)
    let p := if g.fmt = 0x11 then 2 else 1
    let (ow, oh, oc, ok) := match regroupShape g o.dir.toNat f with
      | some (a, b, c) => (a, b, c, true)
      | none => (1, 1, 0, false)
    pure { g, d, ow, oh, oy := o.oy, channels := oc, fmts := patchFmts g.fmt d.fmt, limits := ok,
           reach := fun oy y => if o.dir = 0 then y / f == oy else oy / f == y,
           beats := if o.dir = 0 then
               (if g.pixStride = g.c * z then ow * n * f * ceilDiv (f * g.c * z) 256 * p else ow * n * (f * f) * ceilDiv (g.c * z) 256 * p)
             else lambBeats n ow z (g.c / (f * f)) }
  | _ => none

/-- Check 6 for a resolved command (R222), `buffered` when the stint has an LWLOAD. -/
def LambJob.bad (j : LambJob) (buffered : Bool) : List (Bool × Nat) :=
  [(!(j.fmts && j.limits && j.d.c == j.channels) || j.ow == 0 || j.oh == 0 || !(j.g.layoutOk j.g.w j.g.h) ||
      !(j.d.layoutOk j.ow j.oy.count.toNat) || !(lambApart j.g (j.g.extent j.g.w j.g.h) j.d (j.d.extent j.ow j.oy.count.toNat)), 0),
   (j.oy.count == 0, 14), (!buffered && (isPixel j.g.fmt || isPixel j.d.fmt || j.weights != 0), 0)]

/-- Check 8 for a resolved command (R222). -/
def LambJob.over (j : LambJob) (len : Nat) : List (Bool × Nat) :=
  [(decide (j.oh < j.oy.first.toNat + j.oy.count.toNat), 12),
   (!(j.g.fits j.g.w j.g.h) || !(j.d.fits j.ow j.oy.count.toNat), 0), (decide (len < j.weights), 0)]

/-- The groups and the buffer after a command of the strand; only the number of buffered bytes counts. -/
def lambStint (l : LambSt × Nat) : PlanOp → LambSt × Nat
  | .lgeom o => (l.1.setGroup o, l.2)
  | .lwload o => (l.1, Nat.max l.2 o.len.toNat)
  | _ => l

/-- The commands of a Lamb strand with their offsets and the stint's groups before each. -/
def lambWalk (o : Nat) (l : LambSt × Nat) : List Cmd → List (Nat × PlanOp × LambSt × Nat)
  | [] => []
  | c :: r => match c.op with
    | some op => (o, op, l.1, l.2) :: lambWalk (o + 32) (if c.yield then ({}, 0) else lambStint l op) r
    | none => lambWalk (o + 32) l r

def lambStintBad (st : Strand) : List (Bool × Nat) :=
  (lambWalk st.cmdOff ({}, 0) st.cmds).flatMap fun x => match lambJob x.2.2.1 x.2.1 with
    | none => []
    | some none => [(true, x.1)]
    | some (some j) => shifted x.1 (j.bad (x.2.2.2 != 0))

/-! ### Check 6: page mover and flock commands (R132, R133, R143) -/

def badRef (v : Nat) : Bool := decide (2 ^ 36 ≤ v)

/-- A list named by a reference, where the directory holds it. -/
def Plan.listOf (p : Plan) (v : Nat) : Option PageList := p.lists[refList v]?

/-- Isle of a side: that of the list, or of the address. -/
def Plan.sideIsle (p : Plan) (isList : Bool) (v : Nat) : Nat := if isList then (match p.listOf v with
    | some l => l.isle
    | none => 64) else isleOf v

/-- A side of `count` pages that breaks R132. A class above 0x4 is judged by check 7. -/
def sideBad (own : Nat) (isList : Bool) (v count : Nat) : Bool :=
  if isList then badRef v else
  unitOf v != own || offOf v % 65536 != 0 || decide (classOf v ≤ 4) && decide (classLimit (classOf v) < offOf v + count * 65536) ||
    classOf v == 4 && decide (2 ^ 18 < offOf v % 2 ^ 18 + count * 65536 + 65536)

def Plan.readOnly (p : Plan) (isList : Bool) (v : Nat) : Bool := isList && (p.listOf v).any fun l => bit l.flags 0

/-- The isles of an MCAST run lie in one row or column (R58). -/
def runInside (o : CopyOps) : Bool :=
  decide (o.first.toNat ≤ 63) && !(beyond o.run.toNat 2 8) &&
    decide ((if o.axis then rowOf o.first.toNat else colOf o.first.toNat) + o.run.toNat ≤ 8)

def runIsles (o : CopyOps) : List Nat := (List.range o.run.toNat).map (runIsle o)

def copyBad (own : Nat) (p : Plan) (isle : Nat) (o : CopyOps) : List (Bool × Nat) :=
  let (a, b) := (p.sideIsle o.srcList o.src.toNat, p.sideIsle o.dstList o.dst.toNat)
  [(sideBad own o.srcList o.src.toNat o.count.toNat, 12),
   (sideBad own o.dstList o.dst.toNat o.count.toNat || p.readOnly o.dstList o.dst.toNat, 20), (o.count == 0, 28),
   (a != 64 && b != 64 && a != isle && b != isle, 0)]

/-- A Sound between the isles of the run is out of service, `out` being those Sounds: the run breaks R58. -/
def runBroken (out : List Nat) (o : CopyOps) : Bool :=
  ((runIsles o).zip ((runIsles o).drop 1)).any fun ab => out.contains (soundBetween ab.1 ab.2)

/-- An MCAST outside R133, whose run obeys R58 (R143); a run over an unleased isle fails check 7. -/
def mcastBad (own : Nat) (out : List Nat) (p : Plan) (o : CopyOps) : List (Bool × Nat) :=
  let src := p.sideIsle o.srcList o.src.toNat
  [(sideBad own o.srcList o.src.toNat o.count.toNat || src != 64 && runInside o && !((runIsles o).contains src), 12),
   (sideBad own o.dstList o.dst.toNat o.count.toNat ||
     (if o.dstList then (List.range o.run.toNat).any fun k => match p.lists[refList o.dst.toNat + k]? with
        | some l => l.isle != runIsle o k || bit l.flags 0
        | none => true
      else isleOf o.dst.toNat != o.first.toNat), 20),
   (o.count == 0, 28), (!(runInside o) || runBroken out o, 30)]

/-- R143: a child that the directory does not hold is no BRANCH list; a parent that it does not hold fails check 9. -/
def forkBad (p : Plan) (o : ForkOps) : List (Bool × Nat) :=
  [((List.range o.children.toNat).any fun k => match p.lists[o.firstChild.toNat + k]? with
      | some ch => ch.kind != 4 || (p.lists[o.parent.toNat]?).any fun par => ch.isle != par.isle || ch.inherit != par.capacity
      | none => true, 16), (beyond o.children.toNat 1 4096, 20)]

/-! ### Check 6 -/

def opBad (own : Nat) (out : List Nat) (p : Plan) (st : Strand) : PlanOp → List (Bool × Nat)
  | .nop => []
  | .bgWindow d => [(beyond d 20000 500000, 12)]
  | .fork o => forkBad p o
  | .split o => [(o.count == 0, 18), (!((p.lists[o.reserve.toNat]?).any fun l => l.kind == 3), 20)]
  | .release o => [(beyond o.lists.toNat 1 1048576, 16)]
  | .wload o => wloadBad o
  | .matmul o => matmulBad o
  | .drain o => drainBad o
  | .accload o => accloadBad o
  | .maskset o => masksetBad o
  | .kernel o => kernelBad o
  | .lgeom o => lgeomBad o
  | .lwload o => lwloadBad o
  | .copy o => copyBad own p st.isle o
  | .mcast o => mcastBad own out p o
  | .window o => windowBad own o
  | .rget o => remoteBad own o ++ [(p.readOnly o.localList (localSide o), 18)]
  | .rput o => remoteBad own o
  | .rreduce o => remoteBad own o ++ [(o.slots == 0, 26)]
  | .rsignal o => rsignalBad own o
  | _ => []

/-- A command against its strand and its opcode. A reserved OPCODE, which R6 rejects, is one that is not defined for its CLASS: check 6
names it with COMMAND_INVALID, and check 3 skips the command's operands. DESIGN CHOICE, log 63. -/
def cmdBad (own : Nat) (out : List Nat) (p : Plan) (st : Strand) (o : Nat) (c : Cmd) : List (Bool × Nat) :=
  shifted o ([(c.op.isNone, 0), (c.cls != st.cls && (c.cls != 6 || st.cls == 5), 1), (c.sigMode == 1 && c.sigInc == 0, 8)] ++
    match c.op with
    | some op => opBad own out p st op
    | none => [])

def sameEngine (a b : Strand) : Bool := a.cls == b.cls && a.isle == b.isle && a.inst == b.inst

/-- Check 6: COMMAND_INVALID. -/
def checkCommands (own : Nat) (out : List Nat) (p : Plan) : Option Nat :=
  firstBad ((indexed p.strands).flatMap fun ns =>
    let st := ns.2
    ((p.strands.take ns.1).any (sameEngine st), strandAt p ns.1) ::
      (indexed st.cmds).flatMap (fun kc => cmdBad own out p st (cmdAt st kc.1) kc.2) ++
      (if st.cls = 1 then oxStintBad st.cmdOff {} st.cmds else if st.cls = 3 then lambStintBad st else []))

end Sys2Proof.Machine
end

