-- ==== Sys2Proof/Machine/LoadLease.lean ====
section
/-! DEFINITION. Checks 7 to 12 of the loader (R43): the lease, the buffers, the page lists, the tokens; the transfers that a plan
makes over Sounds (R54, R58, R180). -/

namespace Sys2Proof.Machine

/-! ### Places of the wafer that a command names -/

/-- Bytes of one target of one isle. -/
structure Place where
  isle : Nat
  cls : Nat
  off : Nat
  len : Nat
deriving DecidableEq, Repr

/-- Unit numbers of size `z` that a run of bytes touches, `most` of them at most. -/
def touched (off len z most : Nat) : List Nat :=
  if len = 0 then [] else (List.range (Nat.min most ((off + len - 1) / z - off / z + 1))).map (off / z + ·)

/-- Bytes of one core's stores outside its keeper region (R94). -/
def outsideKeeper (off len : Nat) : Bool := decide (0x1000 ≤ off % 2 ^ 18) && decide (off % 2 ^ 18 + len ≤ 0x3F000)

/-- Is every byte of a place, which lies inside its class, inside the lease (R60)? No byte of a keeper region is (R94). -/
def Plan.leasesPlace (p : Plan) (x : Place) : Bool :=
  if x.cls < 2 then (touched x.off x.len 65536 32).all fun f => p.hasPc x.isle (x.cls * 32 + f % 32)
  else if x.cls = 2 then (touched x.off x.len 0x400000 16).all (p.hasStep x.isle)
  else if x.cls = 3 then (touched x.off x.len (2 ^ 21) 4).all fun e => p.hasOx (x.isle * 4 + e)
  else x.cls == 4 && p.hasCore (x.isle * 16 + x.off / 2 ^ 18) && outsideKeeper x.off x.len

/-- Is every byte of a place inside its class and inside the lease? -/
def Plan.holdsPlace (p : Plan) (x : Place) : Bool := decide (x.off + x.len ≤ classLimit x.cls) && p.leasesPlace x

/-- The part of a place that lies inside its class: what passes the class limit is for check 8 where the command's chapter says so. -/
def Place.inClass (x : Place) : Place := { x with len := Nat.min x.len (classLimit x.cls - x.off) }

def placeOf (a len : Nat) : Place := ⟨isleOf a, classOf a, offOf a, len⟩

/-- Rows of bytes of a Lamb image of `w` × `h` pixels (R205, R206). -/
def LambImage.places (g : LambImage) (isle w h : Nat) : List Place :=
  let n := if g.fmt = 0x11 then h + h / 2 else h
  let len := if g.fmt = 0x11 then w else (w - 1) * g.pixStride + g.c * pixelSize g.fmt
  (List.range n).map fun y => ⟨isle, g.cls, g.offset * 64 + y * g.rowStride, len⟩

def drainPlaces (isle : Nat) (o : DrainOps) : List Place :=
  (List.range o.rows.toNat).map fun r => ⟨isle, o.dstClass.toNat, o.dst.toNat * 64 + r * o.dstStride.toNat, 128 * fmtSize o.ofmt.toNat⟩

/-- The bytes of `n` pages that the page mover touches: at core offset 0x0_0000 all but the keeper region (R132). -/
def moverPlace (x : Place) : Place :=
  if x.cls = 4 && x.off % 2 ^ 18 = 0 then { x with off := x.off + 0x1000, len := x.len - 0x1000 } else x
def localPlaces (isList : Bool) (v count : Nat) : List Place := if isList then [] else [placeOf v (count * 65536)]
def sidePlaces (isList : Bool) (v count : Nat) : List Place := (localPlaces isList v count).map moverPlace

/-- The destination sides of an MCAST (R133). -/
def mcastPlaces (o : CopyOps) : List Place :=
  if o.dstList then [] else (runIsles o).map fun i => moverPlace ⟨i, classOf o.dst.toNat, offOf o.dst.toNat, o.count.toNat * 65536⟩

/-- The memory that an operand names, with the byte of the command that names it. -/
def opPlaces (isle : Nat) : PlanOp → List (Place × Nat)
  | .drain o => (drainPlaces isle o).map (·, 12)
  | .lwload o => [(Place.inClass ⟨isle, o.cls.toNat, o.src.toNat * 64, o.len.toNat⟩, 16)]
  | .copy o => (sidePlaces o.srcList o.src.toNat o.count.toNat).map (·, 12) ++ (sidePlaces o.dstList o.dst.toNat o.count.toNat).map (·, 20)
  | .mcast o => (sidePlaces o.srcList o.src.toNat o.count.toNat).map (·, 12) ++ (mcastPlaces o).map (·, 20)
  | .rget o | .rput o | .rreduce o => (localPlaces o.localList (localSide o) o.count.toNat).map (·, 18)
  | .window o => if o.mode = 1 then [(placeOf o.base.toNat (o.span.toNat * 65536), 20)] else []
  | _ => []

/-! ### Forks, and where the frames of a list lie -/

/-- Every command of the plan with its offset. -/
def Plan.ops (p : Plan) : List (Nat × PlanOp) :=
  p.strands.flatMap fun st => (indexed st.cmds).filterMap fun kc => kc.2.op.map (cmdAt st kc.1, ·)

def Plan.forks (p : Plan) : List (Nat × ForkOps) := p.ops.filterMap fun x => match x.2 with
  | .fork o => some (x.1, o)
  | _ => none

def ForkOps.has (o : ForkOps) (list : Nat) : Bool := decide (o.firstChild.toNat ≤ list) && decide (list < o.firstChild.toNat + o.children.toNat)

/-- The list that a BRANCH list is filled from. -/
def Plan.parentOf (p : Plan) (list : Nat) : Option Nat := (p.forks.find? fun f => ForkOps.has f.2 list).map (·.2.parent.toNat)

/-- Class of the frame behind entry `i` of list `n`, as R135 costs it: an IMAGE list names its frames, a list that draws frames stands for
its target, and a BRANCH list that draws none for its parent's entry, within `fuel` fork levels. None for a null entry. -/
def Plan.frameClass (p : Plan) : Nat → Nat → Nat → Option Nat
  | 0, _, _ => none
  | fuel + 1, n, i => match p.lists[n]? with
    | none => none
    | some l =>
      if l.kind = 1 then (match l.entries[i]? with
        | some e => if e = nullEntry then none else some (classOf e)
        | none => none)
      else if l.drawsAny then some l.target
      else match p.parentOf n with
        | some q => p.frameClass fuel q i
        | none => none

/-- Isle of the frame behind entry `i` of list `n`: an entry of an IMAGE list carries its own (R128), and so does one that a BRANCH list
inherits from it; a drawn frame lies in the list's isle. None for a null entry. -/
def Plan.frameIsle (p : Plan) : Nat → Nat → Nat → Option Nat
  | 0, _, _ => none
  | fuel + 1, n, i => match p.lists[n]? with
    | none => none
    | some l =>
      if l.kind = 1 then (match l.entries[i]? with
        | some e => if e = nullEntry then none else some (isleOf e)
        | none => none)
      else if l.kind = 4 && decide (i < l.inherit) then (match p.parentOf n with
        | some q => p.frameIsle fuel q i
        | none => none)
      else some l.isle

/-- Fork levels of a flock and its root (R143). -/
def forkLevels : Nat := 65

/-- Isle of page `k` of a side; none for a null entry. -/
def Plan.pageIsle (p : Plan) (isList : Bool) (v k : Nat) : Option Nat :=
  if isList then p.frameIsle forkLevels (refList v) (refIndex v + k) else some (isleOf v)

/-- How often each element stands in a list. -/
def tally {α : Type} [BEq α] (l : List α) : List (α × Nat) :=
  l.foldl (fun t a => if t.any (fun x => x.1 == a) then t.map fun x => if x.1 == a then (x.1, x.2 + 1) else x else t ++ [(a, 1)]) []

/-! ### Transfers over Sounds -/

/-- A planned transfer: the ports it leaves isles by, first its source's (isle, 0 north to 3 west), its bytes, the Sounds its head
crosses. -/
structure Transfer where
  ports : List (Nat × Nat)
  bytes : Nat
  hops : Nat
deriving DecidableEq, Repr

/-- Port of isle `a` toward its neighbour `b`. -/
def portTo (a b : Nat) : Nat := if b + 8 = a then 0 else if b = a + 1 then 1 else if b = a + 8 then 2 else 3

def portsOn : Nat → List Nat → List (Nat × Nat)
  | _, [] => []
  | a, b :: r => (a, portTo a b) :: portsOn b r

/-- From isle to isle, under R56. -/
def isleTransfer (t : ShapeTable) (a b n : Nat) : Option (List Transfer) :=
  if a = b || 64 ≤ a || 64 ≤ b then some [] else (route t a b).map fun path => [⟨portsOn a path, n, path.length⟩]

/-- Between an isle and a shore site; the edge isle's port governs both directions (R180). -/
def shoreTransfer (t : ShapeTable) (a site n : Nat) (inward : Bool) : Option (List Transfer) :=
  let e := edgeIsle site
  let shore := (e, site / 8)
  if 64 ≤ a then some [] else if t.out.contains (shoreSound site) then none
  else if inward then (route t e a).map fun path => [⟨shore :: portsOn e path, n, path.length + 1⟩]
  else (route t a e).map fun path => [⟨portsOn a path ++ [shore], n, path.length + 1⟩]

/-- An MCAST leaves its source, an isle of its run, toward both ends (R58). -/
def mcastTransfers (o : CopyOps) (src n : Nat) : List Transfer :=
  let run := runIsles o
  if !(run.contains src) then [] else
  let after := (run.dropWhile (· != src)).drop 1
  let before := (run.takeWhile (· != src)).reverse
  ([after, before].filter (!·.isEmpty)).map fun path => ⟨portsOn src path, n, path.length⟩

/-- Pages by the isles of their two sides: `a` and `b` give those of page `k`, and a null side stands for the isle of the page mover. -/
def pagePairs (own count : Nat) (a b : Nat → Option Nat) : List ((Nat × Nat) × Nat) :=
  tally ((List.range count).map fun k => ((a k).getD own, (b k).getD own))

/-- The transfers of pages by the isles of their two sides. -/
def pageTransfers (t : ShapeTable) (l : List ((Nat × Nat) × Nat)) : Option (List Transfer) :=
  (l.mapM fun x => isleTransfer t x.1.1 x.1.2 (x.2 * 65536)).map List.flatten

/-- The local leg of a Strait command: its pages by the isle of their local side (R180). -/
def localLeg (t : ShapeTable) (p : Plan) (st : Strand) (o : RemoteOps) (inward : Bool) : Option (List Transfer) :=
  ((tally ((List.range o.count.toNat).filterMap fun k => p.pageIsle o.localList (localSide o) k)).mapM fun x =>
    shoreTransfer t x.1 (st.inst / 4) (x.2 * 65536) inward).map List.flatten

/-- The planned transfers of a command (R180); none where no clear route exists. -/
def opTransfers (t : ShapeTable) (p : Plan) (st : Strand) : PlanOp → Option (List Transfer)
  | .copy o =>
    if o.srcList || o.dstList then
      pageTransfers t (pagePairs st.isle o.count.toNat (p.pageIsle o.srcList o.src.toNat) (p.pageIsle o.dstList o.dst.toNat))
    else isleTransfer t (isleOf o.src.toNat) (isleOf o.dst.toNat) (o.count.toNat * 65536)
  | .mcast o => some ((tally ((List.range o.count.toNat).map fun k => (p.pageIsle o.srcList o.src.toNat k).getD st.isle)).flatMap fun x =>
      mcastTransfers o x.1 (x.2 * 65536))
  | .split o => pageTransfers t (pagePairs st.isle o.count.toNat (fun k => p.frameIsle forkLevels o.list.toNat (o.first.toNat + k))
      fun _ => (p.lists[o.reserve.toNat]?).map (·.isle))
  | .rget o => localLeg t p st o true
  | .rput o | .rreduce o => localLeg t p st o false
  | .window o =>
    if o.mode != 1 then some [] else do
      let i := isleOf o.base.toNat
      let n := o.span.toNat * 65536
      let write ← if o.rights.toNat / 2 % 4 = 0 then some [] else shoreTransfer t i (st.inst / 4) n true
      let read ← if o.rights.toNat % 2 = 0 then some [] else shoreTransfer t i (st.inst / 4) n false
      pure (write ++ read)
  | _ => some []

/-- SOUND_SHARE of a leased isle's port; 0 elsewhere. -/
def Plan.soundShare (p : Plan) (port : Nat × Nat) : Nat := match p.leaseOn port.1 with
  | some l => l.shares.getD port.2 0
  | none => 0

/-- q_t (R180). The edge isle of a transfer that enters the wafer may lie outside the lease and then has no SOUND_SHARE: a free value
from 1 to 99 (log 152). -/
def Plan.ownShare (p : Plan) (x : Transfer) : Nat := match x.ports.head? with
  | none => 99
  | some port => if p.names port.1 then p.soundShare port else 1 + Config.unleasedShare (port.1 * 4 + port.2) % 99

/-- The share a transfer holds at a port: the plan's own, or q_t in transit (R180). -/
def Plan.shareAt (p : Plan) (x : Transfer) (port : Nat × Nat) : Nat :=
  if p.soundShare port = 0 then p.ownShare x else p.soundShare port

/-! ### Check 7 -/

/-- Resources that a lease entry names and that are not in service (R91, R122, R168, R202, R222, R311); ways and steps that the
isle's split does not give (R149). -/
def leaseUnhealthy (s : State) (p : Plan) : List (Bool × Nat) :=
  (indexed p.leases).flatMap fun nl =>
    let l := nl.2
    let x := s.isle l.isle
    let split := s.obj (0x3080 + l.isle) 0
    shifted (leaseAt p nl.1)
      [(bit l.flags 0 && !x.lamb, 1), (l.ox &&& x.ox.toNat != l.ox, 2), (l.bantam &&& x.bantam.toNat != l.bantam, 4),
       (l.ways != 0 && decide (16 ≤ split), 6), (l.pcs &&& x.pc.toNat != l.pcs, 8),
       (bit l.flags 1 && (decide (split < l.scratchBase + l.scratchSpan) || (List.range l.scratchSpan).any fun k =>
          bit (s.isleStore l.isle).disabledSteps.toNat (l.scratchBase + k)), 24)]

/-- The strand's engine lies inside the lease. -/
def Plan.hasEngine (p : Plan) (st : Strand) : Bool :=
  if st.cls = 1 then p.hasOx (st.isle * 4 + st.inst) else if st.cls = 2 then p.hasCore (st.isle * 16 + st.inst)
  else if st.cls = 3 then p.hasLamb st.isle else st.cls == 5 || p.names st.isle

def spanMeets (a m b n : Nat) : Bool := decide (a < b + n) && decide (b < a + m)

/-- Do two import windows cover one remote byte or counter? -/
def windowsMeet (a b : WindowOps) : Bool :=
  if a.mode = 0 && b.mode = 0 then spanMeets a.base.toNat (a.span.toNat * 65536) b.base.toNat (b.span.toNat * 65536)
  else a.mode == 2 && b.mode == 2 && a.base.toNat / 2 ^ 52 == b.base.toNat / 2 ^ 52 &&
    spanMeets (a.base.toNat % 4096) a.span.toNat (b.base.toNat % 4096) b.span.toNat

def PlanOp.isWindow : PlanOp → Bool
  | .window _ => true
  | _ => false

/-- What a command asks of the lease and the windows besides its places (R58, R222, R259). -/
def opLease (own : Nat) (p : Plan) (st : Strand) : PlanOp → List (Bool × Nat)
  | .lgeom o => [(decide (3 < lgeomClass o), 13)]
  | .lwload o => [(decide (3 < o.cls.toNat), 12)]
  | .mcast o => [(!((runIsles o).all p.names), 30)]
  | .rget o => [((p.importOn st.inst .read (remoteBase o) (o.count.toNat * 65536)).isNone, 12),
      (!o.localList && unitOf (localSide o) != own, 18)]
  | .rput o => [((p.importOn st.inst .write (remoteBase o) (o.count.toNat * 65536)).isNone, 12),
      (!o.localList && unitOf (localSide o) != own, 18)]
  | .rreduce o => [((p.importOn st.inst .reduce (remoteBase o) (o.count.toNat * 65536)).isNone, 12),
      (!o.localList && unitOf (localSide o) != own, 18)]
  | .rsignal o => [((p.tokenImport st.inst o.unit.toNat o.isle.toNat o.counter.toNat).isNone, 12)]
  | .window o =>
    [(o.mode == 3 && !((List.range o.span.toNat).all fun k => p.hasToken (isleOf o.base.toNat) (o.base.toNat % 4096 + k)), 20),
     (p.windows.any fun w => w.1 != st.inst && windowsMeet w.2 o, 20)]
  | _ => []

/-- The byte of a command whose planned transfer has no share: its local side, or the whole command. -/
def transferField : PlanOp → Nat
  | .rget _ | .rput _ | .rreduce _ => 18
  | .window _ => 20
  | _ => 0

/-- Counters, places, windows and Sound ports of a command. -/
def cmdLease (s : State) (own : Nat) (p : Plan) (st : Strand) (o : Nat) (c : Cmd) : List (Bool × Nat) :=
  shifted o ([(c.waitMode == 1 && !(p.hasToken (waitIsle st c) c.waitCounter), 4),
    (c.sigMode == 1 && !(p.hasToken c.sigIsle c.sigCounter), 8)] ++
    match c.op with
    | some op => (opPlaces st.isle op).map (fun x => (!(p.holdsPlace x.1), x.2)) ++ opLease own p st op ++
        [((opTransfers s.shape.cur p st op).any fun ts => ts.any fun x => p.ownShare x == 0, transferField op)]
    | none => [])

/-- Sources and destinations of a Lamb strand; what passes a class limit is check 8's (R222). -/
def lambPlaces (st : Strand) : List (Place × Nat) :=
  (lambWalk st.cmdOff ({}, 0) st.cmds).flatMap fun x => match lambJob x.2.2.1 x.2.1 with
    | some (some j) => (j.g.places st.isle j.g.w j.g.h ++ j.d.places st.isle j.ow j.oy.count.toNat).map (·.inClass, x.1)
    | _ => []

/-- Does a pool range reach a leased pseudo-channel or scratch step (R146, R148)? Whether it ends inside its target is check 9's. -/
def Plan.poolReaches (p : Plan) (l : PageList) : Bool :=
  if l.target = 2 then (List.range 16).any fun k => p.hasStep l.isle k && spanMeets l.poolBase l.poolSpan (k * 64) 64
  else (List.range (Nat.min l.poolSpan 32)).any fun k => p.hasPc l.isle (l.target * 32 + (l.poolBase + k) % 32)

/-- The lists' isles, pools and IMAGE entries (R128, R143). -/
def listLease (own : Nat) (p : Plan) : List (Bool × Nat) :=
  (indexed p.lists).flatMap fun nl =>
    let l := nl.2
    let o := listAt p nl.1
    (!(p.names l.isle), o + 4) ::
    (l.drawsAny && !(p.poolReaches l), o + 16) ::
    (indexed l.entries).map fun e => (e.2 != nullEntry &&
      !(e.2 % 65536 == 0 && unitOf e.2 == own && decide (classOf e.2 ≤ 2) && p.hasMem (localOf e.2)), l.entryOff + 8 * e.1)

/-- Check 7: LEASE_VIOLATION. -/
def checkLease (s : State) (p : Plan) : Option Nat :=
  firstBad (leaseUnhealthy s p ++
    ((indexed p.strands).flatMap fun ns =>
      let st := ns.2
      (!(p.hasEngine st), strandAt p ns.1 + if p.names st.isle && decide (st.cls < 3) then 2 else 0) ::
        (indexed st.cmds).flatMap (fun kc => cmdLease s s.unitNo p st (cmdAt st kc.1) kc.2) ++
        (if st.cls = 3 then (lambPlaces st).map fun x => (!(p.leasesPlace x.1), x.2) else [])) ++
    listLease s.unitNo p)

/-! ### Check 8 -/

def opOver : PlanOp → List (Bool × Nat)
  | .wload o => wloadOver o
  | .matmul o => matmulOver o
  | .drain o => drainOver o
  | .accload o => accloadOver o
  | .maskset o => masksetOver o
  | .kernel o => [(!(kernelFits o), 20)]
  | .lwload o => lwloadOver o
  | _ => []

/-- Check 8: LENGTH_OVER_BUFFER. -/
def checkLengths (p : Plan) : Option Nat :=
  firstBad (p.strands.flatMap fun st =>
    (indexed st.cmds).flatMap (fun kc => match kc.2.op with
      | some op => shifted (cmdAt st kc.1) (opOver op)
      | none => []) ++
    (if st.cls = 3 then (lambWalk st.cmdOff ({}, 0) st.cmds).flatMap fun x => match lambJob x.2.2.1 x.2.1 with
      | some (some j) => shifted x.1 (j.over x.2.2.2)
      | _ => [] else []))

/-! ### Check 9 (R143) -/

/-- A page reference outside its list. -/
def refOver (p : Plan) (isList : Bool) (v count : Nat) : Bool := isList && match p.listOf v with
  | some l => decide (l.capacity < refIndex v + count)
  | none => true

def Plan.splits (p : Plan) : List (Nat × SplitOps) := p.ops.filterMap fun x => match x.2 with
  | .split o => some (x.1, o)
  | _ => none

/-- Root of a list within `n` fork levels. -/
def Plan.rootOf (p : Plan) : Nat → Nat → Option Nat
  | 0, l => if (p.parentOf l).isNone then some l else none
  | n + 1, l => match p.parentOf l with
    | some q => p.rootOf n q
    | none => some l

/-- BRANCH lists of the flock of a root. -/
def Plan.flockSize (p : Plan) (root : Nat) : Nat :=
  ((indexed p.lists).filter fun nl => nl.2.kind == 4 && p.rootOf 64 nl.1 == some root).length

def forkOver (p : Plan) (earlier : List (Nat × ForkOps)) (o : ForkOps) : List (Bool × Nat) :=
  let first := o.firstChild.toNat
  [(decide (p.lists.length ≤ o.parent.toNat) || match p.rootOf 63 o.parent.toNat with
      | some r => decide (4096 < p.flockSize r)
      | none => true, 12),
   (decide (p.lists.length < first + o.children.toNat) || earlier.any fun e => spanMeets first o.children.toNat e.2.firstChild.toNat e.2.children.toNat, 16)]

def splitOver (p : Plan) (earlier : List (Nat × SplitOps)) (o : SplitOps) : List (Bool × Nat) :=
  let used := ((earlier.filter fun e => e.2.reserve == o.reserve).map (·.2.count.toNat)).sum
  [((p.lists[o.list.toNat]?).isNone, 12),
   ((p.lists[o.list.toNat]?).any fun l => decide (l.capacity < o.first.toNat + o.count.toNat), 16),
   ((p.lists[o.reserve.toNat]?).any fun r => decide (r.capacity < used + o.count.toNat), 18),
   ((p.lists[o.reserve.toNat]?).isNone, 20)]

def pageOver (p : Plan) : PlanOp → List (Bool × Nat)
  | .copy o => [(refOver p o.srcList o.src.toNat o.count.toNat, 12), (refOver p o.dstList o.dst.toNat o.count.toNat, 20)]
  | .mcast o => [(refOver p o.srcList o.src.toNat o.count.toNat, 12),
      ((List.range o.run.toNat).any fun k => refOver p o.dstList (o.dst.toNat + k) o.count.toNat, 20)]
  | .rget o | .rput o | .rreduce o => [(refOver p o.localList (localSide o) o.count.toNat, 18)]
  | .release o => [(decide (p.lists.length < o.first.toNat + o.lists.toNat), 12)]
  | _ => []

/-- Check 9: PAGE_LIST_BOUNDS. -/
def checkLists (p : Plan) : Option Nat :=
  firstBad ((indexed p.lists).map (fun nl => (nl.2.drawsAny &&
      decide (classLimit nl.2.target < (nl.2.poolBase + nl.2.poolSpan) * 65536), listAt p nl.1 + 16)) ++
    p.ops.flatMap (fun x => shifted x.1 (pageOver p x.2)) ++
    ((indexed p.forks).flatMap fun nf => shifted nf.2.1 (forkOver p (p.forks.take nf.1) nf.2.2)) ++
    ((indexed p.splits).flatMap fun ns => shifted ns.2.1 (splitOver p (p.splits.take ns.1) ns.2.2)))

/-! ### Checks 10 to 12 (R29, R35) -/

def declared (p : Plan) (isle counter : Nat) : List TokenDecl := p.tokens.filter fun t => t.isle == isle && t.counter == counter

/-- The commands with their offsets and strands. -/
def Plan.headers (p : Plan) : List (Nat × Strand × Cmd) :=
  p.strands.flatMap fun st => (indexed st.cmds).map fun kc => (cmdAt st kc.1, st, kc.2)

/-- The counters that commands wait on or signal, with the field that names each. -/
def Plan.used (p : Plan) : List (Nat × Nat × Nat) :=
  p.headers.flatMap fun x =>
    (if x.2.2.waitMode = 1 then [(x.1 + 4, waitIsle x.2.1 x.2.2, x.2.2.waitCounter)] else []) ++
    (if x.2.2.sigMode = 1 then [(x.1 + 8, x.2.2.sigIsle, x.2.2.sigCounter)] else [])

/-- Check 10: TOKEN_UNDECLARED; of two entries for one counter the later offends. -/
def checkTokens (p : Plan) : Option Nat :=
  firstBad ((indexed p.tokens).map (fun nt =>
      (((p.tokens.take nt.1).any fun t => t.isle == nt.2.isle && t.counter == nt.2.counter) &&
        (p.used.any fun u => u.2.1 == nt.2.isle && u.2.2 == nt.2.counter) || !(p.hasToken nt.2.isle nt.2.counter), tokenAt p nt.1)) ++
    p.used.map fun u => (declared p u.2.1 u.2.2 == [], u.1))

/-- Sum of SIGNAL_INC of the commands among `cmds` that signal a counter. -/
def signalledBy (isle counter : Nat) (cmds : List Cmd) : Nat :=
  ((cmds.filter fun c => c.sigMode == 1 && c.sigIsle == isle && c.sigCounter == counter).map (·.sigInc)).sum

/-- Sum of SIGNAL_INC of the plan's commands that signal a counter. -/
def signalled (p : Plan) (isle counter : Nat) : Nat := (p.strands.map fun st => signalledBy isle counter st.cmds).sum

/-- Check 11: TOKEN_IMBALANCE. -/
def checkBalance (p : Plan) : Option Nat :=
  firstBad ((indexed p.tokens).map fun nt => (decide (nt.2.final < nt.2.initial + signalled p nt.2.isle nt.2.counter), tokenAt p nt.1 + 6))

/-- Check 12: TOKEN_UNREACHABLE. -/
def checkTargets (p : Plan) : Option Nat :=
  firstBad (p.headers.map fun x => (x.2.2.waitMode == 1 &&
    (declared p (waitIsle x.2.1 x.2.2) x.2.2.waitCounter).any fun t => decide (t.final < x.2.2.waitTarget), x.1 + 4))

end Sys2Proof.Machine
end

