-- ==== Sys2Proof/Machine/Cost.lean ====
section
/-! DEFINITION. The cost of commands and stints (R36 to R41, R81, R82, R135, R136, R147, R179, R217, R269), and checks 13 to 16 of
the loader. Times are counted in units of 1/15,052,800 ns, in which a beat at each floor pace, and a byte at each rate, is whole. -/

namespace Sys2Proof.Machine

/-- Units of a nanosecond. -/
def unitsNs : Nat := 15052800
/-- Units of a beat at the floor pace of a profile. -/
def beatUnits (profile : Nat) : Nat := unitsNs * 1000 / floorOf profile
/-- Units of a byte in one pseudo-channel, 98 % of 25.6 or 32 GB/s (R147). -/
def pcUnits (profile : Nat) : Nat := if profile = 1 then 600000 else 480000
/-- Units of a byte at the HBM rate of an isle. -/
def hbmUnits (profile : Nat) : Nat := pcUnits profile / 64
/-- Units of a byte of a Strait, 200 GB/s (R269). -/
def straitUnits : Nat := 75264

/-- Beats, clocked units and window nanoseconds of a command. -/
structure Cost where
  beats : Nat := 0
  clock : Nat := 0
  window : Nat := 0
deriving DecidableEq, Repr

/-! ### HBM bytes over pseudo-channels (R135, R147) -/

/-- Bytes by isle × 64 + pseudo-channel. -/
abbrev Spread := Table Nat

def Spread.put (t : Spread) (isle pc n : Nat) : Spread := t.upd 0 (isle * 64 + pc) (· + n)

/-- A run of bytes of a target; only classes 0 and 1 lie in HBM. -/
def Spread.addRun (t : Spread) (x : Place) : Spread :=
  if 2 ≤ x.cls then t else
  (touched x.off x.len 65536 (x.len / 65536 + 2)).foldl (fun t f =>
    t.put x.isle (x.cls * 32 + f % 32) (Nat.min (x.off + x.len) ((f + 1) * 65536) - Nat.max x.off (f * 65536))) t

/-- A clocked time in whole nanoseconds, rounded up: each one is costed on its own (R147, R179). -/
def wholeNs (units : Nat) : Nat := ceilDiv units unitsNs * unitsNs

def Spread.units (t : Spread) (profile : Nat) : Nat := wholeNs (t.values.foldl Nat.max 0 * pcUnits profile)

/-- Leased pseudo-channels of a stack. -/
def Plan.pcsOf (p : Plan) (isle cls : Nat) : List Nat :=
  ((List.range 32).map (cls * 32 + ·)).filter (p.hasPc isle)


/-- A side of a page mover or Strait command: the HBM bytes of its pages, and which of them lie in HBM. -/
def Plan.side (p : Plan) (t : Spread) (isList : Bool) (v count : Nat) : Spread :=
  if !isList then t.addRun (placeOf v (count * 65536)) else
  match p.listOf v with
  | none => t
  | some l =>
    if l.kind = 1 then (slice l.entries (refIndex v) count).foldl (fun t e =>
      if e = nullEntry then t else t.addRun (placeOf (localOf e) 65536)) t
    else (tally ((List.range count).filterMap fun k => p.frameClass forkLevels (refList v) (refIndex v + k))).foldl (fun t x =>
      if 2 ≤ x.1 then t else
      let pcs := p.pcsOf l.isle x.1
      pcs.foldl (fun t pc => t.put l.isle pc (ceilDiv x.2 pcs.length * 65536)) t) t

/-- Does page `k` of a side lie in HBM? -/
def Plan.pageInHbm (p : Plan) (isList : Bool) (v k : Nat) : Bool :=
  if !isList then decide (classOf v < 2) else match p.frameClass forkLevels (refList v) (refIndex v + k) with
    | some c => decide (c < 2)
    | none => false

/-! ### Sounds (R54, R58, R180) -/

/-- Tokens of a counter when the first `done` commands of each strand have completed, every dynamic increment counted as given (R35). -/
def Plan.tokensAfter (p : Plan) (done : List Nat) (isle counter : Nat) : Nat := match declared p isle counter with
  | [] => 0
  | t :: _ => t.final - ((p.strands.zip done).map fun sd => signalledBy isle counter (sd.1.cmds.drop sd.2)).sum

/-- The wait of a command is met when the first `done` commands of each strand have completed. -/
def Plan.waitAfter (p : Plan) (done : List Nat) (st : Strand) (c : Cmd) : Bool :=
  c.waitMode != 1 || decide (c.waitTarget ≤ p.tokensAfter done (waitIsle st c) c.waitCounter)

/-- A command of a plan: its strand and its place in it. -/
structure At where
  strand : Nat
  index : Nat
deriving DecidableEq, Repr

/-- The next command of strand `n` can run when `done` have completed. -/
def Plan.canRun (p : Plan) (done : List Nat) (n : Nat) : Bool := match p.strands[n]? with
  | some st => (st.cmds[done.getD n 0]?).any (p.waitAfter done st)
  | none => false

/-- Every strand completes its next command where it can, but for the commands `held`. -/
def Plan.advance (p : Plan) (held : List At) (done : List Nat) : List Nat :=
  (indexed done).map fun nd => if p.canRun done nd.1 && !(held.contains ⟨nd.1, nd.2⟩) then nd.2 + 1 else nd.2

/-- As far as the strands come while the commands `held` do not complete. -/
def Plan.runHolding (p : Plan) (held : List At) : Nat → List Nat → List Nat
  | 0, done => done
  | n + 1, done => p.runHolding held n (p.advance held done)

/-- Can two commands of different strands be in flight at the same time (R180)? So they can where the token order lets both start while
neither has completed (DEDUCED, log 175). -/
def Plan.together (p : Plan) (a b : At) : Bool :=
  let done := p.runHolding [a, b] ((p.strands.map (·.cmds.length)).sum) (p.strands.map fun _ => 0)
  [a, b].all fun x => done.getD x.strand 0 == x.index && p.canRun done x.strand

/-- The transfers of a command; those of an export window can take place at any time of the run (R180, R259). -/
structure Sent where
  at_ : At
  always : Bool
  ts : List Transfer
deriving DecidableEq, Repr

/-- Every command with transfers. -/
def Plan.sent (p : Plan) (t : ShapeTable) : List Sent :=
  (indexed p.strands).flatMap fun ns => (indexed ns.2.cmds).filterMap fun kc => match kc.2.op with
    | some op => match (opTransfers t p ns.2 op).getD [] with
      | [] => none
      | ts => some ⟨⟨ns.1, kc.1⟩, op.isWindow, ts⟩
    | none => none

/-- Bytes of transfers over a port: one direction of one Sound. -/
def bytesOver (port : Nat × Nat) (ts : List Transfer) : Nat := ((ts.filter fun x => x.ports.contains port).map (·.bytes)).sum

/-- Transfers of the plan's other strands that can be in flight with those of the command at `a` (R180). The commands of one strand are
costed one after another (R179). -/
def Plan.sharing (p : Plan) (all : List Sent) (a : At) (ts : List Transfer) : List Transfer :=
  (all.filter fun y => y.at_.strand != a.strand && (y.ts.any fun y => y.ports.any fun port => ts.any fun x => x.ports.contains port) &&
    (y.always || p.together a y.at_)).flatMap (·.ts)

/-- Beats of a transfer, `ts` being all that are in flight with it and itself: the bytes over its busiest direction at the share it holds
there, and 48 beats for each Sound its head crosses. -/
def Plan.transferBeats (p : Plan) (ts : List Transfer) (x : Transfer) : Nat :=
  (x.ports.map fun port => ceilDiv (bytesOver port ts * 31 * 100) (20000 * p.shareAt x port)).foldl Nat.max 0 + 48 * x.hops

/-- Sound beats of the command at `a`, whose transfers are `ts`. -/
def Plan.soundBeats (p : Plan) (all : List Sent) (a : At) (ts : List Transfer) : Nat :=
  if ts.isEmpty then 0 else (ts.map (p.transferBeats (ts ++ p.sharing all a ts))).foldl Nat.max 0

/-! ### Commands -/

/-- Occupied unit, occupancy and latency of an Ox command (04, Table 10). -/
def oxBeats : PlanOp → Option (Nat × Nat × Nat)
  | .wload o => some (1, ceilDiv (o.rows.toNat * 128 * fmtSize o.wfmt.toNat) 256 + 8, 0)
  | .matmul o => some (2, o.m.toNat * (if o.ifmt = 1 then 4 else 1), 136)
  | .drain o => some (3, o.rows.toNat * (if o.precise && 3 ≤ o.func.toNat && o.func.toNat ≤ 0x0A then 2 else 1), 24)
  | .accload o => some (4, o.rows.toNat + 8, 0)
  | .maskset o => some (5, 4 * o.count.toNat, 0)
  | _ => none

/-- HBM bytes of a DRAIN: its rows; in a reduce mode 128 bytes for each line, in the command of slot SLOTS − 1 (R81, R157). -/
def drainSpread (isle : Nat) (o : DrainOps) : Spread :=
  if o.dstMode = 0 then (drainPlaces isle o).foldl (fun t x => t.addRun x) {}
  else if o.slot.toNat + 1 ≠ o.slots.toNat then {}
  else (drainPlaces isle o).foldl (fun t x => (t.addRun x).addRun x) {}

/-- Frames of a page of a SPLIT that lie in HBM (R136). -/
def splitSides (p : Plan) (o : SplitOps) (k : Nat) : Nat :=
  let hbm (l : Nat) (i : Nat) : Nat := match p.frameClass forkLevels l i with
    | some c => if c < 2 then 1 else 0
    | none => 0
  hbm o.list.toNat (o.first.toNat + k) + hbm o.reserve.toNat 0

def capacityOf (p : Plan) (l : Nat) : Nat := match p.lists[l]? with
  | some l => l.capacity
  | none => 0

/-- Pages of a page mover command with neither side in HBM (R135). -/
def storePages (p : Plan) (o : CopyOps) (mcast : Bool) : Nat :=
  ((List.range o.count.toNat).filter fun k => !(p.pageInHbm o.srcList o.src.toNat k) &&
    !(if mcast && o.dstList then (List.range o.run.toNat).any fun j => p.pageInHbm true (o.dst.toNat + j) k
      else p.pageInHbm o.dstList o.dst.toNat k)).length

/-- Beats and clocked units of a command that is no Lamb command and no Ox command; its Sound beats are `sound` (R31, R99, R135, R136,
R269). -/
def opCost (profile : Nat) (p : Plan) (sound : Nat) : PlanOp → Cost
  | .nop => { beats := 4 }
  | .bgWindow d => { window := d }
  | .fork o =>
    let e := capacityOf p o.parent.toNat
    { beats := 16 + e, clock := wholeNs ((o.children.toNat + 1) * e * 8 * hbmUnits profile) }
  | .split o =>
    let sides := (List.range o.count.toNat).map (splitSides p o)
    { beats := 8 * o.count.toNat + 16 * (sides.filter (· == 0)).length + sound, clock := wholeNs (sides.sum * 65536 * hbmUnits profile) }
  | .release o =>
    let e := ((List.range o.lists.toNat).map fun k => capacityOf p (o.first.toNat + k)).sum
    { beats := 16 + e, clock := wholeNs (e * 8 * hbmUnits profile) }
  | .kernel o =>
    { beats := o.budget.toNat,
      clock := wholeNs (o.hbmKib.toNat * 1024 * hbmUnits profile) + wholeNs (o.straitKib.toNat * 1024 * straitUnits) }
  | .copy o =>
    let t := p.side (p.side {} o.srcList o.src.toNat o.count.toNat) o.dstList o.dst.toNat o.count.toNat
    { beats := 16 * storePages p o false + sound, clock := t.units profile }
  | .mcast o =>
    let src := p.side {} o.srcList o.src.toNat o.count.toNat
    let all := if o.dstList then (List.range o.run.toNat).foldl (fun t k => p.side t true (o.dst.toNat + k) o.count.toNat) src
      else (mcastPlaces o).foldl (fun t x => t.addRun x) src
    { beats := 16 * storePages p o true + sound, clock := all.units profile }
  | .window _ => { beats := 4 }
  | .rget o | .rput o | .rreduce o =>
    let t := p.side {} o.localList (localSide o) o.count.toNat
    { beats := 8 + sound, clock := Nat.max (wholeNs (o.count.toNat * 65536 * straitUnits)) (t.units profile) }
  | .rfence | .rsignal _ => { beats := 8 }
  | _ => {}

/-- A Lamb command with the groups of its stint (10, Table 5; R217). -/
def lambCost (profile isle : Nat) (l : LambSt) (op : PlanOp) : Cost :=
  match lambJob l op with
  | some (some j) =>
    let n := j.oy.count.toNat
    let rows := (List.range j.g.h).filter fun y => (List.range n).any fun r => j.reach (j.oy.first.toNat + r) y
    let t := rows.foldl (fun (t : Spread) y => t.addRun ⟨isle, j.g.cls, j.g.offset * 64 + y * j.g.rowStride, j.g.rowStride⟩) {}
    { beats := j.beats + j.latency, clock := (t.addRun ⟨isle, j.d.cls, j.d.offset * 64, n * j.d.rowStride⟩).units profile }
  | _ => match op with
    | .lgeom _ => { beats := 2 }
    | .lwload o =>
      let t := Spread.addRun {} ⟨isle, o.cls.toNat, o.src.toNat * 64, o.len.toNat⟩
      { beats := ceilDiv o.len.toNat 256 + 8, clock := t.units profile }
    | _ => {}

/-! ### The timeline of an Ox stint (R82, R179) -/

/-- Accumulator rows (kind 0), mask entries (1) or operand-store bytes (2), from `lo` up to `hi`. -/
structure Area where
  kind : Nat
  lo : Nat
  hi : Nat
deriving DecidableEq, Repr

def Area.meets (a b : Area) : Bool := a.kind == b.kind && decide (a.lo < b.hi) && decide (b.lo < a.hi)
def anyMeet (a b : List Area) : Bool := a.any fun x => b.any x.meets

def storeArea (off n stride row : Nat) : Area := ⟨2, off, off + (n - 1) * stride + row⟩

/-- What an Ox command reads and writes in its own engine. -/
def oxAreas (inst : Nat) : PlanOp → List Area × List Area
  | .wload o => ([storeArea o.src.toNat o.rows.toNat o.srcStride.toNat (128 * fmtSize o.wfmt.toNat)], [])
  | .matmul o =>
    let acc : Area := ⟨0, o.accRow.toNat, o.accRow.toNat + o.m.toNat⟩
    ([storeArea o.inAddr.toNat o.m.toNat o.inStride.toNat (tileRows o.ifmt.toNat * fmtSize o.ifmt.toNat),
      ⟨1, o.mask.toNat, o.mask.toNat + 1⟩] ++ (if o.acc then [acc] else []), [acc])
  | .drain o =>
    let d := o.dst.toNat * 64
    ([⟨0, o.accRow.toNat, o.accRow.toNat + o.rows.toNat⟩, ⟨1, o.mask.toNat, o.mask.toNat + 1⟩] ++
      (if drainAux o then [⟨2, o.aux.toNat * 64, o.aux.toNat * 64 + 576⟩] else []),
     if o.dstClass = 3 && d / 2 ^ 21 = inst then [storeArea (d % 2 ^ 21) o.rows.toNat o.dstStride.toNat (128 * fmtSize o.ofmt.toNat)] else [])
  | .accload o => ([storeArea o.src.toNat o.rows.toNat o.srcStride.toNat (128 * fmtSize o.sfmt.toNat)],
      [⟨0, o.accRow.toNat, o.accRow.toNat + o.rows.toNat⟩])
  | .maskset o => ([⟨2, o.src.toNat, o.src.toNat + 32 * o.count.toNat⟩], [⟨1, o.first.toNat, o.first.toNat + o.count.toNat⟩])
  | _ => ([], [])

/-- A command on the timeline: its unit, when its occupancy and its completion end, what it reads and writes. -/
structure Placed where
  unit : Nat
  left : Nat
  done : Nat
  reads : List Area
  writes : List Area
  wload : Bool

/-- The timeline so far, newest command first: latest start and completion, end of the counted beats, units of counted beats. -/
structure Timeline where
  placed : List Placed := []
  start : Nat := 0
  done : Nat := 0
  covered : Nat := 0
  beats : Nat := 0

def Timeline.add (t : Timeline) (u inst : Nat) (unit occ lat clock : Nat) (op : PlanOp) : Timeline :=
  let (reads, writes) := oxAreas inst op
  let swap := match op with
    | .matmul o => o.swap
    | _ => false
  let after (q : Placed) : Nat :=
    if q.unit = unit then q.left
    else if anyMeet q.writes (reads ++ writes) || anyMeet q.reads writes || swap && q.wload then q.done else 0
  let start := (t.placed.map after).foldl Nat.max (Nat.max t.start (match t.placed[31]? with
    | some q => q.done
    | none => 0))
  let beatEnd := start + occ * u + lat * u
  let left := if unit = 6 then beatEnd + clock else start + occ * u
  let wload := match op with
    | .wload _ => true
    | _ => false
  let done := Nat.max t.done (beatEnd + clock)
  { placed := ⟨unit, left, done, reads, writes, wload⟩ :: t.placed, start := start, done := done,
    covered := Nat.max t.covered beatEnd, beats := t.beats + (beatEnd - Nat.max start t.covered) }

/-- A stretch of a stint: work in units of counted beats and of exposed clocked time, or a BG_WINDOW with its offset. -/
inductive Piece where
  | work (beats clock : Nat)
  | window (ns off : Nat)
deriving DecidableEq, Repr

def Timeline.piece (t : Timeline) : Piece := .work t.beats (t.done - t.beats)

/-! ### Stints (R30, R37) -/

/-- A command with its offset, its operands, its cost where it has one, and whether it ends a stint. -/
structure Costed where
  off : Nat
  op : PlanOp
  cost : Option Cost
  last : Bool

/-- Number of the strand on the engine of `st`, which no other strand of the plan names (R43). -/
def Plan.numberOf (p : Plan) (st : Strand) : Nat := p.strands.findIdx (sameEngine st)

/-- Cost of command `k` of a strand that is no Lamb command; none where no route exists. -/
def Plan.cmdCost (t : ShapeTable) (profile : Nat) (p : Plan) (st : Strand) (k : Nat) (op : PlanOp) : Option Cost :=
  (opTransfers t p st op).map fun ts =>
    opCost profile p (if ts.isEmpty then 0 else p.soundBeats (p.sent t) ⟨p.numberOf st, k⟩ ts) op

/-- The commands of a strand, costed one by one; none where no route exists. -/
def costedCmds (t : ShapeTable) (profile : Nat) (p : Plan) (st : Strand) : List Costed :=
  if st.cls = 3 then
    (indexed ((lambWalk st.cmdOff ({}, 0) st.cmds).zip st.cmds)).map fun kxc =>
      let (x, c) := kxc.2
      ⟨x.1, x.2.1, if c.cls = 3 then some (lambCost profile st.isle x.2.2.1 x.2.1) else p.cmdCost t profile st kxc.1 x.2.1, c.yield⟩
  else (indexed st.cmds).filterMap fun kc => kc.2.op.map fun op =>
    ⟨cmdAt st kc.1, op, p.cmdCost t profile st kc.1 op, kc.2.yield⟩

/-- Pieces of an Ox stint. -/
def oxPieces (profile : Nat) (st : Strand) : Timeline → List Costed → List Piece
  | t, [] => [t.piece]
  | t, c :: r =>
    let u := beatUnits profile
    match oxBeats c.op, c.cost with
    | some (unit, occ, lat), _ =>
      let clock := match c.op with
        | .drain o => (drainSpread st.isle o).units profile
        | _ => 0
      oxPieces profile st (t.add u st.inst unit occ lat clock c.op) r
    | none, some k => if k.window = 0 then oxPieces profile st (t.add u st.inst 6 k.beats 0 k.clock c.op) r
      else t.piece :: .window k.window c.off :: oxPieces profile st {} r
    | none, none => oxPieces profile st t r

/-- Pieces of a stint whose commands are counted one after another (R179). -/
def serialPieces (profile : Nat) (cs : List Costed) : List Piece :=
  cs.map fun c => match c.cost with
    | some k => if k.window = 0 then .work (k.beats * beatUnits profile) k.clock else .window k.window c.off
    | none => .work 0 0

/-- Stints of a strand. -/
def splitStints : List Costed → List (List Costed)
  | [] => []
  | c :: r => match splitStints r with
    | [] => [[c]]
    | x :: y => if c.last then [c] :: x :: y else (c :: x) :: y

def stintPieces (profile : Nat) (st : Strand) (cs : List Costed) : List Piece :=
  if st.cls = 1 then oxPieces profile st {} cs else serialPieces profile cs

/-- Duration of a run of pieces (R37). -/
def piecesNs (ps : List Piece) : Nat :=
  let (b, x, w) := ps.foldl (fun (a : Nat × Nat × Nat) q => match q with
    | .work b x => (a.1 + b, a.2.1 + x, a.2.2)
    | .window n _ => (a.1, a.2.1, a.2.2 + n)) (0, 0, 0)
  ceilDiv b unitsNs + ceilDiv x unitsNs + w

/-- The stints of a strand with their offsets. -/
def strandStints (t : ShapeTable) (profile : Nat) (p : Plan) (st : Strand) : List (Nat × List Piece) :=
  (splitStints (costedCmds t profile p st)).map fun cs => ((cs.head?.map (·.off)).getD 0, stintPieces profile st cs)

/-! ### Checks 13 to 16 -/

/-- Check 13: STINT_OVER_CAP; a transfer without a route has no cost that could meet it. -/
def checkStints (s : State) (p : Plan) : Option Nat :=
  firstBad (p.strands.flatMap fun st =>
    (costedCmds s.shape.cur p.header.profile p st).map (fun c => (c.cost.isNone, c.off)) ++
    (strandStints s.shape.cur p.header.profile p st).map fun q => (decide (500000 < piecesNs q.2), q.1))

/-- Housekeeping core of an isle (R121). -/
def housekeeper (x : IsleSt) : Nat := ((List.range 16).reverse.find? fun k => bit x.bantam.toNat k).getD 15

def needsWindows (s : State) (st : Strand) : Bool :=
  st.cls == 1 || st.cls == 3 || st.cls == 2 && st.inst == housekeeper (s.isle st.isle)

/-- Windows of a stint at its place in the strand: the strand times at which they start and end, with their offsets. -/
def windowTimes (t0 : Nat) : List Piece → List Piece → List (Nat × Nat × Nat)
  | _, [] => []
  | seen, .window n o :: r => (t0 + piecesNs seen, t0 + piecesNs seen + n, o) :: windowTimes t0 (seen ++ [.window n o]) r
  | seen, q :: r => windowTimes t0 (seen ++ [q]) r

def strandWindows : Nat → List (Nat × List Piece) → List (Nat × Nat × Nat)
  | _, [] => []
  | t0, q :: r => windowTimes t0 [] q.2 ++ strandWindows (t0 + piecesNs q.2) r

/-- Gaps above 50 ms, up to the strand's end at `stop` (R38). -/
def gapsBad (stop place : Nat) : Nat → List (Nat × Nat × Nat) → List (Bool × Nat)
  | from_, [] => [(decide (50000000 < stop - from_), place)]
  | from_, w :: r => (decide (50000000 < w.1 - from_), w.2.2) :: gapsBad stop place w.2.1 r

/-- Check 14: BG_WINDOW_MISSING. -/
def checkWindows (s : State) (p : Plan) : Option Nat :=
  firstBad (p.strands.flatMap fun st =>
    if !(needsWindows s st) then [] else
    let qs := strandStints s.shape.cur p.header.profile p st
    gapsBad ((qs.map fun q => piecesNs q.2).sum) (cmdAt st (st.cmds.length - 1)) 0 (strandWindows 0 qs))

/-- R39. -/
def boundOf (h : PlanHeader) : Nat :=
  ceilDiv (h.pathBeats * 1000) (floorOf h.profile) + h.pathXfer + h.pathWindow + h.pathStints * (1500 + h.weaveNs) + h.pathStrait + 35000

/-- Check 15: BOUND_MISMATCH. -/
def checkBound (p : Plan) : Option Nat := firstBad [(p.header.boundNs != boundOf p.header, 80)]

/-- R41. -/
def strandNs (s : State) (p : Plan) (st : Strand) : Nat :=
  let qs := strandStints s.shape.cur p.header.profile p st
  (qs.map fun q => piecesNs q.2).sum + qs.length * (1500 + p.header.weaveNs) + 35000

/-- Check 16: BOUND_UNDERSTATED. -/
def checkPath (s : State) (p : Plan) : Option Nat := firstBad (p.strands.map fun st => (decide (p.header.boundNs < strandNs s p st), 80))

/-! ### The loader (R43) -/

/-- DETAIL of a refusal under R43. -/
def offsetDetail (o : Nat) : List Byte := leBytes 4 o

/-- Checks in order; code and DETAIL of the first that fails. -/
def validate (s : State) (img : List Byte) (p : Plan) : Option (Nat × List Byte) :=
  let or_ (code : Nat) (c : Option Nat) (next : Unit → Option (Nat × List Byte)) : Option (Nat × List Byte) := match c with
    | some o => some (code, offsetDetail o)
    | none => next ()
  or_ 0x601 (checkMagic p) fun _ => or_ 0x602 (checkLayout img p) fun _ => or_ 0x603 (checkReserved img p) fun _ =>
  or_ 0x604 (checkProfile s p) fun _ => match checkShape s p with
  | some i => some (0x610, leBytes 4 s.shape.cur.epoch ++ leBytes 1 i)
  | none =>
    or_ 0x605 (checkCommands s.unitNo s.shape.cur.out p) fun _ => or_ 0x606 (checkLease s p) fun _ => or_ 0x607 (checkLengths p) fun _ =>
    or_ 0x608 (checkLists p) fun _ => or_ 0x609 (checkTokens p) fun _ => or_ 0x60A (checkBalance p) fun _ =>
    or_ 0x60B (checkTargets p) fun _ => or_ 0x60C (checkStints s p) fun _ => or_ 0x60D (checkWindows s p) fun _ =>
    or_ 0x60E (checkBound p) fun _ => or_ 0x60F (checkPath s p) fun _ => none

end Sys2Proof.Machine
end

