-- ==== Sys2Proof/Machine/Admit.lean ====
section
/-! DEFINITION. Admission of a validated plan beside the loaded plans (R299 to R307, R310, R311), and its placing. -/

namespace Sys2Proof.Machine

/-! ### What a plan holds -/

/-- Pages of operand stores, keyed isle × 128 + engine × 32 + page. -/
def storePagesOf (isle off len : Nat) : List Nat := (touched off len 65536 128).map (isle * 128 + ·)
def placePages (x : Place) : List Nat := if x.cls = 3 then storePagesOf x.isle x.off x.len else []

/-- Operand-store pages that a command touches (R301). -/
def opPages (st : Strand) (op : PlanOp) : List Nat :=
  let own (a : Area) : List Nat := if a.kind = 2 then storePagesOf st.isle (st.inst * 2 ^ 21 + a.lo) (a.hi - a.lo) else []
  match op with
  | .drain o =>
    let n := o.rows.toNat
    (if o.gateOp != 0 then storePagesOf st.isle (st.inst * 2 ^ 21) (2 ^ 21) else (oxAreas st.inst op).1.flatMap own) ++
      placePages ⟨st.isle, o.dstClass.toNat, o.dst.toNat * 64, (n - 1) * o.dstStride.toNat + 128 * fmtSize o.ofmt.toNat⟩
  | .lwload _ | .copy _ | .mcast _ => (opPlaces st.isle op).flatMap fun x => placePages x.1
  | op => (oxAreas st.inst op).1.flatMap own

/-- The footprints of a plan on all engines (R301). -/
def Plan.footprint (p : Plan) : List Nat :=
  p.strands.flatMap fun st =>
    (st.cmds.filterMap (·.op)).flatMap (opPages st) ++
    (if st.cls = 3 then (lambWalk st.cmdOff ({}, 0) st.cmds).flatMap fun x => match lambJob x.2.2.1 x.2.1 with
      | some (some j) => placePages ⟨st.isle, j.g.cls, j.g.offset * 64, j.g.extent j.g.w j.g.h⟩ ++
          placePages ⟨st.isle, j.d.cls, j.d.offset * 64, j.d.extent j.ow j.oy.count.toNat⟩
      | _ => [] else [])

/-- Adders that a plan uses, keyed isle × 3 + class (R303). -/
def Plan.addersUsed (p : Plan) : List Nat :=
  (p.strands.flatMap fun st => st.cmds.filterMap fun c => match c.op with
    | some (.drain o) => if o.dstMode = 0 then none else some (st.isle * 3 + o.dstClass.toNat)
    | _ => none) ++
  p.windows.filterMap fun w => if w.2.mode = 1 && bit w.2.rights.toNat 2 then some (isleOf w.2.base.toNat * 3 + classOf w.2.base.toNat) else none

/-- Export windows with their ports. -/
def Plan.exports (p : Plan) : List (Nat × WindowOps) := p.windows.filter fun w => w.2.mode == 1 || w.2.mode == 3

def Plan.transfers (t : ShapeTable) (p : Plan) : List Transfer :=
  p.strands.flatMap fun st => (st.cmds.filterMap (·.op)).flatMap fun op => (opTransfers t p st op).getD []

/-- A plan's share at a port: its SOUND_SHARE, or its transit share (R180). -/
def Plan.portShare (t : ShapeTable) (p : Plan) (port : Nat × Nat) : Nat :=
  if p.soundShare port ≠ 0 then p.soundShare port
  else (((p.transfers t).filter fun x => x.ports.contains port).map p.ownShare).foldl Nat.max 0

/-- The ports where a plan holds a share. -/
def Plan.portsHeld (t : ShapeTable) (p : Plan) : List (Nat × Nat) :=
  (p.leases.flatMap fun l => (List.range 4).map (l.isle, ·)) ++ (p.transfers t).flatMap (·.ports)

/-- Keys of shared engines: isle × 6 + Ox 0 to 3, 4 Lamb, 5 page mover (R305). -/
def Plan.sharedKeys (p : Plan) : List Nat :=
  (p.leases.flatMap fun l => ((List.range 5).filter fun n => p.usesShared (l.isle * 6 + n)).map (l.isle * 6 + ·)) ++
  p.strands.flatMap fun st => if p.usesShared (st.isle * 6 + 5) then [st.isle * 6 + 5] else []

/-- The longest stint of a plan on a shared engine, SPLIT stints of a page mover included (R307). -/
def Plan.longest (t : ShapeTable) (p : Plan) (k : Nat) : Nat :=
  let prof := p.header.profile
  (p.strands.flatMap fun st =>
    (if sharedKey st = some k then (strandStints t prof p st).map fun q => piecesNs q.2 else []) ++
    (if st.isle * 6 + 5 = k then (costedCmds t prof p st).filterMap fun c => match c.op, c.cost with
      | .split _, some x => some (piecesNs [.work (x.beats * beatUnits prof) x.clock])
      | _, _ => none else [])).foldl Nat.max 0

/-! ### Conflicts (14, Tables 2 and 5) -/

/-- Does a plan hold a resource, by kind, isle and index? Kinds 1 to 5 of 14, Table 5; 10 a Strait port. -/
def Plan.holds (p : Plan) (kind isle index : Nat) : Bool :=
  if kind = 1 then p.hasPc isle index else if kind = 2 then p.hasWay isle index else if kind = 3 then p.hasStep isle index
  else if kind = 4 then p.hasToken isle index else if kind = 5 then p.hasCore (isle * 16 + index) else p.usesPort index

/-- Indexes of a kind that a lease entry could name. -/
def kindRange (l : LeaseEntry) (kind : Nat) : List Nat :=
  if kind = 1 then List.range 64 else if kind = 4 then (List.range l.tokenSpan).map (l.tokenBase + ·) else List.range 16

/-- A conflict: reason, isle, index, and the context that holds the resource. -/
structure Conflict where
  reason : Nat
  isle : Nat
  index : Nat
  ctx : Nat
deriving DecidableEq, Repr

def holder (others : List (Nat × Plan)) (f : Plan → Bool) : Option Nat := (others.find? fun cp => f cp.2).map (·.1)

/-- Check 1 of admission. -/
def exclusiveConflict (others : List (Nat × Plan)) (p : Plan) : Option Conflict :=
  ([1, 2, 3, 4, 5].findSome? fun k => p.leases.findSome? fun l => (kindRange l k).findSome? fun n =>
    if p.holds k l.isle n then (holder others fun q => q.holds k l.isle n).map (⟨k, l.isle, n, ·⟩) else none).or
  (p.strands.findSome? fun st => if st.cls = 5 then (holder others fun q => q.usesPort st.inst).map (⟨10, 0xFF, st.inst, ·⟩) else none)

/-- Checks 2 to 4. -/
def footprintConflict (others : List (Nat × Plan)) (p : Plan) : Option Conflict :=
  let held := others.map fun cp => (cp.1, cp.2.footprint)
  p.footprint.findSome? fun k => (held.find? fun h => h.2.contains k).map fun h => ⟨6, k / 128, k % 128, h.1⟩

def adderConflict (others : List (Nat × Plan)) (p : Plan) : Option Conflict :=
  p.addersUsed.findSome? fun k => (holder others fun q => q.addersUsed.contains k).map (⟨7, k / 3, k % 3, ·⟩)

def keyConflict (others : List (Nat × Plan)) (p : Plan) : Option Conflict :=
  p.exports.findSome? fun w => (holder others fun q => q.exports.any fun v => v.1 == w.1 && v.2.key == w.2.key).map
    (⟨8, isleOf w.2.base.toNat, w.1, ·⟩)

/-- Check 5: a port where the shares of all loaded plans pass 99. -/
def shareConflict (tab : Plan → ShapeTable) (others : List (Nat × Plan)) (p : Plan) : Option Conflict :=
  if others.isEmpty then none else
  (p.portsHeld (tab p)).findSome? fun port =>
    let mine := p.portShare (tab p) port
    let rest := others.map fun cp => (cp.1, cp.2.portShare (tab cp.2) port)
    if mine ≠ 0 && 99 < mine + (rest.map (·.2)).sum then
      (rest.find? fun r => r.2 != 0).map fun r => ⟨9, port.1, port.2, r.1⟩ else none

def Conflict.detail (c : Conflict) : List Byte := leBytes 1 c.reason ++ leBytes 1 c.isle ++ leBytes 2 c.index ++ leBytes 1 c.ctx

/-! ### The weave (R307) -/

/-- WEAVE_NS that a plan needs on an engine beside the others. -/
def weaveNeed (tab : Plan → ShapeTable) (others : List Plan) (k : Nat) : Nat :=
  2 * ((others.filter fun q => q.sharedKeys.contains k).map fun q => q.longest (tab q) k).sum

/-- The first engine on which a plan misses its allowance, with the need. -/
def weaveShort (tab : Plan → ShapeTable) (others : List Plan) (p : Plan) : Option (Nat × Nat) :=
  if others.isEmpty then none else
  p.sharedKeys.findSome? fun k =>
    if p.header.weaveNs < weaveNeed tab others k then some (k, weaveNeed tab others k) else none

/-- DETAIL of checks 6 and 7 (14, Table 6). -/
def weaveDetail (k ctx need : Nat) : List Byte :=
  let (cls, inst) := if k % 6 < 4 then (1, k % 6) else if k % 6 = 4 then (3, 0) else (4, 0)
  leBytes 1 0 ++ leBytes 1 (k / 6) ++ leBytes 1 inst ++ leBytes 1 cls ++ leBytes 1 ctx ++ leBytes 4 need

/-- The loaded plans of the other contexts. -/
def State.others (s : State) (c : Nat) : List (Nat × Plan) := s.loaded.filter fun cp => cp.1 != c

/-- The admission checks of 14, Table 2 in order: code and DETAIL of the first that fails. -/
def State.admission (s : State) (c : Nat) (p : Plan) : Option (Nat × List Byte) :=
  let others := s.others c
  let tab (q : Plan) : ShapeTable := s.tableOf q.header.epoch
  match ((((exclusiveConflict others p).or (footprintConflict others p)).or (adderConflict others p)).or
      (keyConflict others p)).or (shareConflict tab others p) with
  | some x => some (0x650, x.detail)
  | none => match weaveShort tab (others.map (·.2)) p with
    | some (k, need) => some (0x651, weaveDetail k 0xFF need)
    | none => others.findSome? fun cq =>
        (weaveShort tab (p :: (others.filter fun o => o.1 != cq.1).map (·.2)) cq.2).map fun kn => (0x652, weaveDetail kn.1 cq.1 kn.2)

/-! ### Waiting and placing -/

/-- The plans whose leases are being cleared. -/
def State.clearingPlans (s : State) : List Plan := s.ctxs.values.flatMap (·.clearing)

/-- A LOAD waits while a resource it needs is being cleared, or an isle of its lease is in retention or its wake is not finished (R311,
R420). -/
def State.loadWaits (s : State) (p : Plan) : Bool :=
  let clearing := s.clearingPlans.map fun q => (0, q)
  (exclusiveConflict clearing p).isSome || (footprintConflict clearing p).isSome ||
    p.leases.any fun l => s.power.isle.get .i3 l.isle == .i2 || s.power.hold.get .unpowered (holdIsle l.isle) == .held

/-- A LOAD is refused: the context is EMPTY (R282, R300). -/
def State.refuseLoad (s : State) (c code planId : Nat) (detail : List Byte) : State :=
  let s := s.updCtx c fun x => { x with
    state := .empty, plan := none, waiting := none
    account := if code / 16 = 0x65 then { x.account with refusals := satAdd 32 x.account.refusals 1, lastRefusal := code } else x.account }
  s.refuse c 0x521 code planId detail

/-- An admitted plan holds its lease, and the context is LOADED (R300). -/
def State.placePlan (s : State) (c : Nat) (p : Plan) : State :=
  let tag := ((s.ctx c).entry.map (·.tag)).getD 0
  let s := s.updCtx c fun x => { x with state := .loaded, plan := some p, waiting := none }
  (s.completion c 0x521 0 false false false tag p.header.planId p.header.boundNs [] s.clock.base).consume c

/-- What a profile lowering, an epoch advance or a failed clearing has changed since validation (R17, R63, R311, R313). -/
def State.recheck (s : State) (p : Plan) : Option (Nat × List Byte) :=
  match checkProfile s p, checkShape s p, firstBad (leaseUnhealthy s p) with
  | some o, _, _ => some (0x604, offsetDetail o)
  | none, some i, _ => some (0x610, leBytes 4 s.shape.cur.epoch ++ leBytes 1 i)
  | none, none, some o => some (0x606, offsetDetail o)
  | none, none, none => none

/-- Admit a validated plan, or wait, or refuse it. -/
def State.admitPlan (s : State) (c : Nat) (p : Plan) : State :=
  if s.loadWaits p then s.updCtx c fun x => { x with waiting := some p } else
  match (s.recheck p).or (s.admission c p) with
  | some (code, detail) => s.refuseLoad c code p.header.planId detail
  | none => s.placePlan c p

/-- LOADs that waited go on, in the order of their contexts. -/
def State.retryLoads (s : State) : State :=
  (List.range 64).foldl (fun s c => match (s.ctx c).waiting with
    | some p => s.admitPlan c p
    | none => s) s

end Sys2Proof.Machine
end

