-- ==== Sys2Proof/Machine/Hash.lean ====
section
/-! DEFINITION. SHA-256, SHA-384 and HMAC-SHA-256, which the manual names (R336, R338, R401, R433). The round constants are the first
bits of the fractional parts of cube roots and square roots of the first primes, as FIPS 180-4 defines them (PRESUMED: the standard's
text is not in the manual; log 70). -/

namespace Sys2Proof.Machine

/-- The first 80 primes. -/
def primes : List Nat :=
  [2, 3, 5, 7, 11, 13, 17, 19, 23, 29, 31, 37, 41, 43, 47, 53, 59, 61, 67, 71, 73, 79, 83, 89, 97, 101, 103, 107, 109, 113] ++
  [127, 131, 137, 139, 149, 151, 157, 163, 167, 173, 179, 181, 191, 193, 197, 199, 211, 223, 227, 229, 233, 239, 241, 251, 257] ++
  [263, 269, 271, 277, 281, 283, 293, 307, 311, 313, 317, 331, 337, 347, 349, 353, 359, 367, 373, 379, 383, 389, 397, 401, 409]

/-- Greatest r below 2^bits with r^k ≤ n, from the top bit down. -/
def rootFrom (k n : Nat) : Nat → Nat → Nat
  | 0, r => r
  | b + 1, r => rootFrom k n b (if (r + 2 ^ b) ^ k ≤ n then r + 2 ^ b else r)

/-- First `w` bits of the fractional part of the k-th root of `p`. -/
def rootFrac (w k p : Nat) : Nat := rootFrom k (p * 2 ^ (k * w)) (w + 6) 0 % 2 ^ w

/-- A member of the SHA-2 family: word size, rounds, and the rotations of Σ0, Σ1, σ0, σ1 (the last of a σ is a shift). -/
structure Sha where
  w : Nat
  rounds : Nat
  sum0 : Nat × Nat × Nat
  sum1 : Nat × Nat × Nat
  sig0 : Nat × Nat × Nat
  sig1 : Nat × Nat × Nat
deriving DecidableEq, Repr

def sha256Of : Sha := ⟨32, 64, (2, 13, 22), (6, 11, 25), (7, 18, 3), (17, 19, 10)⟩
def sha512Of : Sha := ⟨64, 80, (28, 34, 39), (14, 18, 41), (1, 8, 7), (19, 61, 6)⟩

def Sha.rotr (h : Sha) (x n : Nat) : Nat := x / 2 ^ n + x % 2 ^ n * 2 ^ (h.w - n)
def Sha.sum (h : Sha) (r : Nat × Nat × Nat) (x : Nat) : Nat := h.rotr x r.1 ^^^ h.rotr x r.2.1 ^^^ h.rotr x r.2.2
def Sha.sig (h : Sha) (r : Nat × Nat × Nat) (x : Nat) : Nat := h.rotr x r.1 ^^^ h.rotr x r.2.1 ^^^ x / 2 ^ r.2.2
def Sha.add (h : Sha) (l : List Nat) : Nat := l.sum % 2 ^ h.w
def Sha.consts (h : Sha) : List Nat := (primes.take h.rounds).map (rootFrac h.w 3)

/-- One round on the eight working words. -/
def Sha.round (h : Sha) (v : List Nat) (k w : Nat) : List Nat :=
  match v with
  | [a, b, c, d, e, f, g, x] =>
    let t1 := h.add [x, h.sum h.sum1 e, (e &&& f) ^^^ ((2 ^ h.w - 1 - e) &&& g), k, w]
    let t2 := h.add [h.sum h.sum0 a, (a &&& b) ^^^ (a &&& c) ^^^ (b &&& c)]
    [h.add [t1, t2], a, b, c, h.add [d, t1], e, f, g]
  | v => v

/-- The rounds; the schedule is a window of sixteen words. -/
def Sha.compress (h : Sha) : List Nat → List Nat → List Nat → List Nat
  | [], _, v => v
  | k :: ks, win, v =>
    let next := h.add [h.sig h.sig1 (win.getD 14 0), win.getD 9 0, h.sig h.sig0 (win.getD 1 0), win.getD 0 0]
    h.compress ks (win.tail ++ [next]) (h.round v k (win.getD 0 0))

def beBytes (n v : Nat) : List Byte := (leBytes n v).reverse
def ofBe (l : List Byte) : Nat := ofBytes l.reverse

/-- Padding to whole blocks of sixteen words. -/
def Sha.pad (h : Sha) (m : List Byte) : List Byte :=
  let block := 2 * h.w
  let z := (2 * block - 1 - h.w / 4 - m.length % block) % block
  m ++ [0x80] ++ List.replicate z 0 ++ beBytes (h.w / 4) (8 * m.length)

def Sha.blocks (h : Sha) : Nat → List Byte → List (List Byte)
  | 0, _ => []
  | n + 1, m => m.take (2 * h.w) :: h.blocks n (m.drop (2 * h.w))

def Sha.digest (h : Sha) (init : List Nat) (out : Nat) (m : List Byte) : List Byte :=
  let p := h.pad m
  let v := (h.blocks (p.length / (2 * h.w)) p).foldl (fun v b =>
    let win := (List.range 16).map fun i => ofBe (slice b (i * (h.w / 8)) (h.w / 8))
    (v.zip (h.compress h.consts win v)).map fun xy => h.add [xy.1, xy.2]) init
  (v.flatMap (beBytes (h.w / 8))).take out

def sha256 (m : List Byte) : List Byte := sha256Of.digest ((primes.take 8).map (rootFrac 32 2)) 32 m
def sha384 (m : List Byte) : List Byte := sha512Of.digest (((primes.drop 8).take 8).map (rootFrac 64 2)) 48 m

/-- HMAC-SHA-256 with a key of at most 64 bytes. -/
def hmac256 (key m : List Byte) : List Byte :=
  let k := key ++ List.replicate (64 - key.length) 0
  sha256 (k.map (· ^^^ 0x5C) ++ sha256 (k.map (· ^^^ 0x36) ++ m))

end Sys2Proof.Machine
end

