-- ==== Sys2Proof/Machine/DictOps.lean ====
section
/-! DEFINITION. The dictionary server (15): records as bytes, sessions, channel resets, and how a request is heard, repeated, performed and
answered. -/

namespace Sys2Proof.Machine

/-! ### A record's 64 bytes (17, Table 2; 13, Table 14) -/

def padTo (n : Nat) (l : List Byte) : List Byte := (l ++ List.replicate (n - l.length) 0).take n

def Payload.bytes (code : Nat) : Payload → List Byte
  | .completion c => leBytes 2 c.status ++ leBytes 1 c.ctx ++
      leBytes 1 ((if c.nonRepro then 1 else 0) + (if c.refused then 2 else 0)) ++ leBytes 2 c.run ++ leBytes 2 c.tag ++ leBytes 8 c.planId ++
      padTo 11 (if c.refused then c.detail else leBytes 8 c.bound)
  | .account a => leBytes 4 a.ctx ++ leBytes 2 a.run ++ leBytes 2 0 ++ leBytes 8 a.waitSum ++ leBytes 8 a.waitMax ++ leBytes 3 a.preempt
  | .values v => (List.range 27).map fun i => Config.payloadByte code v i
  | .text b => padTo 27 b

def Rec.flags (r : Rec) : Nat :=
  (if r.timeValid then 1 else 0) + (if r.isVolatile then 2 else 0) + (if r.armed then 4 else 0) + (if r.saturated then 8 else 0) +
    (if r.boundVoid then 16 else 0)

def Rec.bytes (r : Rec) : List Byte :=
  leBytes 1 r.cls ++ leBytes 1 r.severity ++ leBytes 2 r.code ++ leBytes 1 r.unit ++ [r.src.isle, r.src.block, r.src.inst] ++
    leBytes 2 r.rep ++ leBytes 2 r.flags ++ leBytes 8 r.first ++ leBytes 8 r.last ++ leBytes 5 r.opSeconds ++ leBytes 4 r.powerCycle ++
    r.payload.bytes r.code

/-! ### Disarming (R456) -/

/-- A point as a disarm leaves it: a unit held for reorder is sent and is not counted. -/
def PointSt.stop (p : PointSt) : PointSt := { p with holding := false, injected := if p.holding then p.injected - 1 else p.injected }

/-- Arming ends. Cause 0 write, 1 limit, 2 session end, 3 Holm restart. -/
def State.disarm (s : State) (cause : Nat) : State :=
  if !s.inject.armed then s else
  let pts := s.inject.points.map fun _ p => p.stop
  let s := s.emit 0xA01 1 srcHolm none (cause :: (List.range 16).map fun n => (pts.get {} n).injected)
  { s with inject := { s.inject with armed := false, points := pts } }

/-! ### Sessions and channel resets (R325, R336, R337) -/

def chanIdent (n : Nat) : Nat := if n = 0 then 0 else 0x100 + (n - 1)

/-- The session of channel `n` ends; an arming made in it ends with it. -/
def State.endSession (s : State) (n : Nat) : State :=
  let open_ := (s.chan n).session == .custodian
  let s := s.updChan n fun c => { c with session := .none, nonce := [], opened := [] }
  if open_ && s.inject.armed && s.inject.chan == chanIdent n then s.disarm 2 else s

/-- The valid copy of the parameter area with the higher generation (R334). -/
def Dict.saved (d : Dict) : Option SavedCopy := match d.copies.find? 0, d.copies.find? 1 with
  | some a, some b => if a.generation < b.generation then some b else some a
  | some a, none => some a
  | none, b => b

/-- The saved value under a key, or the default `d`. -/
def Dict.savedValue (x : Dict) (key d : Nat) : Nat := match x.saved with
  | some c => c.values.get d key
  | none => d

/-- A channel reset: no session, nothing stored, NOTIFY_FILTER at its saved value (R325; 15, Table 10). -/
def State.chanReset (s : State) (n : Nat) : State :=
  let s := (s.endSession n).updChan n fun c => { c with stored := none, answer := none, snapshot := none, block := none }
  { s with dict := { s.dict with values := s.dict.values.put (notifyKey n) (s.dict.savedValue (notifyKey n) 2) } }

/-! ### Roles (R317) -/

/-- 0 Observer, 1 Operator, 2 Custodian. -/
def State.role (s : State) (ch : Channel) : Nat :=
  if (s.chan ch.num).session == .custodian then 2
  else match ch with
  | .n0 => s.obj 0x1030 0
  | .mailbox f => if f.fn = 0 then 1 else 0

/-- Only N0 and physical-function mailboxes open a session (R278, R317). -/
def mayOpen : Channel → Bool
  | .n0 => true
  | .mailbox f => f.fn == 0

/-! ### Requests and replies (R321, R325, R326, R333, R341) -/

/-- NARROWS_OWNER of a port: 0 the Holm, 1 + card otherwise. -/
def State.uartOwner (s : State) (p : Nat) : Nat := s.obj 0x9000 (p + 1)

/-- Does the server hear the channel? N0 is closed while a bridge owns it (R345), a mailbox holds a request while it is BUSY (R292), and
while the Holm restarts N0 goes unanswered (R444). -/
def State.hears (s : State) (ch : Channel) : Bool :=
  s.boot.holmUp && !s.boot.restarting && match ch with
    | .n0 => s.uartOwner 0 == 0
    | .mailbox f => (s.fn f.key).mbxBusy && (f.fn == 0 || !s.boot.recovery)

def errorReply (code idx sub : Nat) : Reply := ⟨true, leBytes 1 code ++ leBytes 2 idx ++ leBytes 1 sub⟩

/-! ### Frames (R319 to R322, R324, R327) -/

/-- The characters of a frame on N0, with its CRC (R319, R320). -/
def n0Frame (address control : Nat) (payload : List Byte) : List Byte :=
  let b := leBytes 1 address ++ leBytes 1 control ++ leBytes 1 payload.length ++ payload
  b ++ leBytes 2 (crc16 b)
/-- Does the CRC of a received frame hold? -/
def n0Good (b : List Byte) : Bool :=
  let n := 3 + fieldAt b 2 1
  b.length == n + 2 && fieldAt b n 2 == crc16 (b.take n)
/-- CONTROL of a request and of its reply (R321). -/
def reqControl (req : Req) (fn : Nat) : Nat := fn + if req.seq then 0x10 else 0
def replyControl (req : Req) (fn : Nat) (r : Reply) : Nat := reqControl req fn + 0x20 + if r.error then 0x40 else 0
/-- Payload of a request: INDEX and SUBINDEX, but for NOTIFY and SESSION, and what follows them. -/
def reqPayload (fn idx sub : Nat) (args : List Byte) : List Byte := if fn < 5 then leBytes 2 idx ++ leBytes 1 sub ++ args else args
/-- Is the payload of the length that Table 5 gives the function (R327)? -/
def payloadFits (fn : Nat) (b : List Byte) : Bool := match fn with
  | 1 => b.length == 3
  | 2 => !(beyond b.length 4 240)
  | 3 => b.length == 8
  | 4 => !(beyond b.length 9 240)
  | 5 => b.length == 1
  | _ => if fieldAt b 0 1 = 2 then b.length == 33 else if fieldAt b 0 1 ≤ 4 then b.length == 1 else !(b.isEmpty)
/-- What refuses a request before a function performs it: a reserved FUNCTION, a reserved bit of CONTROL or a wrong length, a reserved
SESSION OP (R321, R327, R336). -/
def frameError (control : Nat) (payload : List Byte) : Option Nat :=
  let fn := control % 16
  if beyond fn 1 6 then some 1
  else if bit control 7 || !(payloadFits fn payload) then some 2
  else if fn = 6 && beyond (fieldAt payload 0 1) 1 4 then some 8
  else none
/-- Does the channel hold this request? On N0 the row's operands are the frame; in a mailbox MBX_REQ holds CONTROL, LENGTH and PAYLOAD
(R324). -/
def State.carries (s : State) (req : Req) (fn idx sub : Nat) (args : List Byte) : Bool := match req.ch with
  | .n0 => true
  | .mailbox f =>
    let b := leBytes 1 (reqControl req fn) ++ leBytes 1 (reqPayload fn idx sub args).length ++ reqPayload fn idx sub args
    (padTo 256 (s.fn f.key).mbxReq).take b.length == b

/-- The reply goes out: on N0, or into MBX_RSP with DONE set and vector 1 raised (R292, R324). -/
def State.answerReq (s : State) (req : Req) (fn : Nat) (r : Reply) : State :=
  let s := s.updChan req.ch.num fun c => { c with answer := some r }
  match req.ch with
  | .n0 => { s with dict := { s.dict with n0Out := s.dict.n0Out ++ [n0Frame 0xFF (replyControl req fn r) r.payload] } }
  | .mailbox f => (s.updFn f.key fun x => { x with
      mbxRsp := leBytes 1 (replyControl req fn r) ++ leBytes 1 r.payload.length ++ r.payload, mbxDone := true, mbxBusy := false }).vector f.key 1

def State.broadcastDropped (s : State) : State := { s with dict := { s.dict with n0Broadcasts := satAdd 32 s.dict.n0Broadcasts 1 } }

/-- What performing a request makes: the new state, and a reply payload or an error code. -/
abbrev Performed := State × Except Nat (List Byte)

/-- A request of a channel: unheard, a broadcast, refused NOT_READY, a repeat, or performed and stored. -/
def State.serve (s : State) (req : Req) (fn idx sub : Nat) (args : List Byte) (perform : State → Performed) : State :=
  let n := req.ch.num
  if !(s.hears req.ch) || !(s.carries req fn idx sub args) then s
  else if req.broadcast then
    if req.ch != .n0 then s
    else if fn = 2 && s.dict.ready then match perform s with
      | (t, .ok _) => t
      | (_, .error _) => s.broadcastDropped
    else s.broadcastDropped
  else if !s.dict.ready then (s.updChan n fun c => { c with errors := satAdd 32 c.errors 1 }).answerReq req fn (errorReply 0x0A idx sub)
  else
    let same (q : Stored) : Bool := q.seq == req.seq && q.fn == fn && q.index == idx && q.sub == sub
    match (s.chan n).stored.filter same with
    | some q => (s.updChan n fun c => { c with repeats := satAdd 32 c.repeats 1 }).answerReq req fn q.reply
    | none =>
      let (t, r) := perform s
      let reply := match r with
        | .ok b => ⟨false, b⟩
        | .error e => errorReply e idx sub
      (t.updChan n fun c => { c with
        stored := some ⟨req.seq, fn, idx, sub, reply⟩
        performed := if reply.error then c.performed else satAdd 32 c.performed 1
        errors := if reply.error then satAdd 32 c.errors 1 else c.errors }).answerReq req fn reply

/-- Would the request be performed now, and not answered from the stored reply? -/
def State.performs (s : State) (req : Req) (fn idx sub : Nat) (args : List Byte) : Bool :=
  s.hears req.ch && s.carries req fn idx sub args && s.dict.ready && (if req.broadcast then req.ch == .n0 && fn == 2
    else !((s.chan req.ch.num).stored.any fun q => q.seq == req.seq && q.fn == fn && q.index == idx && q.sub == sub))

/-- A request that no function performs is answered with its error (R321, R327, R336). -/
def State.refuseFrame (s : State) (ch : Channel) (broadcast : Bool) (control : Nat) (payload : List Byte) (e : Nat) : State :=
  let fn := control % 16
  let named := fn < 5
  let (idx, sub) := if named then (fieldAt payload 0 2, fieldAt payload 2 1) else (0, 0)
  s.serve ⟨ch, bit control 4, broadcast⟩ fn idx sub (if named then payload.drop 3 else payload) fun s => (s, .error e)

/-! ### Handshake (R336, R337) -/

def State.challenge (s : State) (ch : Channel) : Performed :=
  if !(mayOpen ch) then (s, .error 6)
  else if (s.chan ch.num).locked then (s, .error 0x0E)
  else
    let nonce := (List.range 32).map (Config.nonceByte s.dict.nonces)
    let s := { s with dict := { s.dict with nonces := s.dict.nonces + 1 } }
    ((s.endSession ch.num).updChan ch.num fun c => { c with session := .challenged, nonce := nonce }, .ok nonce)

def State.custodianKey (s : State) : List Byte := s.dict.key.getD Config.custodianKey

/-- The message of 15, Table 7. -/
def sessionMessage (ch : Channel) (nonce : List Byte) : List Byte := nonce ++ Config.unitSerial.take 12 ++ leBytes 2 ch.ident

/-- A failed response is counted, and the fifth within 60 s locks the channel. -/
def State.failResponse (s : State) (ch : Channel) : State :=
  let n := ch.num
  let recent := ((s.chan n).failures.filter fun t => decide (s.nsSince t < 60000000000)) ++ [s.clock.ticks]
  let s := (s.updChan n fun c => { c with failures := recent }).emit 0xF41 2 srcHolm none [ch.ident, recent.length]
  if recent.length < 5 then s
  else (s.updChan n fun c => { c with locked := true, failures := [] }).emit 0xF42 2 srcHolm none [ch.ident]

def State.respond (s : State) (ch : Channel) (h : List Byte) : Performed :=
  if !(mayOpen ch) then (s, .error 6) else
  let nonce := (s.chan ch.num).nonce
  let spent (c : ChanSt) : ChanSt := { c with nonce := [], session := if c.session = .challenged then .none else c.session }
  if !nonce.isEmpty && h == hmac256 s.custodianKey (sessionMessage ch nonce) then
    ((s.updChan ch.num fun c => { c with session := .custodian, nonce := [], opened := nonce }).emit 0xF40 1 srcHolm none [ch.ident], .ok [])
  else ((s.updChan ch.num spent).failResponse ch, .error 0x0D)

/-- SESSION_STATE (15, Table 10): an open session is reported as 2 even while opening is locked (log 71). -/
def ChanSt.sessionState (c : ChanSt) : Nat :=
  if c.session = .custodian then 2 else if c.locked then 3 else if c.session = .challenged then 1 else 0

/-- KEY_ROTATE (R338); the sessions of the other channels end (R337). -/
def State.rotateKey (s : State) (ch : Channel) (b : List Byte) : Performed :=
  let nonce := (s.chan ch.num).opened
  let new := (((b.take 32).zip (hmac256 s.custodianKey (nonce ++ [0x4B]))).map fun xy => xy.1 ^^^ xy.2)
  if nonce.isEmpty || b.drop 32 != hmac256 new nonce then (s, .error 0x0D)
  else
    let s := { s with dict := { s.dict with key := some new } }
    let s := (List.range 65).foldl (fun s n => if n = ch.num || (s.chan n).session != .custodian then s else s.endSession n) s
    (s.emit 0xF45 2 srcHolm none [ch.ident], .ok [])

end Sys2Proof.Machine
end

