-- ==== Sys2Proof/Machine/NarrowsOps.lean ====
section
/-! DEFINITION. What the Narrows commands share (16): registers, receive entries, receive and transmit DMA, ownership, the node address. -/

namespace Sys2Proof.Machine

def State.uart (s : State) (p : Nat) : UartSt := s.uarts.get {} p
def State.updUart (s : State) (p : Nat) (f : UartSt → UartSt) : State := { s with uarts := s.uarts.upd {} p f }
def srcUart (p : Nat) : Source := srcIn 0xFF 0x11 p

/-- Owner number of a master (R343): 0 the Holm, 1 + card a bridge. -/
def masterNo : UartMaster → Nat
  | .holm => 0
  | .bridge c => c.val + 1
def State.ownsUart (s : State) (p : Nat) (m : UartMaster) : Bool := s.uartOwner p == masterNo m

/-- UART_CONTROL bits: 0 RX_EN, 1 TX_EN, 2 ADDR_MODE, 3 BCAST_EN, 5 ECHO, 6 FLOW. -/
def UartSt.ctl (x : UartSt) (n : Nat) : Bool := bit x.control n
/-- Data bits of a character (UART_FORMAT [3:0]). -/
def UartSt.width (x : UartSt) : Nat := x.format % 16
/-- An HS flag is set and its event counter advances (R10, R357). -/
def UartSt.flag (x : UartSt) (n : Nat) : UartSt := { x with flags := setBit x.flags n, ev := x.ev.upd 0 n (wrapAdd 16 · 1) }
def UartSt.count (x : UartSt) (sub : Nat) : UartSt := { x with counts := x.counts.upd 0 sub (satAdd 32 · 1) }
/-- A write that R362 ignores as a whole. -/
def UartSt.refuse (x : UartSt) : UartSt := x.flag 14

/-- UART_STATUS (16, Table 9). -/
def UartSt.status (p : Nat) (x : UartSt) : Nat :=
  let b (c : Bool) (n : Nat) : Nat := if c then 2 ^ n else 0
  b (!x.rx.isEmpty) 0 + b (decide (x.tx.length < 128)) 1 + b (x.tx.isEmpty && x.shifter.isNone) 2 + b x.muted 3 + x.flags +
    b (p == 1 && x.cts) 15

/-- RTS of N1 is active (R355). -/
def UartSt.rts (x : UartSt) : Bool := decide (x.rx.length < 112)

/-! ### Baud (R347, R348) -/

/-- UART_BAUD for a requested rate. -/
def baudOf (b : Nat) : Nat :=
  let div := 12000000 / b
  let frac := (128 * (12000000 % b) + b) / (2 * b)
  if frac = 64 then (div + 1) * 64 else div * 64 + frac

/-! ### Receive DMA (R358 to R360) -/

/-- Bytes of one character in a block. -/
def UartSt.charSize (x : UartSt) : Nat := if x.rxTagged || decide (8 < x.width) then 2 else 1
def UartSt.charBytes (x : UartSt) (e : Nat) : List Byte := leBytes x.charSize (if x.rxTagged then e else e % 512)

/-- A write of receive DMA: into Holm memory, or posted to the host (R358). -/
def State.dmaWrite (s : State) (p a : Nat) (bs : List Byte) : State :=
  if s.uartOwner p = 0 then { s with holmMem := s.holmMem.writeBytes a bs }
  else { s with out := { s.out with host := s.out.host ++ [.data a bs] } }

/-- The open block closes with a cause bit: its header is written, RXDMA_WPTR passes its padding and BLOCK_DONE is set (R359). -/
def State.closeBlock (s : State) (p cause : Nat) : State :=
  let x := s.uart p
  match x.block with
  | none => s
  | some b =>
    let flags := 2 ^ cause + (if b.errors then 32 else 0) + (if b.overrun then 64 else 0)
    let s := s.dmaWrite p (x.rxBase + b.place) (leBytes 2 b.count ++ leBytes 1 flags ++ leBytes 1 0 ++ leBytes 4 x.seq ++ leBytes 8 b.first)
    let s := s.updUart p fun x => { x with block := none, seq := x.seq + 1, wptr := ceilDiv (b.place + 16 + b.used) 16 * 16 }
    s.updUart p fun x => if cause = 1 then (x.flag 10).flag 9 else x.flag 10

/-- Receive DMA stops at the buffer's end (R359). -/
def State.bufFull (s : State) (p : Nat) : State :=
  (s.updUart p fun x => { (x.flag 11).count 8 with rxEn := false }).emit 0x905 1 (srcUart p) none [p, (s.uart p).wptr]

/-- One entry moves into the buffer; false where it does not fit and the channel has stopped. FIRST_TIME is taken as the entry moves
(log 72). -/
def State.dmaTake (s : State) (p e : Nat) : State × Bool :=
  let s := if (s.uart p).addrSplit && bit e 12 then s.closeBlock p 2 else s
  let x := s.uart p
  let z := x.charSize
  match x.block with
  | none => if x.rxLen < x.wptr + 16 + z then (s.bufFull p, false) else
      let s := s.updUart p fun x => { x with block := some { place := x.wptr, first := s.clock.base } }
      put s x.wptr { place := x.wptr }
  | some b => if x.rxLen < b.place + 16 + b.used + z then ((s.closeBlock p 3).bufFull p, false) else put s b.place b
where
  put (s : State) (place : Nat) (b : RxBlock) : State × Bool :=
    let x := s.uart p
    let s := s.dmaWrite p (x.rxBase + place + 16 + b.used) (x.charBytes e)
    let s := s.updUart p fun x => { x with block := x.block.map fun b => { b with
      used := b.used + x.charSize, count := b.count + 1
      errors := b.errors || bit e 9 || bit e 10 || bit e 11, overrun := b.overrun || bit e 13 } }
    (if b.count + 1 = x.rxBlock then s.closeBlock p 0 else s, true)

/-- Entries move from the FIFO while the channel runs. -/
def State.dmaGo (p : Nat) : List Nat → State → State
  | [], s => s.updUart p fun x => { x with rx := [] }
  | e :: r, s => match s.dmaTake p e with
    | (s, true) => dmaGo p r s
    | (s, false) => s.updUart p fun x => { x with rx := e :: r }

def State.dmaRun (s : State) (p : Nat) : State := if (s.uart p).rxEn then State.dmaGo p (s.uart p).rx s else s

/-! ### Receiving (R350 to R354) -/

/-- An entry is placed, or lost where the FIFO holds 128 entries (R350, R352). `e` has every bit but OVERRUN_BEFORE. -/
def State.placeEntry (s : State) (p e : Nat) : State :=
  let x := s.uart p
  if 128 ≤ x.rx.length then
    (s.updUart p fun x => { (x.flag 7).count 6 with lostOne := true }).emit 0x904 2 (srcUart p) none [p, x.rx.length]
  else
    let e := if x.lostOne then setBit e 13 else e
    let s := s.updUart p fun x => { x with rx := x.rx ++ [e], lostOne := false }
    let s := if bit e 9 then (s.updUart p fun x => (x.flag 4).count 3).emit 0x901 1 (srcUart p) none [p, e] else s
    let s := if bit e 10 then (s.updUart p fun x => (x.flag 5).count 4).emit 0x902 1 (srcUart p) none [p, e] else s
    let s := if bit e 11 then (s.updUart p fun x => (x.flag 6).count 5).emit 0x903 1 (srcUart p) none [p] else s
    (if bit e 12 then s.updUart p (·.flag 8) else s).dmaRun p

/-- Does an address character match (R353)? -/
def UartSt.matches_ (x : UartSt) (data : Nat) : Bool := data % 256 == x.node || data % 256 == 0 && x.ctl 3

/-! ### Transmitting (R355, R361) -/

/-- Transmit DMA fills the FIFO. -/
def UartSt.fill (x : UartSt) : UartSt :=
  let room := 128 - x.tx.length
  { x with tx := x.tx ++ (x.txLeft.take room).map (·, true), txLeft := x.txLeft.drop room }

/-- The next entry enters an idle shifter; on N1 with FLOW set it waits for CTS. -/
def UartSt.start (p : Nat) (x : UartSt) : UartSt :=
  if x.shifter.isSome || !(x.ctl 1) || p == 1 && x.ctl 6 && !x.cts then x
  else match x.tx with
    | [] => x
    | e :: r => { x with shifter := some e, tx := r }.fill

/-- An entry is pushed, or refused with CONFIG_ERR where the FIFO is full. -/
def UartSt.push (p : Nat) (x : UartSt) (v : Nat) : UartSt :=
  if 128 ≤ x.tx.length then x.refuse else ({ x with tx := x.tx ++ [(v % 512 + (if bit v 11 then 2048 else 0), false)] }).start p

/-! ### Node address (R364) -/

/-- The effective node address and its source. -/
def State.nodeAddr (s : State) : Nat × Nat :=
  if 1 ≤ s.rack.dip && s.rack.dip ≤ 247 then (s.rack.dip, 0)
  else if s.dict.ready then (s.obj 0x9001 0, 1) else (1, 2)

/-- After something that bears on the node address: the port follows a Holm's N0, and a change is raised. -/
def State.nodeChanged (s : State) (old : Nat) : State :=
  let (a, src) := s.nodeAddr
  let s := if s.uartOwner 0 = 0 then s.updUart 0 fun x => { x with node := a } else s
  if a = old then s else s.emit 0x908 1 (srcUart 0) none [old, a, src]

/-! ### Ownership (R344, R363, R365) -/

/-- The Holm's configuration of a port (R363; 16, Table 1). Its N0 receive buffer is at Holm address 0, of the greatest length
(DESIGN CHOICE, log 72). -/
def State.holmConfig (s : State) (p : Nat) : State :=
  s.updUart p fun x =>
    if p = 0 then { x with
      format := 0x009, baud := baudOf (if s.dict.ready then s.obj 0x9003 0 else 1000000), control := 0xF, node := s.nodeAddr.1
      rxLen := 16777216, rxTagged := true, addrSplit := true, timeoutEn := true, rxBlock := 245, rxTimeout := 11, rxEn := true }
    else { x with format := s.obj 0x9005 2, baud := baudOf (s.obj 0x9005 1), control := 0x3 }

/-- R344, R345: NARROWS_OWNER takes a value and the port is reset; for N0 the channel is reset too. -/
def State.setUartOwner (s : State) (p owner : Nat) : State :=
  let old := s.uartOwner p
  if old = owner then s else
  let s := s.closeBlock p 4
  let s := s.updUart p fun x =>
    let x := if x.shifter.isSome then x.count 2 else x
    { counts := x.counts, cts := x.cts }
  let s := s.setObj 0x9000 (p + 1) owner
  let s := s.emit 0x907 1 (srcUart p) none [p, old, owner]
  let s := if owner = 0 then s.holmConfig p else s
  if p = 0 then (s.chanReset 0).refresh else s

end Sys2Proof.Machine
end

