-- ==== Sys2Proof/Machine/BridgeOps.lean ====
section
/-! DEFINITION. What the bridge commands share (13): rings and entries, host copy descriptors, launches, the event queue, resets and
losses of a card. -/

namespace Sys2Proof.Machine

/-! ### Readiness (R294) -/

def State.linkUp (s : State) (b : Nat) : Bool := (s.card b).present && (s.card b).link == .up

/-- PATH_READY (13, Table 8). -/
def State.pathReady (s : State) (b : Nat) : Bool := s.linkUp b && (bridgeIsle s.shape.cur b).isSome

def State.fetchReady (s : State) (b : Nat) : Bool := s.pathReady b && decide (2 ≤ s.shape.level)

/-- Context of a function's register block, where the function owns it and its card is present (R277, R279). -/
def State.ownedCtx (s : State) (fn : FnId) (k : Nat) : Option Nat :=
  let c := fn.card.val * 16 + k
  if (s.card fn.card.val).present && (s.ctx c).owner == fn.fn.val then some c else none

def State.configError (s : State) (k : Nat) : State := s.updFn k fun f => { f with configError := true }

/-- A ring stops (R281). -/
def State.ringStop (s : State) (c : Nat) : State :=
  let s := s.updCtx c fun x => { x with ringError := true }
  (s.updFn (s.ownerFn c) fun f => { f with ringError := true }).emit 0x513 3 (srcCtx c) (some c) [c]

/-- The bridge reads host memory (R281 to R284). -/
def State.hostRead (s : State) (addr len : Nat) : State := { s with out := { s.out with reads := s.out.reads ++ [(addr, len)] } }
/-- Host address of the entry that is fetched next: slot CTX_RING_CONS mod CTX_RING_SIZE (R280). -/
def CtxSt.slotAddr (x : CtxSt) : Nat := x.ringBase.toNat + x.cons.toNat % x.ringSize.toNat * 64

/-! ### Entries (R282) -/

/-- Operands of an entry (13, Table 12). -/
def Entry.imageAddr (e : Entry) : Nat := fieldAt e.bytes 8 8
def Entry.imageLength (e : Entry) : Nat := fieldAt e.bytes 16 4
def Entry.hasIn (e : Entry) : Bool := e.op == 2 && bit e.sflags 0
def Entry.hasOut (e : Entry) : Bool := e.op == 2 && bit e.sflags 1
def Entry.inCount (e : Entry) : Nat := fieldAt e.bytes 16 2
def Entry.outCount (e : Entry) : Nat := fieldAt e.bytes 18 2
def Entry.planId (e : Entry) : Nat := fieldAt e.bytes 32 8

def parseEntry (b : List Byte) : Entry := ⟨fieldAt b 0 1, fieldAt b 1 1, fieldAt b 2 2, b⟩

def zeroAt (b : List Byte) (o n : Nat) : Bool := (slice b o n).all (· == 0)

/-- A table that is present has 1 to 256 descriptors at a multiple of 32; an absent one has zeros. -/
def tableOk (present : Bool) (addr count : Nat) : Bool :=
  if present then addr % 32 == 0 && !(beyond count 1 256) else addr == 0 && count == 0

/-- Neither a reserved OP, nor a nonzero reserved field, nor a field out of range. -/
def Entry.valid (e : Entry) : Bool :=
  let b := e.bytes
  zeroAt b 4 4 && match e.op with
  | 1 => e.sflags == 0 && e.imageAddr % 64 == 0 && zeroAt b 20 44
  | 2 => decide (e.sflags < 4) && tableOk e.hasIn (fieldAt b 8 8) e.inCount && tableOk e.hasOut (fieldAt b 20 8) e.outCount &&
      zeroAt b 28 4 && zeroAt b 40 24
  | 3 => e.sflags == 0 && zeroAt b 8 24 && zeroAt b 40 24
  | _ => false

/-- Event code of the completion record of an OP; a reserved OP has that of its STATUS. -/
def Entry.code (e : Entry) : Nat := if e.op = 1 then 0x521 else if e.op = 2 then 0x520 else if e.op = 3 then 0x522 else 0x511

def loadedPlanId (x : CtxSt) : Nat := match x.plan with
  | some p => p.header.planId
  | none => 0

/-- Is the context in the state that the OP needs (13, Table 12)? -/
def Entry.accepted (e : Entry) (x : CtxSt) : Bool :=
  if e.op = 1 then x.state == .empty
  else x.state == .loaded && loadedPlanId x == e.planId && (e.op == 3 || x.run.isNone)

def Entry.inTable (e : Entry) : Nat := fieldAt e.bytes 8 8
def Entry.outTable (e : Entry) : Nat := fieldAt e.bytes 20 8

/-! ### Host copies (R283, R284) -/

def parseCopy (b : List Byte) : HostCopy :=
  { host := fieldAt b 0 8, list := refList (fieldAt b 8 8), index := refIndex (fieldAt b 8 8), count := fieldAt b 16 2
    counter := fieldAt b 20 2, isle := fieldAt b 22 1, value := fieldAt b 24 2 }

/-- Descriptor `n` of a table. -/
def descAt (table : List Byte) (n : Nat) : List Byte := slice table (n * 32) 32

/-- Is the descriptor legal in a launch of the plan? -/
def copyOk (p : Plan) (isIn : Bool) (b : List Byte) : Bool :=
  let d := parseCopy b
  d.host % 64 == 0 && decide (fieldAt b 8 8 < 2 ^ 36) && d.count != 0 && zeroAt b 18 2 && zeroAt b 23 1 && zeroAt b 26 6 &&
    (!isIn || !(beyond d.value 1 1023)) && (p.tokens.any fun t => t.isle == d.isle && t.counter == d.counter) &&
    match p.lists[d.list]? with
    | some l => decide (d.index + d.count ≤ l.capacity)
    | none => false

/-- Index of the first illegal descriptor of a table. -/
def badCopy (p : Plan) (isIn : Bool) (table : List Byte) (n : Nat) : Option Nat :=
  (List.range n).find? fun i => !(copyOk p isIn (descAt table i))

def copiesOf (table : List Byte) (n : Nat) : List HostCopy := (List.range n).map fun i => parseCopy (descAt table i)

/-- Bytes of each IN copy out of what the bridge read. -/
def splitStaged : List HostCopy → List Byte → List (List Byte)
  | [], _ => []
  | d :: r, b => b.take (d.count * 65536) :: splitStaged r (b.drop (d.count * 65536))

def State.unqueue (s : State) (c : Nat) : State :=
  s.updCard (c / 16) fun x => { x with stagingQueue := x.stagingQueue.filter (· != c) }

/-- A LAUNCH ends before acceptance: its staging is freed and nothing else is kept of it. -/
def State.dropLaunch (s : State) (c : Nat) : State :=
  let s := s.unqueue c
  match (s.ctx c).run with
  | some r => if r.accepted then s else (s.freeStaging c r.stagingHeld).updCtx c fun x => { x with run := none }
  | none => s

/-- A LAUNCH is refused with nothing changed (R284). -/
def State.refuseLaunch (s : State) (c status : Nat) (detail : List Byte) : State :=
  (s.dropLaunch c).refuse c 0x520 status (loadedPlanId (s.ctx c)) detail

/-! ### Conditions of a launch (R273, R399, R414, R48) -/

/-- SHAPE_MISMATCH: the isle to report, 0xFF where no one isle is at fault. -/
def State.launchShape (s : State) (p : Plan) : Option Nat :=
  let cur := s.shape.cur
  let moving := (List.range 64).find? fun i => [1, 2, 7].contains (s.repairOf i).phase
  match p.leases.find? fun l => !(bit cur.mask l.isle) with
  | some l => some l.isle
  | none =>
    if p.header.epoch = cur.epoch then none
    else if !(s.shape.old.any fun t => t.epoch == p.header.epoch) then some 0xFF
    else if moving.isSome || !s.shape.waiting.isEmpty then some (moving.getD 0xFF) else none

/-- Every port of a WINDOW is UP, with the unit that each import window names in BASE as its peer (R273). -/
def State.peersFit (s : State) (p : Plan) : Bool := p.windows.all fun w =>
  (s.port w.1).link == .up && (w.2.mode.toNat != 0 && w.2.mode.toNat != 2 || (s.port w.1).peerPod == unitOf w.2.base.toNat)
/-- A port of a WINDOW trains after a write of POD_NUMBER: the launch waits until its links are up again (R274). -/
def State.renumbering (s : State) (p : Plan) : Bool := p.windows.any fun w => (s.port w.1).renumber && (s.port w.1).link == .training

/-- A leased stack's raise of its pin rate is due (R414). -/
def State.rateWaits (s : State) (p : Plan) : Bool := p.leases.any fun l => (List.range 2).any fun n =>
  p.hasStack (l.isle * 2 + n) && match (s.stack (l.isle * 2 + n)).rateDue with
    | some r => decide ((s.stack (l.isle * 2 + n)).rate < r)
    | none => false

/-! ### The event queue (R288 to R291) -/

/-- Records that the Holm holds take the places that came free. -/
def FnSt.refill (f : FnSt) : FnSt :=
  let room := 1024 - (f.pend.length + f.reserved)
  { f with pend := f.pend ++ f.holm.take room, holm := f.holm.drop room }

/-- A completion record is written together with the accounting record of its run. -/
def pairOf : List Rec → List Rec
  | r :: a :: _ => match r.payload, a.payload with
    | .completion x, .account y => if x.ctx = y.ctx && x.run = y.run then [r, a] else [r]
    | _, _ => [r]
  | l => l.take 1

/-- EVQ_OVERFLOW: drops per severity, and the times of the first and last (R290). -/
def State.evqOverflow (s : State) (k : Nat) : Rec :=
  let f := s.fn k
  s.form 2 0x510 1 (srcCard (k / 16)) none f.dropFirst f.dropLast false
    (.values ((List.range 3).map (f.droppedSince.get 0) ++ [f.dropFirst, f.dropLast]))

/-- What the bridge writes next. -/
def State.nextBatch (s : State) (k : Nat) : List Rec :=
  if (s.fn k).droppedSince.rows.isEmpty then pairOf (s.fn k).pend else [s.evqOverflow k]

def evqRoom (f : FnSt) : Nat := f.evqSize.toNat - (f.prod - f.evqCons).toNat

/-- MSI-X vector 0 is raised (R291). -/
def State.evqVector (s : State) (k : Nat) : State :=
  (s.updFn k fun f => { f with unsignalled := 0, urgent := false, modStart := none }).vector k 0

/-- Records are written, then the producer index, as posted writes (R288, R481). -/
def State.writeBatch (s : State) (k : Nat) (rs : List Rec) : State :=
  let f := s.fn k
  let slots := (List.range rs.length).zip rs |>.map fun ir =>
    HostWrite.record (f.evqBase.toNat + (f.prod.toNat + ir.1) % 2 ^ 32 % f.evqSize.toNat * 64) ir.2
  let prod := f.prod + BitVec.ofNat 32 rs.length
  { s with out := { s.out with host := s.out.host ++ slots ++ [HostWrite.index f.evqProdAddr.toNat prod.toNat] } }.updFn k fun f => { f with
    prod := prod, unsignalled := f.unsignalled + rs.length, urgent := f.urgent || rs.any fun r => r.cls == 1 || decide (3 ≤ r.severity)
    modStart := some (f.modStart.getD s.clock.ticks) }

/-! ### Resets and losses (R295, R297) -/

/-- The run of a context halts with a code and ends, and its plan is unloaded. -/
def State.unloadNow (s : State) (c code : Nat) : State :=
  let s := s.haltJob c code
  match (s.ctx c).run with
  | some r => if r.accepted then s.endHalted c (r.halted.getD code) else (s.dropLaunch c).returnLease c
  | none => if (s.ctx c).plan.isSome then s.returnLease c else s

/-- The register block of a context at its reset values, the context EMPTY; its owner and its accounts are kept. -/
def State.ctxReset (s : State) (c : Nat) : State :=
  (s.unqueue c).updCtx c fun x => { owner := x.owner, account := x.account, postedFailed := x.postedFailed, clearing := x.clearing }

/-- CTX_OWNER takes a value; a change resets CTX_ACCOUNT (14, Table 7). -/
def State.setOwner (s : State) (c f : Nat) : State :=
  s.updCtx c fun x => if x.owner = f then x else { x with owner := f, account := {} }

/-- The registers of a function of 13, Tables 5 to 7, and its segment table, at their reset values. -/
def FnSt.fresh (f : FnSt) : FnSt := { configError := f.configError, ringError := f.ringError }

/-- One function is reset (R295), its channel with it (R325). -/
def State.fnReset (s : State) (k : Nat) : State :=
  let s := (List.range 16).foldl (fun s n =>
    let c := k / 16 * 16 + n
    if s.ownerFn c = k then (s.unloadNow c 0x644).ctxReset c else s) s
  (s.updFn k FnSt.fresh).chanReset (k + 1)

/-- The Narrows ports of a card go back to the Holm (R344). -/
def State.uartsBack (s : State) (b : Nat) : State :=
  [0, 1].foldl (fun s p => if s.uartOwner p = b + 1 then s.setUartOwner p 0 else s) s

/-- The registers that a pulled card loses; the event queue's are kept (R297). -/
def FnSt.pulled (f : FnSt) : FnSt :=
  { f with mbxReq := [], mbxRsp := [], mbxDone := false, mbxBusy := false, mbxOverrun := false, mbxNotReady := false, msixTable := {},
           msixPba := 0, segments := {}, unsignalled := 0, urgent := false, modStart := none }

/-- A context of a lost card: its run halts, and it is HALTED_LINK. A plan without a run returns its lease at once (log 80). -/
def State.loseCtx (s : State) (c : Nat) : State :=
  let s := match s.activeRun c with
    | some _ => ((s.emit 0x502 3 (srcCtx c) (some c) [c, c / 16]).haltJob c 0x502).updRun c fun r =>
        { r with inDone := r.ins.length, outStarted := {} }
    | none => s.dropLaunch c
  let s := s.updCtx c fun x => { x with state := .haltedLink, waiting := none, entry := if x.run.isSome then x.entry else none }
  if (s.ctx c).run.isNone && (s.ctx c).plan.isSome then s.returnLease c else s

/-- A card is removed, or lost to its link (R297, R298). -/
def State.loseCard (s : State) (b : Nat) : State :=
  if !(s.card b).present then s else
  let s := (List.range 16).foldl (fun s n => s.loseCtx (b * 16 + n)) s
  let s := (List.range 16).foldl (fun s n => s.updFn (b * 16 + n) FnSt.pulled) s
  let s := s.updCard b fun x => { x with
    present := false, link := .down, heldSerial := some (x.heldSerial.getD x.serial), upSince := none, stagingFree := 131072, stagingReady := false
    stagingQueue := [], crsUntil := 0, removals := satAdd 32 x.removals 1 }
  ((s.uartsBack b).emit 0x501 2 (srcCard b) none [b]).refresh

/-- Contexts in HALTED_LINK of a card. -/
def State.heldCtxs (s : State) (b : Nat) : List Nat :=
  ((List.range 16).map (b * 16 + ·)).filter fun c => (s.ctx c).state == .haltedLink

/-- The held contexts of a card are reset as by function-level reset (R297). -/
def State.discard (s : State) (b : Nat) : State :=
  let held := s.heldCtxs b
  let fns := (held.map s.ownerFn).eraseDups
  let s := held.foldl (fun s c => (s.unloadNow c 0x502).ctxReset c) s
  let s := fns.foldl (fun s k => s.updFn k fun f => { f.fresh with
    mbxReq := f.mbxReq, mbxRsp := f.mbxRsp, mbxDone := f.mbxDone, mbxBusy := f.mbxBusy, mbxOverrun := f.mbxOverrun
    mbxNotReady := f.mbxNotReady, msixTable := f.msixTable, msixPba := f.msixPba, segments := f.segments }) s
  (s.updCard b fun x => { x with heldSerial := none }).emit 0x507 2 (srcCard b) none [b, held.length]

/-! ### Registers of BAR0 with no row of their own (13, Tables 3 to 9) -/

def powerOfTwo (v lo hi : Nat) : Bool := !(beyond v lo hi) && 2 ^ v.log2 == v

/-- A write that sets a register of a function where `ok`, and otherwise CONFIG_ERROR. -/
def State.fnWrite (s : State) (k : Nat) (ok : Bool) (f : FnSt → FnSt) : State := if ok then s.updFn k f else s.configError k

def State.evqWrite (s : State) (k off v : Nat) : State :=
  let f := s.fn k
  let w := v % 2 ^ 32
  match off with
  | 0x000 => s.fnWrite k (!f.evqEnable && v % 64 == 0) fun f => { f with evqBase := BitVec.ofNat 64 v }
  | 0x008 => s.fnWrite k (!f.evqEnable && powerOfTwo w 64 65536) fun f => { f with evqSize := BitVec.ofNat 32 w }
  | 0x010 => s.fnWrite k (!f.evqEnable && v % 8 == 0) fun f => { f with evqProdAddr := BitVec.ofNat 64 v }
  | 0x01C => s.updFn k fun f => { f with evqEnable := bit w 0 }
  | 0x020 => s.fnWrite k (!(beyond w 1 1024)) fun f => { f with modCount := w }
  | 0x024 => s.fnWrite k (!(beyond w 1 65535)) fun f => { f with modTime := w }
  | 0x028 => if k % 16 = 0 then s.fnWrite k (decide (w % 8 ≤ 4)) fun f => { f with filter := w % 8 } else s
  | _ => s

def State.ringWrite (s : State) (c off v : Nat) : State :=
  let x := s.ctx c
  let put (ok : Bool) (f : CtxSt → CtxSt) : State := if ok then s.updCtx c f else s.configError (s.ownerFn c)
  match off with
  | 0x000 => put (!x.enable && v % 64 == 0) fun x => { x with ringBase := BitVec.ofNat 64 v }
  | 0x008 => put (!x.enable && powerOfTwo (v % 2 ^ 32) 2 4096) fun x => { x with ringSize := BitVec.ofNat 32 v }
  | _ => s

/-- Four bytes of MBX_REQ. -/
def FnSt.putReq (f : FnSt) (o v : Nat) : FnSt :=
  let b := padTo 256 f.mbxReq
  { f with mbxReq := b.take o ++ leBytes 4 v ++ b.drop (o + 4) }

end Sys2Proof.Machine
end

