-- ==== Sys2Proof/Machine/Bridge.lean ====
section
/-! DEFINITION. The bridge commands (13): submission rings, host copies, the event queue, BAR2, the mailbox, resets, and a card's coming and
going. -/

namespace Sys2Proof.Machine

/-! ### Rings and entries (R280 to R282) -/

/-- R280, R281. -/
def execCtxDoorbell (fn : FnId) (k : Fin 16) (value : BitVec 32) (s : State) : Host.Outcome State Fault Refusal :=
  match s.ownedCtx fn k.val with
  | none => .next s
  | some c =>
    let s := s.updCtx c fun x => { x with doorbell := value }
    let x := s.ctx c
    .next (if x.ringSize.toNat < (value - x.cons).toNat then s.ringStop c else s)

/-- May the bridge fetch an entry of the ring now (R281, R294)? -/
def State.mayFetch (s : State) (c : Nat) : Bool :=
  let x := s.ctx c
  x.enable && !x.ringError && x.entry.isNone && x.cons != x.doorbell && decide (2 ≤ x.ringSize.toNat) && x.state != .haltedLink &&
    s.fetchReady (c / 16)

/-- R280 to R282: the 64 bytes of the next slot are read. -/
def execEntryFetch (ctx : Ctx) (entry : HostRead) (s : State) : Host.Outcome State Fault Refusal :=
  let c := ctx.val
  if !(s.mayFetch c) then .next s else
  let read := s.hostRead (s.ctx c).slotAddr 64
  match entry with
  | .failed => .next (read.ringStop c)
  | .data b =>
    if b.length ≠ 64 then .next s else
    let e := parseEntry b
    let ok := e.accepted (s.ctx c)
    let s := read.updCtx c fun x => { x with entry := some e }
    let id := if e.op = 2 || e.op = 3 then e.planId else 0
    if !e.valid then .next (s.refuse c e.code 0x511 id [])
    else if !ok then .next (s.refuse c e.code 0x641 id [])
    else if e.op = 1 then .next (s.updCtx c fun x => { x with state := .loading })
    else if e.hasIn then .next (s.updCard (c / 16) fun x => { x with stagingQueue := x.stagingQueue ++ [c] })
    else .next s

/-- R282; while the Holm restarts, a LOAD waits in LOADING (R444). -/
def execLoad (ctx : Ctx) (image : HostRead) (s : State) : Host.Outcome State Fault Refusal :=
  let c := ctx.val
  let x := s.ctx c
  match x.entry, image with
  | some e, _ =>
    if e.op ≠ 1 || x.state != .loading || x.waiting.isSome || s.boot.restarting || !(s.linkUp (c / 16)) then .next s
    else match image with
      | .failed => .next ((s.hostRead e.imageAddr e.imageLength).refuseLoad c 0x643 0 [])
      | .data b =>
        if b.length ≠ e.imageLength then .next s else
        let s := s.hostRead e.imageAddr e.imageLength
        let p := parsePlan b
        match validate s b p with
        | some (code, detail) => .next (s.refuseLoad c code p.header.planId detail)
        | none => .next (s.admitPlan c p)
  | none, _ => .next s

/-- R282. -/
def execUnload (ctx : Ctx) (s : State) : Host.Outcome State Fault Refusal :=
  let c := ctx.val
  let x := s.ctx c
  match x.entry, x.plan with
  | some e, some p =>
    if e.op ≠ 3 || x.state != .loaded then .next s
    else .next (((s.completion c 0x522 0 false false false e.tag p.header.planId p.header.boundNs [] s.clock.base).consume c).returnLease c)
  | _, _ => .next s

/-! ### Launches (R284, R130, R40) -/

/-- The descriptors of a table that is present, where the bridge read all of them. -/
def tableBytes (present : Bool) (count : Nat) (r : HostRead) : Option (Option (List Byte)) :=
  if !present then some (some []) else match r with
  | .failed => some none
  | .data b => if b.length = count * 32 then some (some b) else none

/-- Copies checked, staging is reserved in turn and the IN buffers are read (R284 step 1). -/
def State.stage (s : State) (c : Nat) (tag : Nat) (ins outs : List HostCopy) (buffers : HostRead) : State :=
  let need := (ins.map (·.count)).sum
  let card := s.card (c / 16)
  if 131072 < need then s.refuseLaunch c 0x645 (leBytes 4 need ++ leBytes 4 131072)
  else if !ins.isEmpty && (card.stagingQueue.head? != some c || decide (card.stagingFree < need)) then s
  else match buffers with
    | .failed => if ins.isEmpty then go s [] else s.refuseLaunch c 0x643 []
    | .data b => if b.length = need * 65536 then go s b else s
where
  go (s : State) (b : List Byte) : State :=
    let need := (ins.map (·.count)).sum
    let s := ins.foldl (fun s d => s.hostRead d.host (d.count * 65536)) s
    let s := (s.unqueue c).updCard (c / 16) fun x => { x with stagingFree := x.stagingFree - need }
    s.updCtx c fun x => { x with run := some { number := x.runNo, tag := tag, start := 0, accepted := false, ins := ins, outs := outs,
                                                staged := splitStaged ins b } }

/-- The bridge reads the table, where the entry names one. -/
def State.readTable (s : State) (present : Bool) (addr count : Nat) : State := if present then s.hostRead addr (count * 32) else s

/-- R284 step 1, before acceptance. -/
def execLaunch (ctx : Ctx) (inTable outTable buffers : HostRead) (s : State) : Host.Outcome State Fault Refusal :=
  let c := ctx.val
  let x := s.ctx c
  match x.entry, x.plan with
  | some e, some p =>
    if e.op ≠ 2 || x.state != .loaded || x.run.isSome || !(s.linkUp (c / 16)) then .next s else
    match tableBytes e.hasIn e.inCount inTable with
    | none => .next s
    | some none => .next ((s.readTable true e.inTable e.inCount).refuseLaunch c 0x643 [])
    | some (some ib) =>
      let t := s.readTable e.hasIn e.inTable e.inCount
      match badCopy p true ib e.inCount with
      | some i => .next (t.refuseLaunch c 0x640 (leBytes 1 0 ++ leBytes 2 i))
      | none => match tableBytes e.hasOut e.outCount outTable with
        | none => .next s
        | some none => .next ((t.readTable true e.outTable e.outCount).refuseLaunch c 0x643 [])
        | some (some ob) =>
          let t := t.readTable e.hasOut e.outTable e.outCount
          match badCopy p false ob e.outCount with
          | some i => .next (t.refuseLaunch c 0x640 (leBytes 1 1 ++ leBytes 2 i))
          | none => .next (t.stage c e.tag (copiesOf ib e.inCount) (copiesOf ob e.outCount) buffers)
  | _, _ => .next s

/-- A launch that cannot be allocated is refused, and KV_STATUS counts it (R199; 09, Table 4). -/
def State.refuseShort (s : State) (c : Nat) (x : Shortage) : State :=
  let s := s.updIsle x.isle fun y => { y with
    kvRefused := satAdd 32 y.kvRefused 1, kvShort := Nat.max y.kvShort (x.needed - x.free), kvTime := s.clock.base }
  s.refuseLaunch c 0x630 (leBytes 1 x.isle ++ leBytes 1 x.target ++ leBytes 3 x.list ++ leBytes 3 x.needed ++ leBytes 3 x.free)

/-- The bridge accepts the launch: the run begins with its lists, its counters at INITIAL, and the owners of its operand-store pages
and those of its pseudo-channels and ways (R34, R40, R130, R154, R301). -/
def State.acceptRun (s : State) (c : Nat) (p : Plan) (lists : Table (Table Nat)) : State :=
  let s := s.updFn (s.ownerFn c) fun f => { f with reserved := f.reserved + 2 }
  let bv := s.outside c p
  let s := s.updCtx c fun x =>
    let n := (x.runNo + 1) % 65536
    { x with
      state := .running, runNo := n
      run := x.run.map fun r => { r with accepted := true, number := n, start := s.clock.base, lists := lists, boundVoid := bv } }
  let s := (p.tokens.foldl (fun s t => s.setToken t.isle t.counter t.initial) s).takeOwners c p
  { s with pages := p.footprint.foldl (fun t k => t.put k c) s.pages }

/-- R284 step 2. Two places of the pending store are held first (R290), a due rate change of a leased stack comes first (R414), and
so do links that a write of POD_NUMBER has reset (R274). -/
def execLaunchAccept (ctx : Ctx) (s : State) : Host.Outcome State Fault Refusal :=
  let c := ctx.val
  let x := s.ctx c
  let f := s.fn (s.ownerFn c)
  match x.run, x.plan with
  | some r, some p =>
    if r.accepted || x.state != .loaded || s.rateWaits p || s.renumbering p || !(s.linkUp (c / 16)) ||
        !(decide (f.pend.length + f.reserved + 2 ≤ 1024) && f.holm.isEmpty) then .next s
    else match s.launchShape p with
      | some i => .next (s.refuseLaunch c 0x610 (leBytes 4 s.shape.cur.epoch ++ leBytes 1 i))
      | none =>
        if (leaseUnhealthy s p).any (·.1) then .next (s.refuseLaunch c 0x606 [])
        else if !(s.peersFit p) then .next (s.refuseLaunch c 0x631 [])
        else match s.fillLists c p with
          | .error short => .next (s.refuseShort c short)
          | .ok (t, lists) => .next (t.acceptRun c p lists)
  | _, _ => .next s

/-! ### Host copies (R284 step 3) -/

/-- One page lands from staging; a null page is counted (R142). -/
def State.landPage (s : State) (c : Nat) (r : Run) (d : HostCopy) (bytes : List Byte) (i : Nat) : State × Bool :=
  match r.entry d.list (d.index + i) with
  | none => (s.updIsle (s.listIsle c d.list) fun x => { x with nullAccess := satAdd 32 x.nullAccess 1 }, true)
  | some a => match s.writeFault a 65536 with
    | some f => (s.accessFault c (srcCard (c / 16)) f d.list (d.index + i), false)
    | none => (s.storeBytes a (slice bytes (i * 65536) 65536), true)

/-- Pages of a host copy cross the shore link of a card: the bytes of a page are 2,048 slots, and seven go into a flit (R450, log 160).
Direction 0 leaves the wafer. -/
def State.shoreFlits (s : State) (b dir pages : Nat) : State :=
  if s.inject.armed then s.injectFlits 3 b dir (ceilDiv (pages * 2048) 7) else s

/-- R284: the IN copy under way lands, frees its staging and signals. -/
def execInCopyComplete (ctx : Ctx) (s : State) : Host.Outcome State Fault Refusal :=
  let c := ctx.val
  match s.activeRun c with
  | none => .next s
  | some r => match r.ins[r.inDone]?, r.staged[r.inDone]? with
    | some d, some bytes =>
      if !(s.linkUp (c / 16)) then .next s else
      let (s, ok) := (List.range d.count).foldl (fun sb i => if sb.2 then sb.1.landPage c r d bytes i else sb) (s.shoreFlits (c / 16) 1 d.count, true)
      if !ok then .next s
      else .next (((s.updRun c fun r => { r with inDone := r.inDone + 1 }).freeStaging c d.count).signal c d.isle d.counter d.value)
    | _, _ => .next s

/-- R284: of the OUT copies whose counter has reached VALUE, the first of the table starts once no other is under way. -/
def execOutCopyStart (ctx : Ctx) (index : Fin 256) (s : State) : Host.Outcome State Fault Refusal :=
  let c := ctx.val
  let n := index.val
  match s.activeRun c with
  | none => .next s
  | some r =>
    let ready (i : Nat) : Bool := match r.outs[i]? with
      | some d => !(r.outDone.get false i) && decide (d.value ≤ s.token d.isle d.counter)
      | none => false
    if !(ready n) || !r.outStarted.rows.isEmpty || ((List.range n).any ready) || !(s.linkUp (c / 16)) then .next s else
    let hold := Nat.min ((r.outs[n]?.map (·.count)).getD 0) (s.card (c / 16)).stagingFree
    .next ((s.updCard (c / 16) fun x => { x with stagingFree := x.stagingFree - hold }).updRun c fun r =>
      { r with outStarted := r.outStarted.put n hold })

/-- One page goes into host memory as a posted write (R481). -/
def State.sendOut (s : State) (c : Nat) (r : Run) (d : HostCopy) (i : Nat) : State × Bool :=
  let out (s : State) (b : List Byte) : State := { s with out := { s.out with host := s.out.host ++ [.data (d.host + i * 65536) b] } }
  match r.entry d.list (d.index + i) with
  | none => (out (s.updIsle (s.listIsle c d.list) fun x => { x with nullAccess := satAdd 32 x.nullAccess 1 }) (List.replicate 65536 0), true)
  | some a => match s.readFault a 65536 with
    | some f => (s.accessFault c (srcCard (c / 16)) f d.list (d.index + i), false)
    | none => (out s (s.mem.readBytes a 65536), true)

/-- R284: the OUT copy under way has written its last page. -/
def execOutCopyComplete (ctx : Ctx) (s : State) : Host.Outcome State Fault Refusal :=
  let c := ctx.val
  match s.activeRun c with
  | none => .next s
  | some r => match r.outStarted.rows.head? with
    | none => .next s
    | some (n, hold) => match r.outs[n]? with
      | none => .next s
      | some d =>
        if !(s.linkUp (c / 16)) then .next s else
        let (s, ok) := (List.range d.count).foldl (fun sb i => if sb.2 then sb.1.sendOut c r d i else sb) (s.shoreFlits (c / 16) 0 d.count, true)
        if !ok then .next s
        else .next ((s.updRun c fun r => { r with outStarted := r.outStarted.drop n, outDone := r.outDone.put n true }).freeStaging c hold)

/-! ### Context registers (R277, R281, R293) -/

/-- R281. -/
def execCtxEnable (fn : FnId) (k : Fin 16) (enable : Bool) (s : State) : Host.Outcome State Fault Refusal :=
  match s.ownedCtx fn k.val with
  | some c => .next (s.updCtx c fun x => { x with enable := enable })
  | none => .next s

/-- R293. -/
def execCtxStop (fn : FnId) (k : Fin 16) (s : State) : Host.Outcome State Fault Refusal :=
  match s.ownedCtx fn k.val with
  | some c => .next (if (s.ctx c).state = .running then s.haltJob c 0x642 else s)
  | none => .next s

/-- R281. -/
def execCtxStatusClear (fn : FnId) (k : Fin 16) (s : State) : Host.Outcome State Fault Refusal :=
  match s.ownedCtx fn k.val with
  | some c => .next (s.updCtx c fun x => { x with ringError := false })
  | none => .next s

/-- R277. -/
def execCtxOwner (fn : FnId) (k : Fin 16) (value : BitVec 32) (s : State) : Host.Outcome State Fault Refusal :=
  let c := fn.card.val * 16 + k.val
  if fn.fn ≠ 0 || !(s.card fn.card.val).present then .next s
  else if (s.ctx c).state = .empty && !(s.ctx c).enable then .next (s.setOwner c (value.toNat % 16))
  else .next (s.configError fn.key)

/-! ### The event queue (R288 to R291) -/

/-- R291: if records remain, the moderation time restarts from the write. -/
def execEvqCons (fn : FnId) (value : BitVec 32) (s : State) : Host.Outcome State Fault Refusal :=
  if !(s.card fn.card.val).present then .next s else
  .next (s.updFn fn.key fun f => { f with
    evqCons := value, modStart := if f.prod = value then f.modStart else some s.clock.ticks })

/-- R288: the next records are written where the queue has room for them. While contexts of a pulled card are held, so are its records
(R297). -/
def execEvqRecordWrite (fn : FnId) (s : State) : Host.Outcome State Fault Refusal :=
  let k := fn.key
  let f := s.fn k
  let b := fn.card.val
  let rs := s.nextBatch k
  if !(s.linkUp b) || (s.card b).heldSerial.isSome || !f.evqEnable || f.evqSize = 0 || rs.isEmpty || decide (evqRoom f < rs.length) then
    .next s
  else
    let s := s.updFn k fun f =>
      if f.droppedSince.rows.isEmpty then ({ f with pend := f.pend.drop rs.length }).refill else { f with droppedSince := {} }
    let s := s.writeBatch k rs
    let g := s.fn k
    .next (if g.urgent || decide (g.modCount ≤ g.unsignalled) then s.evqVector k else s)

/-- R291. -/
def execEvqModTimeout (fn : FnId) (s : State) : Host.Outcome State Fault Refusal :=
  .next (if (s.fn fn.key).modStart.isSome then s.evqVector fn.key else s)

/-! ### BAR2 (R286, R287) -/

/-- R286. -/
def execBar2SegmentWrite (fn : FnId) (index : Fin 4096) (value : Word) (s : State) : Host.Outcome State Fault Refusal :=
  if !(s.card fn.card.val).present then .next s else
  let a := value.toNat / 2 ^ 26 * 2 ^ 26
  let ok := unitOf a == s.unitNo && decide (classOf a < 2)
  .next (s.fnWrite fn.key ok fun f => { f with segments := f.segments.put index.val (BitVec.ofNat 64 (a + value.toNat % 2)) })

/-- The data of a read goes to the host. -/
def State.bar2Out (s : State) (k : Nat) (b : List Byte) : State := { s with out := { s.out with bar2 := s.out.bar2 ++ [(k, b)] } }

/-- A read returns all ones, or a write is discarded. -/
def State.bar2None (s : State) (k : Nat) : Bar2Op → State
  | .read n => s.bar2Out k (List.replicate n.val 0xFF)
  | .write _ => s

def State.bar2Refuse (s : State) (fn : FnId) (window segment offset : Nat) (op : Bar2Op) : State :=
  (s.bar2None fn.key op).emit 0x512 1 (srcCard fn.card.val) none [fn.fn.val, window, segment, offset]

/-- May the function reach a pseudo-channel (R287)? One that is being cleared belongs to no one yet. -/
def State.bar2May (s : State) (fn : FnId) (a : Nat) : Bool :=
  match s.ownerOf a with
  | some c => s.ownerFn c == fn.key
  | none => fn.fn == 0 && !(s.clearingPlans.any fun p => p.hasPc (isleOf a) (pcOf a))

/-- R287, R163: a stack in thermal protection refuses every request. An access to an isle in retention waits for its wake (R420); one to an isle that does not serve is refused; an uncorrectable
read returns free bytes (log 81). -/
def execBar2Access (fn : FnId) (window : Fin 4) (segment : Fin 1024) (offset : BitVec 26) (op : Bar2Op) (s : State) :
    Host.Outcome State Fault Refusal :=
  let k := fn.key
  let e := ((s.fn k).segments.get 0 (window.val * 1024 + segment.val)).toNat
  let a := localOf (e / 2 ^ 26 * 2 ^ 26) + offset.toNat
  let refused := s.bar2Refuse fn window.val segment.val offset.toNat op
  if !(s.linkUp fn.card.val) then .next s
  else if !(bit e 0) then .next (s.bar2None k op)
  else if s.isleServing (isleOf a) && (s.power.isle.get .i3 (isleOf a) == .i2 ||
      s.power.hold.get .unpowered (holdIsle (isleOf a)) == .held) then .next s
  else if !(s.isleServing (isleOf a)) || decide (classLimit (classOf a) ≤ offOf a) || !(s.bar2May fn a) || s.stackRefuses a then .next refused
  else match op with
    | .read n => match s.badIn a n.val with
      | none => .next (s.bar2Out k (s.mem.readBytes a n.val))
      | some u =>
        let free := (List.range n.val).map fun i => (Config.freeWord (s.free + i)).setWidth 8
        .next (({ (s.countBad u) with free := s.free + n.val }.bar2Out k free).emit 0x301 3 (srcIn (isleOf a) 1 0) none [isleOf a, classOf a, offOf a])
    | .write b =>
      if s.sharedAt a then .next refused
      else match s.badMerge a b.length with
        | some u => .next ((s.countBad u).emit 0x301 3 (srcIn (isleOf a) 1 0) none [isleOf a, classOf a, offOf a])
        | none => .next (s.storeBytes a b)

/-! ### The mailbox (R292) -/

/-- R292, R321, R324: the request in MBX_REQ is sent. One that no function performs is answered with its error at once, and one whose REPLY
bit is set is discarded silently. -/
def execMbxDoorbell (fn : FnId) (value : BitVec 32) (s : State) : Host.Outcome State Fault Refusal :=
  let k := fn.key
  if value ≠ 1 || !(s.card fn.card.val).present then .next s
  else if !s.boot.holmReady || s.boot.restarting then .next (s.updFn k fun f => { f with mbxNotReady := true })
  else if (s.fn k).mbxBusy then .next (s.updFn k fun f => { f with mbxOverrun := true })
  else
    let b := padTo 256 (s.fn k).mbxReq
    let (control, payload) := (fieldAt b 0 1, slice b 2 (fieldAt b 1 1))
    if bit control 5 then .next s
    else
      let s := s.updFn k fun f => { f with mbxBusy := true }
      match if 240 < fieldAt b 1 1 then some 2 else frameError control payload with
      | some e => .next (s.refuseFrame (.mailbox fn) false control payload e)
      | none => .next s

/-! ### Resets (R294, R295) -/

/-- R295: the reset of a function; that of the physical function takes in every function of the card and returns its contexts. -/
def execFunctionReset (fn : FnId) (s : State) : Host.Outcome State Fault Refusal :=
  let b := fn.card.val
  if !(s.card b).present then .next s
  else if fn.fn ≠ 0 then .next (s.fnReset fn.key)
  else
    let s := (List.range 16).foldl (fun s n => s.fnReset (b * 16 + n)) s
    let s := (List.range 16).foldl (fun s n => s.setOwner (b * 16 + n) 0) s
    .next (s.uartsBack b)

/-- R294; `refclk` is the presence of a reference clock at PERST#, without which the link is clocked independently (20). -/
def execPerstRelease (card : Card) (refclk : Bool) (s : State) : Host.Outcome State Fault Refusal :=
  .next (if (s.card card.val).present then s.updCard card.val fun x => { x with crsUntil := s.clock.ticks + 125000000, sris := !refclk } else s)

/-! ### A card's coming and going (R297, R298) -/

/-- R297. -/
def execBridgeRemoved (card : Card) (s : State) : Host.Outcome State Fault Refusal := .next (s.loseCard card.val)

/-- The Holm writes the component of the running bundle into a card that holds another (R446). -/
def State.updateCard (s : State) (b : Nat) : State :=
  let v := (s.boot.slots.get {} s.boot.running).version
  let old := (s.card b).version
  if !s.boot.holmUp || v.isEmpty || old == v then s
  else (s.updCard b fun x => { x with version := v }).emit 0xF0B 1 (srcHolm) none [b, ofBytes old, ofBytes v]

/-- R297. -/
def execBridgeInserted (card : Card) (serial version : List Byte) (s : State) : Host.Outcome State Fault Refusal :=
  let b := card.val
  if (s.card b).present then .next s else
  let s := s.updCard b fun x => { x with present := true, serial := serial, version := version, link := .training }
  .next ((s.emit 0x500 1 (srcCard b) none [b]).updateCard b)

/-- R297: the shore link finishes training; contexts held of a card with another serial are discarded. -/
def execShoreLinkUp (card : Card) (s : State) : Host.Outcome State Fault Refusal :=
  let b := card.val
  if !(s.card b).present || (s.card b).link != .training then .next s else
  let s := s.updCard b fun x => { x with link := .up, upSince := some s.clock.ticks, stagingReady := true }
  let s := (s.emit 0x505 1 (srcCard b) none [b]).refresh
  .next (if (s.card b).heldSerial.isSome && (s.card b).heldSerial != some (s.card b).serial then s.discard b else s)

/-- R297. -/
def execFnReattach (fn : FnId) (value : BitVec 32) (s : State) : Host.Outcome State Fault Refusal :=
  let b := fn.card.val
  let x := s.card b
  if fn.fn ≠ 0 || value ≠ 0x5EA7 || !x.present || x.heldSerial != some x.serial then .next s else
  let held := s.heldCtxs b
  let s := held.foldl (fun s c => (s.unloadNow c 0x502).updCtx c fun x => { x with state := .empty, entry := none }) s
  .next ((s.updCard b fun x => { x with heldSerial := none }).emit 0x506 1 (srcCard b) none [b, held.length])

/-- R297. -/
def execFnDiscard (fn : FnId) (value : BitVec 32) (s : State) : Host.Outcome State Fault Refusal :=
  let b := fn.card.val
  if fn.fn ≠ 0 || value ≠ 0xD15C || !(s.card b).present || (s.card b).heldSerial.isNone then .next s else .next (s.discard b)

/-- R297. -/
def execContextDiscardTimeout (card : Card) (s : State) : Host.Outcome State Fault Refusal :=
  .next (if s.linkUp card.val && (s.card card.val).heldSerial.isSome then s.discard card.val else s)

/-- Runs of a card's contexts carry BOUND_VOID (R298). -/
def State.voidCard (s : State) (b : Nat) : State := s.voidRuns fun c _ => c / 16 == b

/-- R298. -/
def execShoreLinkRetrain (card : Card) (s : State) : Host.Outcome State Fault Refusal :=
  let b := card.val
  if !(s.linkUp b) then .next s else
  let s := s.updCard b fun x => { x with link := .retrying, upSince := some s.clock.ticks, retrains := satAdd 32 x.retrains 1 }
  .next (((s.emit 0x503 2 (srcCard b) none [b]).voidCard b).refresh)

/-- R298. -/
def execShoreLinkRetrained (card : Card) (s : State) : Host.Outcome State Fault Refusal :=
  let b := card.val
  if (s.card b).link != .retrying then .next s else
  let s := s.updCard b fun x => { x with link := .up, upSince := some s.clock.ticks }
  .next ((s.emit 0x504 1 (srcCard b) none [b]).refresh)

/-- R298. -/
def execShoreLinkRetryExpiry (card : Card) (s : State) : Host.Outcome State Fault Refusal :=
  .next (if (s.card card.val).link = .retrying then s.loseCard card.val else s)

end Sys2Proof.Machine
end

