-- ==== Sys2Proof/Machine/Memory.lean ====
section
/-! DEFINITION. Stacked memory and the isle store (07): reductions, thermal steps, scrubbing, repair, bank rotation; and the
commands of the wafer shape that follow faults (03). -/

namespace Sys2Proof.Machine

/-- R157 to R160. The row names no sender, and events name the adder. -/
def execReduceContribution (ctx : Ctx) (t : TargetId) (c : Contribution) (s : State) : Host.Outcome State Fault Refusal :=
  if c.offset.toNat % 64 ≠ 0 || classLimit t.cls.val ≤ c.offset.toNat then .refused .operandRefusedAtLoad
  else .next (s.contribute (adderKey t.isle.val t.cls.val) ctx.val (srcAdder (adderKey t.isle.val t.cls.val)) c)
/-- R158: the oldest returned contribution is sent again. -/
def execReduceResend (t : TargetId) (s : State) : Host.Outcome State Fault Refusal :=
  let k := adderKey t.isle.val t.cls.val
  match (s.adder k).returned with
  | [] => .next s
  | q :: r => .next ((s.updAdder k fun a => { a with returned := r }).contribute k q.ctx q.src q.c)

/-- A stack in service: trained and out of self-refresh. -/
def StackSt.serves (x : StackSt) : Bool := x.trained && !x.selfRefresh

/-- R151. -/
def execHbmDriftTrack (k : StackId) (s : State) : Host.Outcome State Fault Refusal :=
  if (s.stack k.key).serves then
    .next ((s.updStack k.key fun x => { x with drifts := satAdd 32 x.drifts 1 }).bgCycle 2 k.isle.val k.stack.val)
  else .next s

/-! ### Thermal steps (R162, R163; 07, Table 6) -/

def stepThreshold (step : Nat) : Int := if step = 1 then 85 else if step = 2 then 95 else 105
def thermalStep (temp : Int) : Nat := if temp < 85 then 0 else if temp < 95 then 1 else if temp < 105 then 2 else 3

/-- Bits of PC_MASK of a stack. -/
def stackBits (stack : Nat) : Nat := (2 ^ 32 - 1) * 2 ^ (stack * 32)

/-- The healthy mask of an isle takes `mask` (32 bits) for one stack. -/
def IsleSt.setStackPcs (x : IsleSt) (stack mask : Nat) : IsleSt :=
  let other := bits x.pc.toNat ((1 - stack) * 32 + 31) ((1 - stack) * 32)
  { x with pc := BitVec.ofNat 64 (other * 2 ^ ((1 - stack) * 32) + mask % 2 ^ 32 * 2 ^ (stack * 32)) }

/-- A stack enters a step (R162): HBM_THROTTLE, and HBM_THROTTLE_CLEAR with it when the stack leaves every step. -/
def State.thermal (s : State) (k : Nat) (temp : Int) (step : Nat) : State :=
  let s := s.updStack k fun x => { x with step := step, below := 0 }
  let s := s.emit 0x310 2 (srcStack k) none [k / 2, k % 2, i64 temp, step]
  if step = 0 then s.emit 0x311 1 (srcStack k) none [k / 2, k % 2] else s

/-- Entry to thermal protection (R163): self-refresh, the jobs of the stack halt, its pseudo-channels leave the healthy mask. -/
def State.protectStack (s : State) (k : Nat) (temp : Int) : State :=
  let s := s.emit 0x312 4 (srcStack k) none [k / 2, k % 2, i64 temp]
  let s := s.updStack k fun x => { x with selfRefresh := true, coolSince := none }
  let s := s.haltWhere 0x312 fun _ p => p.hasStack k
  (s.updIsle (k / 2) fun x => x.setStackPcs (k % 2) 0).refresh

/-- R162, R163. In thermal protection a reading only tells whether the stack is cooling. -/
def execHbmTemperatureReading (k : StackId) (temp : Int) (s : State) : Host.Outcome State Fault Refusal :=
  let x := s.stack k.key
  if !x.trained then .next s
  else if x.selfRefresh then
    if x.step = 3 then .next (s.updStack k.key fun x => { x with
      coolSince := if temp ≤ 90 then (match x.coolSince with
        | some t => some t
        | none => some s.clock.ticks) else none })
    else .next s
  else
    let s := s.updStack k.key fun x => { x with temp := temp, doubleRefresh := decide (85 ≤ temp) }
    let s := if 85 ≤ temp then s.voidRuns fun _ p => p.hasStack k.key else s
    let t := thermalStep temp
    if x.step < t then
      let s := s.thermal k.key temp t
      .next (if t = 3 then s.protectStack k.key temp else s)
    else if 0 < x.step && decide (temp ≤ stepThreshold x.step - 5) then
      if x.below + 1 = 100 then .next (s.thermal k.key temp (x.step - 1))
      else .next (s.updStack k.key fun x => { x with below := x.below + 1 })
    else .next (s.updStack k.key fun x => { x with below := 0 })

/-- Training of a stack (R150): its bursts are written with zeros, and what fails stays out of the healthy mask. -/
def State.trainStack (s : State) (k : Nat) (failed : BitVec 32) (stackFailed : Bool) : State :=
  let a := gaddr (k / 2) (k % 2) 0
  let s := { (s.clearBad a (classLimit 0)) with mem := s.mem.clear a (classLimit 0) }
  let s := s.updStack k fun x => { x with trained := true, selfRefresh := false, coolSince := none, below := 0 }
  let good := if stackFailed then 0 else 2 ^ 32 - 1 - failed.toNat
  let s := s.updIsle (k / 2) fun x => x.setStackPcs (k % 2) good
  if stackFailed then s.emit 0x304 3 (srcStack k) none [k / 2, k % 2] else s

/-- Frames whose release waited for a stack are released (R163). -/
def State.releaseDeferred (s : State) (k : Nat) : State :=
  let ready := s.deferred.filter fun f => stackOf (frameAddr f) == k
  ready.foldl (fun s f => s.updFrame f fun x => { x with count := x.count - 1, copying := false })
    { s with deferred := s.deferred.filter fun f => stackOf (frameAddr f) != k }

/-- R163: the stack returns, in the step that its first reading gives. -/
def execHbmStackReturn (k : StackId) (failed : BitVec 32) (stackFailed : Bool) (temp : Int) (s : State) :
    Host.Outcome State Fault Refusal :=
  let x := s.stack k.key
  if x.selfRefresh && x.step = 3 && x.coolSince.isSome then
    let s := s.trainStack k.key failed stackFailed
    let s := s.updStack k.key fun x => { x with temp := temp, doubleRefresh := decide (85 ≤ temp) }
    let s := s.thermal k.key temp (Nat.min (thermalStep temp) 1)
    .next ((s.releaseDeferred k.key).refresh)
  else .next s

/-! ### Scrubbing (R391, R153, R164, R167) -/


def addNew (l : List Nat) (x : Nat) : List Nat := if l.contains x then l else l ++ [x]

/-- A corrected read of a scrub pass: a frame corrected in two passes is marked for repair (R169; by frame, log 29). -/
def StackSt.corrected1 (x : StackSt) (frame : Nat) : StackSt :=
  if x.watched.contains frame then { x with corrected := satAdd 64 x.corrected 1, marked := addNew x.marked frame }
  else { x with corrected := satAdd 64 x.corrected 1, seen := addNew x.seen frame }

/-- What a scrub reads of a unit: one that is stored uncorrectable stays so (R153, R164). -/
def State.scrubRead (s : State) (a : Nat) (o : ReadOutcome) : ReadOutcome := if s.bad.has (a / unitSize a * unitSize a) then .uncorrectable else o
/-- A burst read under the code of R152 with the outcome `o`; a correction is written back, as the code makes it. -/
def State.hbmRead (s : State) (k off : Nat) (o : ReadOutcome) (fix : List (Nat × Nat)) : State :=
  let a := gaddr (k / 2) (k % 2) (off / 64 * 64)
  match o with
  | .clean => s
  | .corrected => ({ s with mem := s.mem.writeBytes a (flipBurst fix (s.mem.readBytes a 64)) }.updStack k
      (·.corrected1 (off / 65536))).emit 0x300 0 (srcStack k) none [k / 2, k % 2, off]
  | .uncorrectable => (s.countBad a).emit 0x301 3 (srcStack k) none [k / 2, k % 2, off, 6, k % 2, 0xFF]

def State.scrubHbm (s : State) (k off : Nat) (found : ReadFinding) (last : Bool) : State :=
  let r := rsRead found
  let s := s.hbmRead k off (s.scrubRead (gaddr (k / 2) (k % 2) (off / 64 * 64)) r.1) r.2
  if last then (s.updStack k fun x => { x with watched := x.seen.foldl addNew x.watched, seen := [] }).bgCycle 1 (k / 2) (k % 2) else s

/-- Physical bank behind a byte of the isle store (R148, R165). -/
def IsleStoreSt.bankOf (x : IsleStoreSt) (off : Nat) : Nat :=
  let l := off / 0x400000 * 2 + off / 64 % 2
  x.place.get l l

/-- Corrected word of the isle store, whose flipped bit `b` lies in sub-array `b` of its group (R164): four rows of one column in a pass
move the bank to the head of the order (R167). -/
def IsleStoreSt.corrected1 (x : IsleStoreSt) (bank b : Nat) (cell : Fin 2 × Fin 256 × Fin 512) : IsleStoreSt :=
  let key := (bank * 144 + cell.1.val * 72 + b) * 256 + cell.2.1.val
  let rows := addNew (x.scrubRows.get [] key) cell.2.2.val
  { x with
    corrected := satAdd 64 x.corrected 1
    scrubRows := x.scrubRows.put key rows
    head := if 4 ≤ rows.length && !(x.head.contains bank) then bank :: x.head else x.head }

/-- A word of the isle store read under the code of R164 with the outcome `o`, the flipped bit being bit `b` of its sub-array group. -/
def State.isleRead (s : State) (i off : Nat) (o : ReadOutcome) (b : Nat) (cell : Fin 2 × Fin 256 × Fin 512) : State :=
  match o with
  | .clean => s
  | .corrected => (s.updIsleStore i fun x => x.corrected1 (x.bankOf off) b cell).emit 0x320 0 (srcIn i 7 0) none [i, 2, off]
  | .uncorrectable => (s.countBad (gaddr i 2 off)).emit 0x321 3 (srcIn i 7 0) none [i, 2, off, 7, 0, 0xFF]

def State.scrubIsle (s : State) (i off : Nat) (found : ReadFinding) (cell : Fin 2 × Fin 256 × Fin 512) (last : Bool) : State :=
  let s := s.isleRead i off (s.scrubRead (gaddr i 2 off) (secDed found)) ((flippedBits found).headD 0) cell
  if last then (s.updIsleStore i fun x => { x with scrubRows := {} }).bgCycle 5 i 0 else s

def State.scrubOx (s : State) (e off : Nat) (found : ReadFinding) (last : Bool) : State :=
  let s := match s.scrubRead (operandAddr e off) (secDed found) with
    | .clean => s
    | .corrected => (s.updEngine e fun x => { x with corrected := satAdd 32 x.corrected 1 }).emit 0x330 0 (srcOx e) none [e / 4, e % 4, off]
    | .uncorrectable => (s.markBad (operandAddr e off)).emit 0x331 3 (srcOx e) none [e / 4, e % 4, off, 0xFF]
  if last then s.bgCycle 7 (e / 4) (e % 4) else s

/-- A word of a core's memories read under R164 with the outcome `o` (R167). -/
def State.coreRead (s : State) (c off : Nat) (o : ReadOutcome) : State :=
  match o with
  | .clean => s
  | .corrected => (s.updBant (c / 16) fun x => { x with corrected := satAdd 32 x.corrected 1 }).emit 0x332 0 (srcCore c) none
      [c / 16, c % 16, off / 65536, off]
  | .uncorrectable => (s.countBad (coreAddr c off)).emit 0x333 3 (srcCore c) none [c / 16, c % 16, off / 65536, off, 0xFF]

def State.scrubCore (s : State) (c off : Nat) (found : ReadFinding) (last : Bool) : State :=
  let s := s.coreRead c off (s.scrubRead (coreAddr c off) (secDed found))
  if last then s.bgCycle 8 (c / 16) (c % 16) else s

/-- No loaded plan holds the core. -/
def State.coreFree (s : State) (c : Nat) : Bool := !(s.loaded.any fun cp => cp.2.hasCore c)

/-- R391, R392: one word or burst of a scrub pass, in which the code finds what the flipped bits make of it (R152, R164). -/
def execHbmScrubPass (t : ScrubTarget) (offset : Nat) (found : ReadFinding) (cell : Fin 2 × Fin 256 × Fin 512)
    (endOfPass : Bool) (s : State) : Host.Outcome State Fault Refusal :=
  match t with
  | .hbm k => .next (if (s.stack k.key).serves && decide (offset < classLimit 0) then s.scrubHbm k.key offset found endOfPass else s)
  | .isleStore i => .next (if offset < classLimit 2 then s.scrubIsle i.val offset found cell endOfPass else s)
  | .operandStore e => .next (if (s.inWindow (windowKey e.isle.val 1 e.engine.val) || !(s.loaded.any fun cp => cp.2.hasOx e.key)) &&
      decide (offset < 2 ^ 21) then s.scrubOx e.key offset found endOfPass else s)
  | .bantamStore c => .next (if (s.inWindow (windowKey c.isle.val 2 c.core.val) || s.coreFree c.key) && decide (offset < 2 ^ 18) then
      s.scrubCore c.key offset found endOfPass else s)

/-- R169: a marked frame of COUNT 0 is repaired, or retired when its rows cannot all be repaired. hPPR takes a spare row of each bank
named. -/
def execHbmRowRepair (k : StackId) (frame : BitVec 19) (repaired : Bool) (spareRows : List Nat) (s : State) :
    Host.Outcome State Fault Refusal :=
  let f := frame.toNat
  let key := (k.isle.val * 3 + k.stack.val) * 2 ^ 19 + f
  if !((s.stack k.key).marked.contains f) || (s.frame key).count ≠ 0 then .next s else
  let s := s.updStack k.key fun x => { x with
    marked := x.marked.erase f
    watched := x.watched.erase f
    sparesUsed := spareRows.foldl (fun t b => t.upd 0 b (· + 1)) x.sparesUsed
    repaired := if repaired then satAdd 32 x.repaired 1 else x.repaired }
  if repaired then .next ((s.clearBad (frameAddr key) 65536).emit 0x302 1 (srcStack k.key) none [k.isle.val, k.stack.val, f])
  else .next ((s.updFrame key fun x => { x with retired := true }).emit 0x303 2 (srcStack k.key) none [k.isle.val, k.stack.val, f])

/-! ### Bank rotation (R165 to R168) -/

/-- The bank due: the head of the order, or the next bank that is neither the spare nor retired (log 30). -/
def IsleStoreSt.due (x : IsleStoreSt) : Option Nat := match x.head with
  | b :: _ => some b
  | [] => ((List.range 33).map fun n => (x.next + n) % 33).find? fun b => x.spare != some b && !(x.retiredBanks.contains b)

/-- R165 step 1. -/
def execBankRotationStep (isle : Isle) (s : State) : Host.Outcome State Fault Refusal :=
  let x := s.isleStore isle.val
  match x.spare, x.migrating, x.testing, x.due with
  | some _, none, none, some b => .next (s.updIsleStore isle.val fun x => { x with
      migrating := some b
      head := x.head.filter (· != b)
      next := if x.head.isEmpty then (b + 1) % 33 else x.next
      rotations := if x.head.isEmpty && b + 1 < x.next + 1 then satAdd 32 x.rotations 1 else x.rotations })
  | _, _, _, _ => .next s

/-- The spare takes the logical place of a bank. -/
def IsleStoreSt.replace (x : IsleStoreSt) (bank spare : Nat) : IsleStoreSt :=
  match (List.range 32).find? fun l => x.place.get l l == bank with
  | some l => { x with place := x.place.put l spare }
  | none => x

/-- R165 steps 2 and 3: the tested bank becomes the spare bank, outside the address map. -/
def execBankMigrationDone (isle : Isle) (s : State) : Host.Outcome State Fault Refusal :=
  let x := s.isleStore isle.val
  match x.migrating, x.spare with
  | some b, some sp => .next (s.updIsleStore isle.val fun x => { (x.replace b sp) with
      spare := some b, migrating := none, testing := some b })
  | _, _ => .next s

/-- A failing run of rows of one column (R166): at least 4 contiguous rows that end at row 511, each read 1. The estimated break row. -/
def lineFault (cells : List FailCell) : Option Nat :=
  let rows := cells.map (·.row.val)
  let first := rows.foldl Nat.min 511
  let n := 512 - first
  if cells.all (·.readOne) && decide (4 ≤ n) && (List.range n).all (fun i => rows.contains (first + i)) then some first else none

/-- A bank is retired (R168): it stays out, and the isle has no spare bank. -/
def State.retireBank (s : State) (i b : Nat) : State :=
  let s := s.updIsleStore i fun x => { x with retiredBanks := addNew x.retiredBanks b, spare := none }
  (s.emit 0x324 2 (srcIn i 7 0) none [i, b]).emit 0x325 2 (srcIn i 7 0) none [i]

/-- A line fault steers a spare column; none left retires the bank (R167, R168). -/
def State.steerColumn (s : State) (i b sub col row : Nat) : State × Bool :=
  let used := (s.isleStore i).spareColumns.get 0 (b * 144 + sub)
  if 4 ≤ used then (s, true) else
  ((s.updIsleStore i fun x => { x with
      spareColumns := x.spareColumns.put (b * 144 + sub) (used + 1), lineFaults := satAdd 32 x.lineFaults 1 }).emit
    0x322 2 (srcIn i 7 0) none [i, b, sub, col, row], false)

def cellId (b : Nat) (c : FailCell) : Nat := ((b * 144 + c.subArray.val) * 256 + c.column.val) * 512 + c.row.val

/-- A cell fault is logged; a cell that failed before is replaced by a spare row (R167). -/
def State.cellFault (s : State) (i b : Nat) (c : FailCell) : State × Bool :=
  let id := cellId b c
  let used := (s.isleStore i).spareRows.get 0 (b * 144 + c.subArray.val)
  if !((s.isleStore i).cellLog.contains id) then (s.updIsleStore i fun x => { x with cellLog := x.cellLog ++ [id] }, false)
  else if 8 ≤ used then (s, true)
  else ((s.updIsleStore i fun x => { x with
      cellLog := x.cellLog.filter fun j => !(j / 131072 == id / 131072 && j % 512 == id % 512)
      spareRows := x.spareRows.put (b * 144 + c.subArray.val) (used + 1) }).emit 0x323 1 (srcIn i 7 0) none
        [i, b, c.subArray.val, c.row.val], false)

/-- The failing cells of one column of one sub-array (R166, R167). -/
def State.columnFaults (s : State) (i b : Nat) (cells : List FailCell) : State × Bool :=
  match lineFault cells, cells with
  | some row, c :: _ => s.steerColumn i b c.subArray.val c.column.val row
  | _, cells => cells.foldl (fun sb c => let (s, bad) := sb.1.cellFault i b c; (s, sb.2 || bad)) (s, false)

/-- Cells of one test, grouped by sub-array and column. -/
def byColumn (cells : List FailCell) : List (List FailCell) :=
  let keys := cells.foldl (fun l c => addNew l (c.subArray.val * 256 + c.column.val)) []
  keys.map fun k => cells.filter fun c => c.subArray.val * 256 + c.column.val == k

/-- R166 to R168. -/
def execBankTestDone (isle : Isle) (cells : List FailCell) (s : State) : Host.Outcome State Fault Refusal :=
  let i := isle.val
  match (s.isleStore i).testing with
  | none => .next s
  | some b =>
    let (s, bad) := (byColumn cells).foldl (fun sb g => let (s, bad) := sb.1.columnFaults i b g; (s, sb.2 || bad)) (s, false)
    let s := s.updIsleStore i fun x => { x with testing := none }
    .next ((if bad then s.retireBank i b else s).bgCycle 6 i b)

/-! ### Sounds and the shape (03) -/

/-- Spare lanes for each 128 lanes of a Sound (R55): spares 4g to 4g + 3 stand by lanes 128g to 128g + 127 (DESIGN CHOICE, log 162). -/
def spareServes (lane spare : Nat) : Bool := spare / 4 == lane / 128

/-- R68, R55: spare-lane steering of a Sound out of service; when it restores the Sound, its return is a planned change. -/
def execSoundLaneSteering (sound : SoundId) (lane spare : Nat) (success : Bool) (s : State) : Host.Outcome State Fault Refusal :=
  let x := s.sound sound.val
  if x.state != .out || x.fused || !(spareServes lane spare) || x.spareFailed.contains spare || x.steered.any (·.2 == spare) then .next s
  else if success then
    let s := (s.updSound sound.val fun x => { x with state := .steering, steered := x.steered ++ [(lane, spare)] }).emit
      0x224 1 (srcIn 0xFF 8 sound.val) none [sound.val, lane, spare]
    .next (s.plannedChange (.soundReturn sound.val))
  else .next s

/-- R66. -/
def execIsleHardFault (isle : Isle) (block : Byte) (s : State) : Host.Outcome State Fault Refusal :=
  .next (s.isleFault isle.val block.toNat)

/-- R67: the oldest waiting planned change proceeds once no run of the older epoch is active. -/
def execShapeChangeProceed (s : State) : Host.Outcome State Fault Refusal :=
  if s.boot.restarting then .next s else
  match s.shape.waiting, s.olderRun with
  | ch :: r, none => .next ({ s with shape := { s.shape with waiting := r } }.applyChange ch)
  | _, _ => .next s

end Sys2Proof.Machine
end

