-- ==== Sys2Proof/Machine/Objects.lean ====
section
/-! DEFINITION. The object dictionary as it is read (15, R314 to R318, and the object tables of every chapter): which objects there are,
their types, access, roles and present values. -/

namespace Sys2Proof.Machine

/-! ### Types and access (R315, R316) -/

inductive ObjAccess where
  | ro | rw | rwp | wo | cmd
deriving DecidableEq, Repr

/-- A variable, or a member of a record: its type code (15, Table 1), its access, the role that writes it (1 Operator, 2 Custodian), its
present value, and whether it reports on a block under test (R339). -/
structure Member where
  typ : Nat
  value : List Byte
  acc : ObjAccess := .ro
  role : Nat := 1
  testing : Bool := false
deriving DecidableEq, Repr

def mBool (b : Bool) : Member := ⟨1, [if b then 1 else 0], .ro, 1, false⟩
def mU8 (v : Nat) : Member := ⟨2, leBytes 1 v, .ro, 1, false⟩
def mU16 (v : Nat) : Member := ⟨3, leBytes 2 v, .ro, 1, false⟩
def mU32 (v : Nat) : Member := ⟨4, leBytes 4 v, .ro, 1, false⟩
def mU64 (v : Nat) : Member := ⟨5, leBytes 8 v, .ro, 1, false⟩
def mI32 (v : Int) : Member := ⟨6, leBytes 4 (ofInt 32 v), .ro, 1, false⟩
def mI64 (v : Int) : Member := ⟨7, leBytes 8 (ofInt 64 v), .ro, 1, false⟩
def mTime (v : Nat) : Member := ⟨9, leBytes 8 v, .ro, 1, false⟩
def mStr (b : List Byte) : Member := ⟨10, b, .ro, 1, false⟩
def mBlob (b : List Byte) : Member := ⟨11, b, .ro, 1, false⟩
def Member.as (m : Member) (a : ObjAccess) (role : Nat) : Member := { m with acc := a, role := role }

/-- Text of an object, free while there is none to show. -/
def textOr (key : Nat) (b : List Byte) : Member := mStr (if b.isEmpty then Config.unsetText key else b)

/-- A CMD object: the state and result of its action (R329). -/
def State.action (s : State) (role idx sub : Nat) : Member :=
  let a := s.dict.actions.get {} (objKey idx sub)
  (mU32 (a.state + a.result * 65536)).as .cmd role

/-- The reading of a sensor. -/
def State.sense (s : State) (key : Nat) : Nat := Config.sensor key s.clock.ticks

/-! ### Which objects there are (R314, R318) -/

/-- First index, number of indexes, and highest subindex (0 for a variable) of every object. -/
def objectRows : List (Nat × Nat × Nat) :=
  [(0x1000, 6, 0), (0x1010, 4, 0), (0x1020, 3, 0), (0x1030, 1, 0), (0x1040, 1, 0), (0x1050, 1, 12),
   (0x1100, 4, 0), (0x1104, 1, 5), (0x1105, 1, 6), (0x1106, 4, 0), (0x1200, 1, 0), (0x1202, 1, 10), (0x1203, 2, 0),
   (0x2000, 6, 0), (0x2006, 1, 9), (0x2010, 1, 64), (0x2011, 1, 0), (0x2012, 2, 64), (0x2020, 6, 5), (0x2030, 10, 3), (0x2040, 1, 4),
   (0x2041, 1, 0), (0x2050, 2, 0), (0x2060, 2, 0), (0x2062, 1, 5)] ++
  [(0x2200, 3, 0), (0x2203, 1, 144), (0x2204, 1, 64), (0x2205, 1, 0), (0x2206, 1, 64), (0x2240, 64, 6), (0x2280, 64, 28),
   (0x22C0, 64, 9), (0x2300, 2, 96), (0x2302, 1, 0), (0x2303, 1, 64), (0x2304, 1, 32),
   (0x3000, 64, 14), (0x3040, 64, 11), (0x3080, 64, 0), (0x3100, 64, 10), (0x3140, 1, 0), (0x3180, 64, 4)] ++
  [(0x4000, 128, 8), (0x4080, 256, 0), (0x4180, 8, 4), (0x4190, 1, 0), (0x4200, 128, 15), (0x4280, 1, 0), (0x4290, 1, 64),
   (0x5000, 4, 10), (0x5040, 64, 5), (0x6000, 1, 64), (0x6040, 64, 7), (0x6080, 64, 8),
   (0x7010, 2, 64), (0x7012, 3, 0), (0x7015, 2, 64), (0x7040, 64, 0)] ++
  [(0x9000, 1, 2), (0x9001, 1, 0), (0x9002, 1, 3), (0x9003, 2, 0), (0x9005, 1, 3), (0x9010, 2, 10),
   (0xA000, 2, 0), (0xA002, 1, 3), (0xA010, 16, 12), (0xA040, 1, 128), (0xA041, 1, 4), (0xA042, 1, 144), (0xA043, 1, 0),
   (0xA044, 1, 4), (0xB000, 64, 0), (0xF000, 3, 5), (0xF010, 7, 0), (0xF020, 1, 7), (0xF021, 1, 3), (0xF022, 1, 4)]

/-- Highest subindex of an index, where it exists. -/
def topSub (idx : Nat) : Option Nat :=
  (objectRows.find? fun r => decide (r.1 ≤ idx) && decide (idx < r.1 + r.2.1)).map (·.2.2)

/-- The objects that the recovery server serves (R448). -/
def recoveryObj (idx : Nat) : Bool :=
  idx == 0x1001 || decide (0x1010 ≤ idx) && decide (idx ≤ 0x1013) || idx == 0xF001 || idx == 0xF002 ||
    decide (0xF010 ≤ idx) && decide (idx ≤ 0xF012)

/-! ### Persistence (R334) -/

/-- The RWP objects: first index, number of indexes, first and last subindex. -/
def rwpRows : List (Nat × Nat × Nat × Nat) :=
  [(0x1030, 1, 0, 0), (0x1104, 1, 1, 5), (0x1107, 1, 0, 0), (0x1200, 1, 0, 0), (0x2000, 1, 0, 0), (0x2002, 1, 0, 0), (0x2005, 1, 0, 0),
   (0x2041, 1, 0, 0), (0x2302, 1, 0, 0), (0x2304, 1, 1, 32), (0x3080, 64, 0, 0), (0x4280, 1, 0, 0), (0x6000, 1, 1, 64),
   (0x7012, 3, 0, 0), (0x9001, 1, 0, 0), (0x9003, 1, 0, 0), (0x9005, 1, 1, 3)]

/-- Key and default of every RWP value; NOTIFY_FILTER has one for each channel. -/
def rwpKeys : List (Nat × Nat) :=
  (rwpRows.flatMap fun r => (List.range r.2.1).flatMap fun i => (List.range (r.2.2.2 + 1 - r.2.2.1)).map fun j =>
    (objKey (r.1 + i) (r.2.2.1 + j), objDefault (r.1 + i) (r.2.2.1 + j))) ++ (List.range 65).map fun n => (notifyKey n, 2)

def isRwp (key : Nat) : Bool := rwpKeys.any fun k => k.1 == key

/-- UNSAVED; with no saved copy, values are held against their defaults (log 75). -/
def State.unsaved (s : State) : Nat := (rwpKeys.filter fun k => s.dict.values.get k.2 k.1 != s.dict.savedValue k.1 k.2).length

/-! ### Identity, sessions, time and records (15, Table 10; 17, Table 7) -/

def State.chanSum (s : State) (n0 : Bool) (f : ChanSt → Nat) : Nat :=
  if n0 then f (s.chan 0) else ((List.range 64).map fun n => f (s.chan (n + 1))).foldl (satAdd 32) 0

def State.wailestCount (s : State) (sub : Nat) : Nat :=
  let n0 := decide (sub ≤ 6)
  match (sub - 1) % 6 with
  | 0 => s.chanSum n0 (·.performed)
  | 1 => s.chanSum n0 (·.repeats)
  | 2 => s.chanSum n0 (·.errors)
  | 3 => if n0 then s.dict.n0Discards else 0
  | 4 => if n0 then s.dict.n0Broadcasts else 0
  | _ => s.chanSum n0 (·.lost)

def State.memberIdent (s : State) (ch : Channel) (idx sub : Nat) : Member :=
  match idx with
  | 0x1000 => mU16 3
  | 0x1001 => mStr Config.unitSerial
  | 0x1002 => textOr (objKey idx sub) (s.boot.slots.get {} s.boot.running).version
  | 0x1003 => mStr (ascii "VXF-64A")
  | 0x1004 => mU8 3
  | 0x1005 => mU8 2
  | 0x1010 => mBlob (s.chan ch.num).nonce
  | 0x1011 => (mBlob []).as .wo 1
  | 0x1012 => (mBlob []).as .wo 2
  | 0x1013 => mU8 (s.chan ch.num).sessionState
  | 0x1020 => s.action 1 idx sub
  | 0x1021 => s.action 2 idx sub
  | 0x1022 => mU16 s.unsaved
  | 0x1030 => (mU8 (s.obj idx sub)).as .rwp 2
  | 0x1040 => (mU8 (s.notifyFilter ch.num)).as .rwp 1
  | _ => mU32 (s.wailestCount sub)

/-- Store sequence numbers and records that the store holds, oldest first. -/
def Store.held_ (t : Store) : List (Nat × Rec) :=
  let all := t.sectors.values.flatMap fun x => x.slots.filterMap fun
    | .event n r => some (n, r)
    | .state _ _ => none
  all.mergeSort fun a b => decide (a.1 ≤ b.1)

/-- RECORD_PAGE. -/
def Store.page (t : Store) (cursor : Nat) : List Byte :=
  let rs := if t.isVolatile then t.ring else (t.held_.filter fun x => decide (cursor ≤ x.1)).map (·.2)
  (rs.take 1024).flatMap Rec.bytes

def Store.retiredCount (t : Store) : Nat := (t.sectors.values.filter (·.retired)).length
def Store.usable (t : Store) : Nat := 1024 - t.retiredCount

def Store.status (t : Store) (sub : Nat) : Member :=
  let erases := t.sectors.values.map (·.erases)
  match sub with
  | 1 => mU8 (if t.isVolatile then 2 else if t.critical then 1 else 0)
  | 2 => mU16 t.usable
  | 3 => mU16 t.retiredCount
  | 4 => mU32 (t.sectors.values.map (·.tired)).sum
  | 5 => mU32 (erases.foldl Nat.max 0)
  | 6 => mU32 (erases.sum / 1024)
  | 7 => mU64 t.stored
  | 8 => mU32 t.lostTotal
  | 9 => mU64 ((t.held_.map (·.1)).headD t.nextSeq)
  | _ => mU64 t.nextSeq

def State.memberTime (s : State) (idx sub : Nat) : Member :=
  match idx with
  | 0x1100 => mTime s.clock.base
  | 0x1101 => mU8 s.clock.state.code
  | 0x1102 => mI64 s.clock.offset
  | 0x1103 => mU64 s.errorBound
  | 0x1104 => (if sub ≤ 2 then mU8 (s.obj idx sub) else mU32 (s.obj idx sub)).as .rwp 1
  | 0x1105 => match sub with
    | 1 => mU64 s.clock.master
    | 2 => mU16 s.clock.masterPort
    | 3 => mU16 s.clock.steps
    | 4 => mI64 s.clock.pathDelay
    | 5 => mBool s.clock.linkUp
    | _ => mU32 s.clock.syncs
  | 0x1106 => mI32 s.clock.utcOffset
  | 0x1107 => (mU32 (s.obj idx sub)).as .rwp 1
  | 0x1108 => mU64 s.clock.opSeconds
  | 0x1109 => mU32 s.clock.powerCycles
  | 0x1200 => (mU16 (s.obj idx sub)).as .rwp 1
  | 0x1202 => s.recd.store.status sub
  | 0x1203 => (mU64 (s.obj idx sub)).as .rw 1
  | _ => mBlob (s.recd.store.page (s.obj 0x1203 0))

/-! ### Power, air, indicators (19, Table 12; 22, Table 10; 02, Table 12) -/

def supplyFeed (n : Nat) : Nat := n / 3
def State.supply (s : State) (n : Nat) : SupplySt := s.power.supplies.get {} n
/-- Healthy supplies with AC on a feed: supplies 0 to 2 are feed A, 3 to 5 feed B. -/
def State.healthyOn (s : State) (feed : Nat) : Nat :=
  ((List.range 6).filter fun n => supplyFeed n == feed && (s.supply n).state == .healthy).length
/-- Does a supply report AC good? -/
def SupplySt.acGood (x : SupplySt) : Bool := x.state == .healthy || x.state == .failed && x.ac
/-- Does a supply on the feed report AC good (R410)? -/
def State.feedPresent (s : State) (feed : Nat) : Bool :=
  (List.range 6).any fun n => supplyFeed n == feed && (s.supply n).acGood
def State.feedLimit (s : State) (feed : Nat) : Nat := s.obj (if feed = 0 then 0x2002 else 0x2005) 0
def State.feedCapacity (s : State) (feed : Nat) : Nat :=
  if s.feedPresent feed then Nat.min (s.feedLimit feed) (3830 * s.healthyOn feed) else 0
/-- Available power (R410). -/
def State.available (s : State) : Nat := s.feedCapacity 0 + s.feedCapacity 1

/-- FAULT conditions (R473). -/
def State.faultBits (s : State) : Nat :=
  let b (c : Bool) (n : Nat) : Nat := if c then 2 ^ n else 0
  b ((List.range 6).any fun n => (s.supply n).state == .failed) 0 +
  b ((List.range 10).any fun n => (s.power.fans.get {} n).state == .failed) 1 +
  b ((List.range 64).any fun i => (s.isle i).state == .failed) 2 +
  b s.recd.store.isVolatile 3 +
  b ((List.range 128).any fun k => decide ((s.stack k).step = 3)) 4 +
  b (s.power.wafer == .w1 && s.power.cause != .request) 5 +
  b ((List.range 128).any fun p => (s.port p).optic == .down) 6 +
  b (s.boot.recovery || (List.range 2).all fun n => (s.boot.slots.get {} n).state != .valid) 7

/-- INDICATORS (22, Table 7); the lamp test does not show here (log 76). -/
def State.indicators (s : State) (sub : Nat) : Member :=
  let ac := (List.range 6).any fun n => (s.supply n).acGood
  if s.boot.recovery && decide (sub ≠ 3) && decide (sub < 5) then mU8 0 else
  match sub with
  | 1 => mU8 (if s.power.wafer = .w0 then 1 else if s.power.wafer = .w1 then 2 else if ac then 3 else 0)
  | 2 => mU8 (if s.shape.level = 3 then 1 else if s.shape.level = 2 then 3 else if s.shape.level = 1 then 4 else 0)
  | 3 => mU8 (if s.faultBits = 0 then 0 else 3)
  | 4 => mU8 (if s.clock.state = .locked then 1 else if s.timeValid then 2 else 3)
  | _ => mU32 s.faultBits

/-- A temperature of THERMAL_STATUS in 0.01 °C: 1 inlet, 2 exhaust, 3 hottest junction. Readings are free values (log 74). -/
def State.temperature (s : State) (sub : Nat) : Int := toInt 32 (s.sense (objKey 0x2040 sub) % 2 ^ 32)

/-- Commanded fan speed in percent: full with a stack at a thermal step or the inlet at 35 °C, and else what the control of R428 chooses, a
free value (log 74). -/
def State.fanPercent (s : State) : Nat :=
  if ((List.range 128).any fun k => decide (1 ≤ (s.stack k).step)) || decide (3500 ≤ s.temperature 1) then 100
  else s.sense (objKey 0x2030 3) % 101

def State.memberPower (s : State) (idx sub : Nat) : Member :=
  let key := objKey idx sub
  match idx with
  | 0x2000 => (mU8 (s.obj idx sub)).as .rwp 1
  | 0x2001 => mU8 s.shape.level
  | 0x2002 | 0x2005 => (mU32 (s.obj idx sub)).as .rwp 1
  | 0x2003 => mU32 s.shape.shortfall
  | 0x2004 => mU8 s.power.force
  | 0x2006 => match sub with
    | 1 | 2 | 3 => mU32 (s.sense key)
    | 4 => mBool (s.feedPresent 0)
    | 5 => mBool (s.feedPresent 1)
    | 6 => mU32 s.available
    | 7 => mU16 s.power.setMv
    | 8 => mBool s.power.capped
    | _ => mBool s.power.thermalCap
  | 0x2010 => mU32 (s.isle (sub - 1)).pace.now
  | 0x2011 => mU32 s.floor
  | 0x2012 => mU32 (s.isle (sub - 1)).pace.lowWindows
  | 0x2013 => mU32 (s.isle (sub - 1)).pace.minSeen
  | 0x2040 => match sub with
    | 4 => mU8 (s.sense key % 64)
    | _ => mI32 (s.temperature sub)
  | 0x2041 => (mU16 (s.obj idx sub)).as .rwp 1
  | 0x2050 => mU8 s.power.wafer.code
  | 0x2051 => s.action 1 idx sub
  | 0x2060 => (mU16 (s.obj idx sub)).as .rw 1
  | 0x2061 => s.action 1 idx sub
  | 0x2062 => s.indicators sub
  | _ =>
    if idx < 0x2030 then
      let x := s.supply (idx - 0x2020)
      match sub with
      | 1 => mU8 x.state.code
      | 2 => textOr key x.serial
      | 4 => mU16 (s.sense key)
      | _ => mU32 (s.sense key)
    else
      let x := s.power.fans.get {} (idx - 0x2030)
      match sub with
      | 1 => mU8 x.state.code
      | 2 => mU16 (s.sense key)
      | _ => mU8 s.fanPercent

/-! ### Isles, shape, engines, holds (03, 04, 05, 10, 19) -/

/-- HOP_TABLE of an isle; the count to a shore site is that to its edge isle and one more (DEDUCED, log 77). -/
def State.hopTable (s : State) (i : Nat) : List Byte :=
  let t := s.shape.cur
  let hopsTo (j : Nat) : Option Nat := if bit t.mask i && bit t.mask j then (if i = j then some 0 else hops t i j) else none
  let show_ (o : Option Nat) : Byte := BitVec.ofNat 8 (o.getD 255)
  ((List.range 64).map fun j => show_ (hopsTo j)) ++
    (List.range 32).map fun n => show_ (if t.out.contains (shoreSound n) then none else (hopsTo (edgeIsle n)).map (· + 1))

/-- State of an engine as OX_STATUS and LAMB_STATUS show it: one under test shows its value before the test (R339). -/
def EngineState.shown (e : EngineState) : Nat := if e = .disabled then 2 else 0

/-- Is the isle in phase 4 of a repair (R401)? -/
def State.underTest (s : State) (i : Nat) : Bool := (s.repairOf i).phase == 4

def State.coresIn (s : State) (i : Nat) (p : CorePower) : Nat :=
  (List.range 16).foldl (fun m n => if (s.core (i * 16 + n)).power = p then setBit m n else m) 0

/-- Every engine of the isle is idle and every core in nap, doze or off (R418). -/
def State.isleIdle (s : State) (i : Nat) : Bool :=
  s.coresIn i .run == 0 && s.loaded.all fun cp => match (s.ctx cp.1).run with
    | some r => ((List.range cp.2.strands.length).zip cp.2.strands).all fun ns =>
        ns.2.isle != i || (r.strand ns.1).started == (r.strand ns.1).completed
    | none => true

def State.islePowerCode (s : State) (i : Nat) : Nat := match s.power.isle.get .i3 i with
  | .i0 => if s.isleIdle i then 1 else 0
  | .i2 => 2
  | .i3 => 3

def State.memberShape (s : State) (idx sub : Nat) : Member :=
  match idx with
  | 0x2200 => mU32 s.shape.cur.epoch
  | 0x2201 => mU64 Config.licensedShape.toNat
  | 0x2202 => mU64 s.shape.cur.mask
  | 0x2203 => mU8 (s.sound (sub - 1)).state.code
  | 0x2204 => mBlob (s.hopTable (sub - 1))
  | 0x2205 => mU32 (match s.shape.old with
    | some t => t.epoch
    | none => 0)
  | 0x2206 =>
    let x := s.lamb (sub - 1)
    { mBlob (leBytes 1 x.state.shown ++ leBytes 3 0 ++ leBytes 4 x.completed ++ leBytes 4 x.passed ++ leBytes 4 x.skipped) with
      testing := x.state == .testing || s.underTest (sub - 1) }
  | 0x2300 => s.action 1 idx sub
  | 0x2301 => mU8 (s.power.hold.get .unpowered sub).code
  | 0x2302 => (mBool (s.obj idx sub == 1)).as .rwp 1
  | 0x2303 => mU8 (s.islePowerCode (sub - 1))
  | 0x2304 => (mU8 (s.obj idx sub)).as .rwp 1
  | _ =>
    if idx < 0x2280 then
      let i := idx - 0x2240
      let x := s.isle i
      match sub with
      | 1 => mU8 x.state.code
      | 2 => { mU8 x.ox.toNat with testing := s.underTest i }
      | 3 => { mU16 x.bantam.toNat with testing := s.underTest i }
      | 4 => { mU64 x.pc.toNat with testing := s.underTest i }
      | 5 => { mBool x.lamb with testing := s.underTest i }
      | _ => mTime x.changed
    else if idx < 0x22C0 then
      let i := idx - 0x2280
      let x := s.engine (i * 4 + (sub - 1) % 4)
      let m := match (sub - 1) / 4 with
        | 0 => mU8 x.state.shown
        | 1 => mU8 x.spares
        | 2 => mU32 x.corrected
        | 3 => mU32 x.passed
        | 4 => mU32 x.skipped
        | 5 => mU32 x.wraps
        | _ => mU32 x.badClamp
      { m with testing := x.state == .testing || s.underTest i }
    else
      let i := idx - 0x22C0
      let x := s.bant i
      let m := match sub with
        | 1 => mU8 x.housekeeper
        | 2 => mU16 (s.coresIn i .nap)
        | 3 => mU16 (s.coresIn i .doze)
        | 4 => mU16 (s.coresIn i .off)
        | 5 => mU64 x.kernels
        | 6 => mU32 x.exceptions
        | 7 => mU32 x.corrected
        | 8 => mU32 x.uncorrectable
        | _ => mBlob (leBytes 8 x.lastCause.toNat ++ leBytes 8 x.lastEpc.toNat ++ leBytes 8 x.lastAddr.toNat)
      { m with testing := s.underTest i }

/-! ### Memory and pages (06, 07, 09) -/

/-- Listed frames of a target class of an isle. -/
def State.framesOf (s : State) (i cls : Nat) : List Frame := (s.frames.keep fun k _ => k / 2 ^ 19 == i * 3 + cls).values

def State.freeFrames (s : State) (i cls : Nat) : Nat :=
  classLimit cls / 65536 - ((s.framesOf i cls).filter fun f => f.retired || f.count != 0).length

/-- Frames that IMAGE lists of running plans name on an isle. -/
def State.kvFrames (s : State) (i : Nat) : Nat :=
  (s.loaded.flatMap fun cp => match s.activeRun cp.1 with
    | some r => ((List.range cp.2.lists.length).zip cp.2.lists).flatMap fun nl =>
        if nl.2.kind = 1 && nl.2.isle = i then (r.lists.get {} nl.1).values else []
    | none => []).eraseDups.length

def State.memberMem (s : State) (idx sub : Nat) : Member :=
  let i := idx % 64
  if idx < 0x3040 then
    let k := i * 2 + (sub - 1) % 2
    let x := s.stack k
    let m := match (sub + 1) / 2 with
      | 1 => mI32 x.temp
      | 2 => mU8 x.step
      | 3 => mU64 x.corrected
      | 4 => mU32 x.uncorrectable
      | 5 => mU32 x.repaired
      | 6 => mU32 x.marked.length
      | _ => if sub = 13 then mU16 ((s.adder (i * 3)).highWater + (s.adder (i * 3 + 1)).highWater * 256)
             else mU32 (satAdd 32 (s.adder (i * 3)).retries (s.adder (i * 3 + 1)).retries)
    { m with testing := s.underTest i }
  else if idx < 0x3080 then
    let x := s.isleStore i
    let a := s.adder (i * 3 + 2)
    let m := match sub with
      | 1 => mU8 (x.spare.getD 255)
      | 2 => mU8 (x.testing.getD 255)
      | 3 => mU16 x.spareColumns.values.sum
      | 4 => mU16 x.spareRows.values.sum
      | 5 => mU64 x.corrected
      | 6 => mU32 x.uncorrectable
      | 7 => mU32 x.lineFaults
      | 8 => mU16 x.disabledSteps.toNat
      | 9 => mU8 a.highWater
      | 10 => mU32 a.retries
      | _ => mU32 x.rotations
    { m with testing := x.testing.isSome || s.underTest i }
  else if idx < 0x30C0 then (mU8 (s.obj idx 0)).as .rwp 1
  else if idx < 0x3140 then
    let x := s.isle i
    let all := s.framesOf i 0 ++ s.framesOf i 1 ++ s.framesOf i 2
    match sub with
    | 1 | 2 | 3 => mU32 (s.freeFrames i (sub - 1))
    | 4 => mU32 (all.filter fun f => decide (1 < f.count)).length
    | 5 => mU16 x.maxCount
    | 6 => mU64 x.splitCopied
    | 7 => mU64 x.splitKept
    | 8 => mU64 x.forks
    | 9 => mU32 x.nullAccess
    | _ => mU32 (all.filter (·.retired)).length
  else if idx = 0x3140 then
    let b := s.dict.probe
    let f := s.frame ((fieldAt b 0 1 * 3 + fieldAt b 1 1) * 2 ^ 19 + fieldAt b 4 4)
    (mBlob (leBytes 4 (f.count + (if f.retired then 65536 else 0) + (if f.copying then 131072 else 0) + f.job * 2 ^ 24))).as .wo 2
  else
    let x := s.isle i
    match sub with
    | 1 => mU32 x.kvRefused
    | 2 => mU32 x.kvShort
    | 3 => mTime x.kvTime
    | _ => mU32 (s.kvFrames i)

/-! ### Straits (11, 12) -/

/-- An entry of LASER_STATUS: the launch of a lit laser is within 0.3 dB of −5.5 dBm (R230), a free value otherwise. -/
def State.laserEntry (s : State) (p n : Nat) : List Byte :=
  let x := (s.port p).laser n
  let first := initialBias p n
  let head := match x.bias with
    | some b => headroom first b
    | none => 100
  let free := s.sense (objKey (0x4080 + p) n)
  let launch := if x.lit then ofInt 16 ((free % 61 : Nat) - 580) else free
  let lane := if x.state = .carrying then ((s.port p).laneOf n).getD 255 else 255
  leBytes 1 x.state.code ++ leBytes 1 lane ++ leBytes 1 (ofInt 8 head) ++ leBytes 1 0 ++ leBytes 2 first ++
    leBytes 2 (x.bias.getD first) ++ leBytes 2 launch ++ leBytes 2 0 ++ leBytes 4 (x.litSeconds / 3600)

/-- An entry of RING_STATUS: a modulator in a move is on its spare's channel, and its tone with it (R229). -/
def State.ringEntry (s : State) (p n : Nat) : List Byte :=
  let x := (s.port p).ring n
  let q := s.port p
  let c := if n < 32 then (match q.subst with
      | some b => if b.out && b.lane = n then b.spare else q.sends n
      | none => q.sends n) else q.receives (n - 32)
  leBytes 1 x.state.code ++ leBytes 1 c ++ leBytes 1 (20 + c) ++ leBytes 1 0 ++ leBytes 2 (x.shift / 100) ++ leBytes 2 (ofInt 16 x.err)

def State.linkMember (s : State) (p sub : Nat) : Member :=
  let x := s.port p
  match sub with
  | 1 => mU8 x.link.code
  | 2 => textOr (objKey (0x4200 + p) sub) (match x.peer with
    | some q => q.serial
    | none => [])
  | 3 => mU8 x.peerPod
  | 4 => mU8 (match x.peer with
    | some q => q.port.toNat
    | none => 0)
  | 5 => mU8 x.lanes.length
  | 6 => mU64 x.replayed
  | 7 => mU64 x.crcErrors
  | 8 => mU64 x.cwCorrected
  | 9 => mU64 x.cwBad
  | 10 => mU32 x.retrains
  | 11 => mU32 x.resets
  | 12 => mU32 (x.open_.filter fun q => isPosted q.tx.kind).length
  | 13 => mU32 x.naksIn
  | 14 => mU32 x.naksOut
  | _ => mU16 (match x.retrainStart with
    | some t => 500 - s.nsSince t / 1000000
    | none => 0)

def State.memberStrait (s : State) (idx sub : Nat) : Member :=
  if idx < 0x4080 then
    let p := idx - 0x4000
    let x := s.port p
    match sub with
    | 1 => mU8 x.optic.code
    | 2 => mU8 x.lanes.length
    | 3 => mBlob ((List.range 32).map fun l => if x.lanes.contains l then BitVec.ofNat 8 (x.sends l) else 0xFF)
    | 4 => mU8 x.spares.length
    | 5 => mU32 x.losses
    | 6 => mU32 x.substitutions
    | 7 => mU32 x.hops
    | _ => mI32 (s.strait.siteTemp.get 0 (siteOf p))
  else if idx < 0x4100 then mBlob ((List.range 36).flatMap (s.laserEntry (idx - 0x4080)))
  else if idx < 0x4180 then mBlob ((List.range 64).flatMap (s.ringEntry (idx - 0x4100)))
  else if idx < 0x4188 then
    let x := s.cassette (idx - 0x4180)
    match sub with
    | 1 => mBool x.present
    | 2 => textOr (objKey idx sub) x.serial
    | 3 => mU32 x.insertions
    | _ => mTime x.changed
  else if idx = 0x4190 then s.action 1 idx sub
  else if idx = 0x4280 then (mU8 (s.obj idx sub)).as .rwp 1
  else if idx = 0x4290 then mU32 (s.ctx (sub - 1)).postedFailed
  else s.linkMember (idx - 0x4200) sub

/-! ### Bridges and jobs (13, 14) -/

def ShoreLink.code : ShoreLink → Nat
  | .down => 0 | .training => 1 | .up => 2 | .retrying => 3

def State.bridgeMember (s : State) (b sub : Nat) : Member :=
  let x := s.card b
  match sub with
  | 1 => mBool x.present
  | 2 => textOr (objKey (0x5000 + b) sub) (if x.present then x.serial else [])
  | 3 => mU8 x.link.code
  | 4 | 5 | 6 => mU8 (s.sense (objKey (0x5000 + b) sub))
  | 7 => mU32 x.retrains
  | 8 => mU32 x.removals
  | 9 => mU32 (x.stagingFree / 16)
  | _ => mU16 (match x.upSince with
    | some t => if x.link = .retrying then 2000 - s.nsSince t / 1000000 else 0
    | none => 0)

def State.ctxMember (s : State) (c sub : Nat) : Member :=
  let f := s.fn (s.ownerFn c)
  match sub with
  | 1 => mU8 (s.ctx c).state.code
  | 2 => mU8 (s.ctx c).owner
  | 3 => mU64 (match (s.ctx c).plan with
    | some p => p.header.planId
    | none => 0)
  | 4 => mU16 ((f.pend ++ f.holm).filter fun r => r.job == some c).length
  | _ => mU32 (f.dropped.values.foldl (satAdd 32) 0)

def maskOf (l : List Nat) : Nat := l.foldl setBit 0

/-- Loaded contexts whose plan `p` holds of. -/
def State.ctxMask (s : State) (p : Plan → Bool) : Nat := maskOf ((s.loaded.filter fun cp => p cp.2).map (·.1))

/-- ISLE_TENANCY:07. -/
def State.pcOwners (s : State) (i : Nat) : List Byte := (List.range 64).map fun b =>
  match s.loaded.find? fun cp => cp.2.hasPc i b with
  | some cp => BitVec.ofNat 8 cp.1
  | none => if (List.range 64).any fun c => (s.ctx c).clearing.any fun p => p.hasPc i b then 0xFE else 0xFF

def State.memberJob (s : State) (idx sub : Nat) : Member :=
  if idx < 0x5040 then s.bridgeMember (idx - 0x5000) sub
  else if idx < 0x6000 then s.ctxMember (idx - 0x5040) sub
  else if idx = 0x6000 then (mU8 (s.obj idx sub)).as .rwp 1
  else if idx < 0x6080 then
    let a := (s.ctx (idx - 0x6040)).account
    match sub with
    | 1 => mU64 a.runs
    | 2 => mU64 a.waitSum
    | 3 => mU64 a.waitMax
    | 4 => mU32 a.preempt
    | 5 => mU64 a.stints
    | 6 => mU32 a.refusals
    | _ => mU16 a.lastRefusal
  else
    let i := idx - 0x6080
    match sub with
    | 5 => mU64 (s.ctxMask (·.hasLamb i))
    | 6 => mU64 (s.ctxMask (·.usesShared (i * 6 + 5)))
    | 7 => mBlob (s.pcOwners i)
    | 8 => mBlob ((List.range 4).map fun d =>
        BitVec.ofNat 8 (s.loaded.map fun cp => cp.2.portShare (s.tableOf cp.2.header.epoch) (i, d)).sum)
    | _ => mU64 (s.ctxMask (·.hasOx (i * 4 + (sub - 1))))

/-! ### Repair, serial ports, injection, firmware (16, 18, 20, 21) -/

/-- The instances that an isle serves for an activity: stacks, engines, cores, or Sounds under the lower isle they join (log 31). -/
def bgInstances (activity i : Nat) : List Nat :=
  if activity ≤ 3 then [0, 1] else if activity = 7 || activity = 9 then [0, 1, 2, 3] else if activity = 8 then List.range 16
  else if activity = 11 then (List.range 144).filter fun n => Nat.min (soundEnds n).1 (soundEnds n).2 = i else [0]

/-- One entry of BG_ISLE: the activity's cycle over all its instances (R389). -/
def State.bgEntry (s : State) (i activity : Nat) : List Byte :=
  let xs := (bgInstances activity i).map fun n => s.bg.get {} (bgKey activity i n)
  let least (f : BgSt → Nat) : Nat := match xs with
    | [] => 0
    | x :: r => r.foldl (fun m y => Nat.min m (f y)) (f x)
  leBytes 8 (least fun x => x.last.getD 0) ++ leBytes 4 (least (·.cycles)) ++ leBytes 4 ((xs.map (·.interrupted)).foldl (satAdd 32) 0)

def RetestSt.bytes (r : RetestSt) : List Byte :=
  leBytes 1 r.result ++ leBytes 1 r.failing ++ leBytes 2 0 ++ leBytes 8 r.time ++ leBytes 1 r.ox ++ leBytes 1 (if r.lamb then 1 else 0) ++
    leBytes 2 r.bantam ++ leBytes 8 r.pc ++ leBytes 2 r.spareColumns ++ leBytes 1 r.banksRetired ++ leBytes 1 0

def State.memberRepair (s : State) (idx sub : Nat) : Member :=
  match idx with
  | 0x7010 | 0x7016 => s.action 1 idx sub
  | 0x7011 => mU8 (s.repairOf (sub - 1)).phase
  | 0x7012 => (mU32 (s.obj idx sub)).as .rwp 1
  | 0x7013 | 0x7014 => (mBool (s.obj idx sub == 1)).as .rwp 1
  | 0x7015 => mU32 (if s.power.isle.get .i3 (sub - 1) = .i3 then 0 else s.boot.microcode.get 0 (sub - 1))
  | _ => mBlob ((List.range 11).flatMap fun a => s.bgEntry (idx - 0x7040) (a + 1))

def State.memberSerial (s : State) (idx sub : Nat) : Member :=
  match idx with
  | 0x9000 => (mU8 (s.obj idx sub)).as .rw (if sub = 1 then 2 else 1)
  | 0x9001 => (mU8 (s.obj idx sub)).as .rwp 1
  | 0x9002 => mU8 (if sub = 1 then s.nodeAddr.1 else if sub = 2 then s.nodeAddr.2 else s.rack.dip)
  | 0x9003 => (mU32 (s.obj idx sub)).as .rwp 1
  | 0x9004 => mU8 s.rack.termination
  | 0x9005 => (if sub = 1 then mU32 (s.obj idx sub) else if sub = 2 then mU16 (s.obj idx sub) else mU8 (s.obj idx sub)).as .rwp 1
  | _ => mU32 ((s.uart (idx - 0x9010)).counts.get 0 sub)

def PointSt.member (x : PointSt) (sub : Nat) : Member :=
  match sub with
  | 1 => (mBool x.enable).as .rw 2
  | 2 => (mU8 x.target).as .rw 2
  | 3 => (mU16 x.inst).as .rw 2
  | 4 => (mU8 x.dir).as .rw 2
  | 5 => (mU8 x.layer).as .rw 2
  | 6 => (mU8 x.action).as .rw 2
  | 7 => (mU8 x.mode).as .rw 2
  | 8 => (mU32 x.skip).as .rw 2
  | 9 => (mU32 x.amount).as .rw 2
  | 10 => (mBlob (x.flips.flatMap (leBytes 2))).as .rw 2
  | 11 => mU32 x.injected
  | _ => mU32 x.eligible

def State.memberInject (s : State) (idx sub : Nat) : Member :=
  let x := s.inject
  match idx with
  | 0xA000 | 0xA040 | 0xA041 | 0xA042 => s.action 2 idx sub
  | 0xA001 | 0xA043 => (mU32 (s.obj idx sub)).as .rw 2
  | 0xA002 => if sub = 1 then mBool x.armed else if sub = 2 then mTime x.time else mU16 x.chan
  | 0xA044 => match sub with
    | 1 => mU8 x.resTarget
    | 2 => mU16 x.resInst
    | 3 => mU64 x.resBits
    | _ => mU64 x.resErrors
  | _ => (x.points.get {} (idx - 0xA010)).member sub

def State.memberBoot (s : State) (idx sub : Nat) : Member :=
  let x := s.boot
  match idx with
  | 0xF000 => match sub with
    | 1 => mU8 x.running
    | 2 => textOr (objKey idx sub) (x.slots.get {} x.running).version
    | 3 => mBool x.trial.isSome
    | 4 => mU8 x.attempts
    | _ => mU8 x.step
  | 0xF001 | 0xF002 =>
    let y := x.slots.get {} (idx - 0xF001)
    match sub with
    | 1 => mU8 y.state.code
    | 2 => textOr (objKey idx sub) y.version
    | 3 => mU32 y.security
    | 4 => mU32 y.length
    | _ => mBlob (padTo 48 y.digest)
  | 0xF011 => (mBlob []).as .wo 2
  | 0xF015 => mU8 x.secMin
  | 0xF021 => if sub = 1 then mU8 x.resetKind else if sub = 2 then mU8 x.resetCause else mTime x.resetTime
  | 0xF022 => textOr (objKey idx sub) (s.card (sub - 1)).version
  | _ => s.action 2 idx sub

/-! ### The dictionary as a whole -/

def State.member (s : State) (ch : Channel) (idx sub : Nat) : Member :=
  if idx < 0x1100 then s.memberIdent ch idx sub
  else if idx < 0x2000 then s.memberTime idx sub
  else if idx < 0x2200 then s.memberPower idx sub
  else if idx < 0x3000 then s.memberShape idx sub
  else if idx < 0x4000 then s.memberMem idx sub
  else if idx < 0x5000 then s.memberStrait idx sub
  else if idx < 0x7000 then s.memberJob idx sub
  else if idx < 0x9000 then s.memberRepair idx sub
  else if idx < 0xA000 then s.memberSerial idx sub
  else if idx < 0xB000 then s.memberInject idx sub
  else if idx < 0xF000 then mBlob (s.repairOf (idx - 0xB000)).retest.bytes
  else s.memberBoot idx sub

/-- The variable or member that a request names, or NO_OBJECT or NO_SUBINDEX (R314, R318, R448). -/
def State.lookup (s : State) (ch : Channel) (idx sub : Nat) : Except Nat Member :=
  match topSub idx with
  | none => .error 3
  | some n =>
    if s.boot.recovery && !(recoveryObj idx) then .error 3
    else if sub = 0 && n != 0 then .ok (mU8 n)
    else if sub ≤ n then .ok (s.member ch idx sub)
    else .error 4

/-- Does a read of the object return something (R316)? FRAME_PROBE is read once it has been written (06, Table 10). -/
def State.readable (s : State) (idx : Nat) (m : Member) : Bool := m.acc != .wo || idx == 0x3140 && !s.dict.probe.isEmpty

end Sys2Proof.Machine
end

