-- ==== Sys2Proof/Machine/ObjectWrite.lean ====
section
/-! DEFINITION. Writes of objects (15, R316 to R318, R328, R329): the checks of a write, and the effect of a write to an object that has no
row of its own. -/

namespace Sys2Proof.Machine

/-! ### Checks -/

/-- Size of the value that starts a CMD object's action. -/
def cmdSize (idx : Nat) : Nat := if idx = 0x4190 then 2 else if idx = 0xF010 then 4 else 1

/-- Does a value of `n` bytes have the size of the object's type (R328)? -/
def sizeOk (idx : Nat) (m : Member) (n : Nat) : Bool :=
  if m.acc = .cmd then n == cmdSize idx
  else if m.typ = 11 then
    if idx = 0x1011 then n == 32 else if idx = 0x1012 then n == 64 else if idx = 0x3140 then n == 8
    else if idx = 0xF011 then !(beyond n 9 65536) else n == 2 || n == 4 || n == 6
  else n == m.value.length

/-- UART_FORMAT of the console: a legal format of 7 or 8 data bits (R365). -/
def consoleFormatOk (v : Nat) : Bool :=
  (v % 16 == 7 || v % 16 == 8) && decide (bits v 6 4 ≤ 4) && bits v 8 7 != 3 && decide (v < 512)

/-- Is a value inside the range that the object's chapter gives (R328)? Rules that need the state are checked by the write itself. -/
def valueOk (idx sub : Nat) (m : Member) (b : List Byte) : Bool :=
  let v := ofBytes b
  if m.typ = 1 then decide (v ≤ 1)
  else if idx < 0x3000 then match idx with
    | 0x1030 => decide (v ≤ 1)
    | 0x1040 => decide (v ≤ 4)
    | 0x1104 => if sub = 1 then decide (v ≤ 127) else if sub = 2 then decide (v ≤ 1) else true
    | 0x1107 => !(beyond v 1 1000000)
    | 0x1200 => !(beyond v 10 10000)
    | 0x2000 => !(beyond v 1 3)
    | 0x2002 | 0x2005 => !(beyond v 1 11500)
    | 0x2041 => decide (v ≤ 3050)
    | 0x2051 => v == 0 || v == 1 || v == 3
    | 0x2060 => decide (v ≤ 3600)
    | 0x2304 => decide (v ≤ 1)
    | 0x1020 | 0x1021 | 0x2061 | 0x2300 => v == 1
    | _ => true
  else if idx < 0x9000 then
    if 0x3080 ≤ idx && idx < 0x30C0 then decide (v ≤ 16) else match idx with
    | 0x3140 => decide (fieldAt b 0 1 < 64) && decide (fieldAt b 1 1 < 3) && fieldAt b 2 2 == 0 &&
        decide (fieldAt b 4 4 < classLimit (fieldAt b 1 1) / 65536)
    | 0x4280 => decide (v ≤ 63)
    | 0x6000 => decide (v ≤ 3)
    | 0x7010 => !(beyond v 1 3)
    | 0x7012 => !(beyond v 1 86400)
    | 0x7016 => v == 1
    | _ => true
  else match idx with
    | 0x9000 => decide (v ≤ 4)
    | 0x9001 => !(beyond v 1 247)
    | 0x9003 => !(beyond v 300 12000000)
    | 0x9005 => if sub = 1 then !(beyond v 300 12000000) else if sub = 2 then consoleFormatOk v else decide (v ≤ 4)
    | 0xA000 | 0xA041 | 0xA042 | 0xF013 => decide (v ≤ 1)
    | 0xA001 => !(beyond v 1 86400)
    | 0xA040 => decide (v ≤ 2)
    | 0xA043 => !(beyond v 1 3600000)
    | 0xF010 => !(beyond v 512 33554432)
    | 0xF012 | 0xF014 | 0xF016 | 0xF020 => v == 1
    | _ => true

/-- The error code of a refused write, object before access, role, type, range and a running action (R314 to R318, R328, R329). -/
def State.checkWrite (s : State) (ch : Channel) (idx sub : Nat) (b : List Byte) : Option Nat :=
  match s.lookup ch idx sub with
  | .error e => some e
  | .ok m =>
    if m.acc = .ro then some 5
    else if s.role ch < m.role then some 6
    else if !(sizeOk idx m b.length) then some 7
    else if !(valueOk idx sub m b) then some 8
    else if m.acc = .cmd && (s.dict.actions.get {} (objKey idx sub)).state = 1 then some 9
    else none

/-! ### A WRITE request -/

/-- A write that passes the checks, performed. -/
def State.tryWrite (ch : Channel) (idx sub : Nat) (b : List Byte) (act : State → Performed) (s : State) : Performed :=
  match s.checkWrite ch idx sub b with
  | some e => (s, .error e)
  | none => act s

def Performed.ok (p : Performed) : Bool := match p.2 with
  | .ok _ => true
  | .error _ => false

/-- A WRITE request of an object, whose accepted write does `act`; and whether it was performed and accepted. -/
def State.rowWrite (s : State) (req : Req) (idx sub : Nat) (value : List Byte) (act : State → Performed) : State × Bool :=
  (s.serve req 2 idx sub value (State.tryWrite req.ch idx sub value act),
    s.performs req 2 idx sub value && (State.tryWrite req.ch idx sub value act s).ok)

/-! ### Objects without a row of their own -/

/-- ISLE_STORE_SPLIT (R149, R171). -/
def State.writeSplit (s : State) (i n : Nat) : Performed :=
  let cut (p : Plan) : Bool := match p.leaseOn i with
    | some l => l.ways != 0 || bit l.flags 1 && decide (n < l.scratchBase + l.scratchSpan)
    | none => false
  if s.loaded.any fun cp => cut cp.2 then (s, .error 9)
  else ({ s.setObj (0x3080 + i) 0 n with caches := s.caches.drop i }, .ok [])

/-- POD_NUMBER (R275): every link that is not down resets. -/
def State.writePod (s : State) (n : Nat) : Performed :=
  if s.loaded.any fun cp => (s.ctx cp.1).run.any (·.accepted) && !cp.2.windows.isEmpty then (s, .error 9)
  else
    let s := s.setObj 0x4280 0 n
    ((List.range 128).foldl (fun s p => if (s.port p).link = .down then s
      else (s.linkReset p .training).updPort p fun x => { x with renumber := true }) s, .ok [])

/-- Objects whose write is the effect of a row of its own. -/
def ownRow (idx : Nat) : Bool :=
  [0x1011, 0x1012, 0x1020, 0x1021, 0x2000, 0x2002, 0x2005, 0x2051, 0x2060, 0x2061, 0x2300, 0x2304, 0x4190, 0x7010, 0x7016, 0x9000, 0x9003,
    0xA000, 0xA040, 0xA041, 0xA042, 0xF010, 0xF011, 0xF012, 0xF013, 0xF014, 0xF016, 0xF020].contains idx ||
    decide (0xA010 ≤ idx) && decide (idx < 0xA020)

/-- The effect of an accepted write to any other object. -/
def State.writeObject (ch : Channel) (idx sub : Nat) (b : List Byte) (s : State) : Performed :=
  let v := ofBytes b
  if 0x3080 ≤ idx && idx < 0x30C0 then s.writeSplit (idx - 0x3080) v else match idx with
  | 0x1040 => ({ s with dict := { s.dict with values := s.dict.values.put (notifyKey ch.num) v } }, .ok [])
  | 0x3140 => ({ s with dict := { s.dict with probe := b } }, .ok [])
  | 0x4280 => s.writePod v
  | 0x9001 => ((s.setObj idx sub v).nodeChanged s.nodeAddr.1, .ok [])
  | 0x9005 =>
    let s := s.setObj idx sub v
    (if s.uartOwner 1 = 0 then s.holmConfig 1 else s, .ok [])
  | _ => (s.setObj idx sub v, .ok [])

end Sys2Proof.Machine
end

