-- ==== Sys2Proof/Machine/Ox.lean ====
section
/-! DEFINITION. The Ox commands and the engine's patrol and stall (04). -/

namespace Sys2Proof.Machine

/-- R75. -/
def execWload (ctx : Ctx) (e : EngineId) (ops : WloadOps) (s : State) : Host.Outcome State Fault Refusal :=
  if !(wloadValid ops && wloadFits ops) then .refused .operandRefusedAtLoad
  else if !(s.engineRuns ctx.val e.key (.wload ops)) then .next s else
  let z := fmtSize ops.wfmt.toNat
  let rowAt (i : Nat) : Nat := operandAddr e.key (ops.src.toNat + i * ops.srcStride.toNat)
  let rows := List.range ops.rows.toNat
  match rows.findSome? fun i => s.readFault (rowAt i) (128 * z) with
  | some f => .next (s.accessFault ctx.val (srcOx e.key) f noPlace noPlace)
  | none => .next (s.updEngine e.key fun x => { x with
      shadow := ⟨ops.wfmt.toNat, ops.rows.toNat, rows.map fun i => s.readVals (rowAt i) 128 z⟩ })

/-- The tiles after the SWAP of a MATMUL (R76). -/
def EngineSt.swapped (x : EngineSt) (swap : Bool) : EngineSt :=
  if swap then { x with active := x.shadow, shadow := x.active } else x

/-- One input row of a MATMUL (R76). -/
def State.matmulStep (s : State) (c e : Nat) (o : MatmulOps) (t : Tile) (m : MaskEntry) (r : Nat) : State × Bool :=
  let a := operandAddr e (o.inAddr.toNat + r * o.inStride.toNat)
  let k := tileRows o.ifmt.toNat
  let z := fmtSize o.ifmt.toNat
  match s.readFault a (k * z) with
  | some f => (s.accessFault c (srcOx e) f noPlace noPlace, false)
  | none =>
    let (row, wraps) := matmulRow o.ifmt.toNat t m o.acc ((s.engine e).acc.get {} (o.accRow.toNat + r)) (s.readVals a k z)
    (s.updEngine e fun x => { x with acc := x.acc.put (o.accRow.toNat + r) row, wraps := satAdd 32 x.wraps wraps }, true)

/-- The accumulator rows that an ACC = 1 MATMUL adds to hold its accumulator type (R91). -/
def EngineSt.accTyped (x : EngineSt) (o : MatmulOps) : Bool :=
  !o.acc || (List.range o.m.toNat).all fun r => (x.acc.get {} (o.accRow.toNat + r)).isInt == (o.ifmt.toNat == 6)
/-- R76, R71, R91. Tiles and rows of formats that do not go together are refused at load (R71, R91). -/
def execMatmul (ctx : Ctx) (e : EngineId) (ops : MatmulOps) (s : State) : Host.Outcome State Fault Refusal :=
  if !(matmulValid ops && matmulFits ops) then .refused .operandRefusedAtLoad
  else if !(s.engineRuns ctx.val e.key (.matmul ops)) then .next s else
  let x := (s.engine e.key).swapped ops.swap
  if fmtPair ops.ifmt.toNat x.active.fmt && x.accTyped ops then
    .next ((List.range ops.m.toNat).foldl
      (fun sb r => if sb.2 then sb.1.matmulStep ctx.val e.key ops x.active (x.mask ops.mask.toNat) r else sb)
      (s.updEngine e.key fun y => y.swapped ops.swap, true)).1
  else .refused .operandRefusedAtLoad
/-- R77, R84, R89, R91: the rows of a DRAIN, in order. -/
def execDrain (ctx : Ctx) (e : EngineId) (ops : DrainOps) (s : State) : Host.Outcome State Fault Refusal :=
  if !(drainValid ops && drainFits ops && drainInside ops) then .refused .operandRefusedAtLoad
  else if !(s.engineRuns ctx.val e.key (.drain ops)) then .next s else
  let x := s.engine e.key
  let rowsOk := (List.range ops.rows.toNat).all fun r => ops.ofmt.toNat != 7 || (x.acc.get {} (ops.accRow.toNat + r)).isInt
  if !rowsOk then .refused .operandRefusedAtLoad else
  match if drainAux ops then s.readFault (operandAddr e.key (ops.aux.toNat * 64)) 576 else none with
  | some f => .next (s.accessFault ctx.val (srcOx e.key) f noPlace noPlace)
  | none =>
    let aux := s.auxBlock e.key ops
    let s := if ops.func = 0x0B && !(clampGood aux.pa aux.pb) then
        s.updEngine e.key fun x => { x with badClamp := satAdd 32 x.badClamp 1 } else s
    .next ((List.range ops.rows.toNat).foldl (fun sb r =>
      if sb.2 then sb.1.drainRow ctx.val e.key ops aux (x.mask ops.mask.toNat).col r else sb) (s, true)).1

/-- R78. -/
def execAccload (ctx : Ctx) (e : EngineId) (ops : AccloadOps) (s : State) : Host.Outcome State Fault Refusal :=
  if !(accloadValid ops && accloadFits ops) then .refused .operandRefusedAtLoad
  else if !(s.engineRuns ctx.val e.key (.accload ops)) then .next s else
  let z := fmtSize ops.sfmt.toNat
  let rowAt (i : Nat) : Nat := operandAddr e.key (ops.src.toNat + i * ops.srcStride.toNat)
  .next ((List.range ops.rows.toNat).foldl (fun sb i =>
    if !sb.2 then sb else
    match sb.1.readFault (rowAt i) (128 * z) with
    | some f => (sb.1.accessFault ctx.val (srcOx e.key) f noPlace noPlace, false)
    | none =>
      let vals := (sb.1.readVals (rowAt i) 128 z).map fun v => if ops.sfmt.toNat = 2 then v * 65536 else v
      (sb.1.updEngine e.key fun x => { x with acc := x.acc.put (ops.accRow.toNat + i) ⟨ops.sfmt.toNat == 7, vals⟩ }, true)) (s, true)).1

/-- R79. -/
def execMaskset (ctx : Ctx) (e : EngineId) (ops : MasksetOps) (s : State) : Host.Outcome State Fault Refusal :=
  if !(masksetValid ops && masksetFits ops) then .refused .operandRefusedAtLoad
  else if !(s.engineRuns ctx.val e.key (.maskset ops)) then .next s else
  let a := operandAddr e.key ops.src.toNat
  match s.readFault a (32 * ops.count.toNat) with
  | some f => .next (s.accessFault ctx.val (srcOx e.key) f noPlace noPlace)
  | none => .next (s.updEngine e.key fun x => { x with
      masks := (List.range ops.count.toNat).foldl (fun t i =>
        t.put (ops.first.toNat + i) ⟨s.mem.readLe (a + 32 * i) 16, s.mem.readLe (a + 32 * i + 16) 16⟩) x.masks })

/-- Vectors of a full patrol of an Ox engine (R393). -/
def oxVectors : Nat := 2112

/-- The test is abandoned at a vector boundary where a foreground command has reached the engine (R92). -/
def EngineSt.yield (x : EngineSt) (foreground : Bool) : EngineSt :=
  if foreground then { x with state := .healthy, skipped := satAdd 32 x.skipped 1 } else x
/-- The patrol moves past a vector; the test of every vector counts as one passed, and a test that has not ended may be abandoned (R92,
R393). -/
def EngineSt.vectorDone (x : EngineSt) (foreground : Bool) : EngineSt :=
  if x.vector + 1 = oxVectors then { x with vector := 0, passed := satAdd 32 x.passed 1, state := .healthy }
  else { x with vector := x.vector + 1, state := .testing }.yield foreground
/-- What the patrol registers hold after a vector: a test uses no others (R92), and the manual does not give its vectors. Free values,
log 163. -/
def EngineSt.patrolled (x : EngineSt) (e : Nat) : EngineSt :=
  { x with
    patrol := ⟨0, 128, (List.range 128).map fun k => (List.range 128).map fun n => freeLow [2, e, x.vector, k, n]⟩
    patrolAcc := Table.ofList 0 ((List.range 8).map fun r => ⟨false, (List.range 128).map fun n => freeLow [3, e, x.vector, r, n]⟩) }
/-- The counts of the background cycle of a vector: the end of a whole test, or its abandonment (R389, R393). -/
def State.vectorCycle (s : State) (e : EngineId) (last foreground : Bool) : State :=
  if last then s.bgCycle 9 e.isle.val e.engine.val else if foreground then s.bgInterrupt 9 e.isle.val e.engine.val else s

/-- R92, R393; 04, Table 12: one vector, in a BG_WINDOW or on an unheld engine. A second miscompare of one column steers in a spare
column, or disables the engine when none is left. -/
def execOxPatrolVector (e : EngineId) (miscompare : Option (Fin 132)) (foreground : Bool) (s : State) :
    Host.Outcome State Fault Refusal :=
  let k := e.key
  let x := s.engine k
  if x.state = .disabled || !(s.inWindow (windowKey e.isle.val 1 e.engine.val) || s.oxUnheld k) then .next s else
  let s := s.updEngine k (·.patrolled k)
  let last := x.vector + 1 == oxVectors
  match miscompare with
  | none => .next ((s.updEngine k (·.vectorDone foreground)).vectorCycle e last foreground)
  | some col =>
    let s := s.emit 0xB10 2 (srcOx k) none [e.isle.val, e.engine.val, col.val, x.vector]
    if x.suspect = some col.val then
      if x.spares < 4 then
        let s := s.emit 0xB11 1 (srcOx k) none [e.isle.val, e.engine.val, col.val, x.spares]
        let s := s.updEngine k fun x => { x.vectorDone foreground with spares := x.spares + 1, suspect := none }
        .next (s.vectorCycle e last foreground)
      else .next (s.disableOx k 0xB10)
    else .next ((s.updEngine k fun x => { x with suspect := some col.val, state := .healthy }.yield foreground).vectorCycle e false foreground)

/-- R93; 04, Table 12: the job halts and the engine is disabled. -/
def execOxStall (e : EngineId) (opcode : Byte) (s : State) : Host.Outcome State Fault Refusal :=
  match s.inFlightOn e.isle.val 1 e.engine.val fun c => c.opcode == opcode.toNat with
  | none => .next s
  | some c =>
    let s := (s.emit 0x241 3 (srcOx e.key) (some c) [e.isle.val, e.engine.val, opcode.toNat, c]).haltJob c 0x241
    .next (s.disableOx e.key 0x241)

end Sys2Proof.Machine
end

