-- ==== Sys2Proof/Machine/Weave.lean ====
section
/-! DEFINITION. Weaving and clearing (14): grants of shared engines, and the clearing of returned leases. -/

namespace Sys2Proof.Machine

/-! ### Grants (R306, R309, R312) -/

def sharedUnit (e : SharedEngine) : Nat := e.isle.val * 6 + e.unit.val

/-- CTX_PRIORITY (R308). -/
def State.priority (s : State) (c : Nat) : Nat := s.obj 0x6000 (c + 1)

/-- Does stint `a` come before stint `b` (R306 step 3)? -/
def State.before (s : State) (a b : ReadyStint) : Bool :=
  let x := s.priority a.ctx.val
  let y := s.priority b.ctx.val
  decide (x < y) || x == y && (decide (a.since < b.since) || a.since == b.since && decide (a.ctx.val < b.ctx.val))

/-- The stint that R306 grants, and the served bits after it; `ready` is not empty. -/
def State.choose (s : State) (g : GrantSt) (ready : List ReadyStint) : Option (ReadyStint × BitVec 64) :=
  let mine := ready.filter fun r => g.holder == some r.ctx.val
  if ready.all (fun r => g.holder == some r.ctx.val) then mine.head?.map (·, g.served)
  else
    let unserved (m : BitVec 64) : List ReadyStint := ready.filter fun r => !(bit m.toNat r.ctx.val)
    let served := if (unserved g.served).isEmpty then 0 else g.served
    let best := (unserved served).foldl (fun (o : Option ReadyStint) r => match o with
      | some b => if s.before r b then some r else o
      | none => some r) none
    best.map fun r => (r, served ||| BitVec.ofNat 64 (2 ^ r.ctx.val))

/-- Is a stint of the context ready on the shared engine: its first command is at the head of its strand and its wait is met (R305)? -/
def State.stintReady (s : State) (k c : Nat) : Bool := match s.activeRun c, (s.ctx c).plan with
  | some r, some p => ((List.range p.strands.length).zip p.strands).any fun ns =>
      let n := (r.strand ns.1).started
      (ns.2.cmds[n]?).any fun cmd => (ns.2.stintKeys n cmd).contains k && s.waitMet ns.2 cmd
  | _, _ => false

/-- Has the running stint of the engine commands that have not started (R306)? -/
def State.midStint (s : State) (k : Nat) : Bool := s.loaded.any fun cp => match s.activeRun cp.1 with
  | some r => ((List.range cp.2.strands.length).zip cp.2.strands).any fun ns =>
      let n := (r.strand ns.1).started
      sharedKey ns.2 == some k && decide (n < ns.2.cmds.length) && !(ns.2.begins n)
  | none => false

/-- Is a stint granted that has not started yet? -/
def State.grantDue (s : State) (k : Nat) : Bool := match (s.grant k).holder with
  | some h => (s.activeRun h).any fun r => (s.grant k).due == some r.number
  | none => false

/-- R306, at a stint boundary or on the idle engine. A halted job is never granted and counts no pre-emption (R313). -/
def execStintGrant (e : SharedEngine) (ready : List ReadyStint) (s : State) : Host.Outcome State Fault Refusal :=
  let k := sharedUnit e
  let g := s.grant k
  let ready := ready.filter fun r => s.stintReady k r.ctx.val
  if s.midStint k || s.grantDue k then .next s else
  match s.choose g ready with
  | none => .next s
  | some (r, served) =>
    let c := r.ctx.val
    let wait := if g.holder.isSome && g.holder != some c then s.clock.base - r.since else 0
    let s := { s with grants := s.grants.put k ⟨served, some c, (s.activeRun c).map Run.number⟩ }
    let s := s.updRun c fun x => { x with waitSum := x.waitSum + wait, waitMax := Nat.max x.waitMax wait }
    let s := s.updCtx c fun x => { x with account := { x.account with stints := satAdd 64 x.account.stints 1 } }
    match g.holder with
    | some h =>
      if h ≠ c && ready.any (fun q => q.ctx.val == h) then .next (s.updRun h fun x => { x with preempt := x.preempt + 1 }) else .next s
    | none => .next s

/-! ### Clearing (R310, R311) -/

/-- Is an address part of what a returned lease clears? -/
def Plan.clears (p : Plan) (foot : List Nat) (a : Nat) : Bool :=
  if classOf a < 3 then p.hasMem a
  else if classOf a = 3 then foot.contains (isleOf a * 128 + offOf a / 65536)
  else if classOf a = 4 then
    let o := offOf a % 2 ^ 18
    p.hasCore (isleOf a * 16 + offOf a / 2 ^ 18) && (decide (0x1000 ≤ o) && decide (o < 0x3F000))
  else false

/-- A disabled step of an isle store (R168): it leaves the map, and jobs leasing it halt. -/
def State.disableStep (s : State) (i step : Nat) : State :=
  let s := s.updIsleStore i fun x => { x with disabledSteps := x.disabledSteps ||| BitVec.ofNat 16 (2 ^ step) }
  let s := s.emit 0x326 3 (srcIn i 7 0) none [i, step]
  let split := s.obj (0x3080 + i) 0
  (s.haltWhere 0x326 fun _ p => p.hasStep i step || decide (split ≤ step) && (match p.leaseOn i with
    | some l => l.ways != 0
    | none => false)).refresh

/-- A resource whose clearing failed leaves service (R311). -/
def State.clearFailed (s : State) (f : ClearFailure) : State :=
  let i := f.isle.val
  let s := s.emit 0x654 3 (srcIn i 1 0) none [i, f.kind.val, f.index]
  match f.kind.val with
  | 1 => (s.updIsle i fun x => { x with pc := BitVec.ofNat 64 (clearBit x.pc.toNat (f.index % 64)) }).countDisable i (64 + f.index % 64)
  | 2 => s.isleFault i 7
  | 3 => s.disableStep i (f.index % 16)
  | 4 => s.isleFault i 1
  | 5 => s.disableCore (i * 16 + f.index % 16) 0x654
  | 6 => s.disableOx (i * 4 + f.index / 32 % 4) 0x654
  | _ => s

/-- R310, R311: the resources of a returned lease are zero, and LOADs that waited go on. -/
def execLeaseClearDone (ctx : Ctx) (failed : List ClearFailure) (s : State) : Host.Outcome State Fault Refusal :=
  match (s.ctx ctx.val).clearing with
  | [] => .next s
  | p :: rest =>
    let foot := p.footprint
    let s := s.updCtx ctx.val fun x => { x with clearing := rest }
    let s := { s with
      mem := s.mem.clearIf (p.clears foot)
      bad := s.bad.keep fun a _ => !(p.clears foot a)
      tokens := s.tokens.keep fun k _ => !(p.hasToken (k / 4096) (k % 4096)) }
    .next ((failed.foldl State.clearFailed s).refresh.retryLoads)

end Sys2Proof.Machine
end

