-- ==== Sys2Proof/Machine/RepairOps.lean ====
section
/-! DEFINITION. What the commands of live repair, start-up and the power states share (18, 19, 20): forced unloads, power-on of an
isle, the outcome of its tests, held boundaries. -/

namespace Sys2Proof.Machine

/-! ### Forced unloads (R400, R425, R440) -/

/-- A job halts with a code; a plan that no accepted run holds is unloaded at once, and its UNLOAD_COMPLETE carries the code. A launch
that was waiting is refused with it. -/
def State.forceUnload (s : State) (c code : Nat) : State :=
  match (s.ctx c).plan with
  | none => s
  | some p => match (s.ctx c).run with
    | some r =>
      if r.accepted then s.haltJob c code
      else ((s.refuseLaunch c code []).completion c 0x522 code false false false 0 p.header.planId 0 [] s.clock.base).returnLease c
    | none => (s.completion c 0x522 code false false false 0 p.header.planId 0 [] s.clock.base).returnLease c

def State.forceUnloads (s : State) (code : Nat) (p : Nat → Plan → Bool) : State :=
  s.loaded.foldl (fun s cp => if p cp.1 cp.2 then s.forceUnload cp.1 code else s) s

/-! ### Power-on and tests of an isle (R401, R402, R437) -/

/-- HBM pin rate of a profile in 0.1 Gb/s (R414). -/
def pinRate (profile : Nat) : Nat := if profile = 1 then 64 else 80

/-- The pace monitors of an isle start: the first window opens, and PACE_NOW reads 0 until it has closed (R23). -/
def PaceSt.start (p : PaceSt) : PaceSt := { p with now := 0, window := 0 }
def State.startPace (s : State) (i : Nat) : State := s.updIsle i fun x => { x with pace := x.pace.start }

/-- An isle is powered on from I3, its boundary held. Its reset starts PACE_MIN_SEEN afresh (20, Table 7). -/
def State.powerOnIsle (s : State) (i : Nat) (st : IsleState) : State :=
  let s := ((s.startPace i).updIsle i fun x => { x with pace := { x.pace with minSeen := 0xFFFFFFFF } }).setIsle i st
  { s with power := { s.power with
      isle := s.power.isle.put i .i0
      hold := s.power.hold.put (holdIsle i) .held
      ready := s.power.ready.put (holdIsle i) false } }

/-- Version of the isle microcode in force (R405). -/
def State.microcodeInForce (s : State) : Nat := Config.microcodeVersion (s.boot.slots.get {} s.boot.running).version

/-- Part `k` of an isle passed, is not out since manufacture and was not disabled in service twice (R64, R402). -/
def RepairSt.stays (r : RepairSt) (k : Nat) : Bool := !(r.fused.contains k) && decide (r.disables.get 0 k < 2)

/-- Bits of `m` that passed and whose parts stay (R402). -/
def RepairSt.keep (r : RepairSt) (base n m : Nat) : Nat :=
  (List.range n).foldl (fun a k => if bit m k && r.stays (base + k) then setBit a k else a) 0

/-- A bank that fails the pattern test (R168): the spare takes its place, or its step is disabled. -/
def State.failBank (s : State) (i b : Nat) : State :=
  let x := s.isleStore i
  if x.retiredBanks.contains b then s else
  match x.spare with
  | some sp => (s.updIsleStore i fun x => if b = sp then x else x.replace b sp).retireBank i b
  | none => match (List.range 32).find? fun l => x.place.get l l == b with
    | some l => s.disableStep i (l / 2)
    | none => s

/-- A stack trains at the bring-up or wake of its isle (R150). One in thermal protection stays there, out of the healthy mask, until its
return (R163). -/
def State.bringStack (s : State) (k : Nat) (protect : Bool) (pcs : BitVec 32) (failed : Bool) : State :=
  if protect then (s.updStack k fun x => { x with trained := true, selfRefresh := true }).updIsle (k / 2) fun x => x.setStackPcs (k % 2) 0
  else (s.trainStack k (BitVec.allOnes 32 ^^^ pcs) failed).updStack k fun x => { x with rate := pinRate s.power.force, rateDue := none }
/-- The tests of an isle have ended (18, Table 7): its memory holds zeros, its stacks are trained, and what passed is healthy. -/
def State.takeOutcome (s : State) (i : Nat) (o : RetestOutcome) : State :=
  let protect (n : Nat) : Bool := (s.stack (i * 2 + n)).selfRefresh && decide ((s.stack (i * 2 + n)).step = 3)
  let s := s.clearIsle i
  let r := s.repairOf i
  let pc := r.keep 64 64 o.pc.toNat
  let s := (List.range 2).foldl (fun s n => s.bringStack (i * 2 + n) (protect n) (BitVec.ofNat 32 (bits pc (n * 32 + 31) (n * 32)))
    (bit o.stacksFailed.toNat n)) s
  let ox := r.keep 0 4 o.ox.toNat
  let bantam := r.keep 16 16 o.bantam.toNat
  let lamb := o.lamb && r.stays 4
  let s := s.updIsle i fun x => { x with ox := BitVec.ofNat 4 ox, bantam := BitVec.ofNat 16 bantam, lamb := lamb }
  let s := (List.range 4).foldl (fun s n => s.updEngine (i * 4 + n) fun e => { e with
    state := if bit ox n then .healthy else .disabled, suspect := none, vector := 0 }) s
  let s := s.updLamb i fun l => { l with state := if lamb then .healthy else .disabled, suspect := none, vector := 0 }
  let s := (List.range 16).foldl (fun s n => s.updCore (i * 16 + n) fun x => { resetCore x with disabled := !(bit bantam n) }) s
  let s := s.moveHousekeeper i ((housekeeperOf bantam).getD 15)
  let s := s.updIsleStore i fun x => { x with migrating := none, testing := none, scrubRows := {} }
  (o.banksRetired.map (·.val)).foldl (fun s b => s.failBank i b) s

/-- The row of 18, Table 7 that fails the isle, 0 where it passes (R402). -/
def State.failingRow (s : State) (i : Nat) (o : RetestOutcome) : Nat :=
  let x := s.isle i
  if o.failingTest.val = 1 || o.failingTest.val = 2 then o.failingTest.val
  else if isleServes x then 0
  else if x.ox = 0 then 5
  else if popcount 16 x.bantam.toNat < 2 then 6
  else 3

/-! ### Held boundaries (R422) -/

def State.setHold (s : State) (sub : Nat) (h : HoldState) (ready : Bool) : State :=
  { s with power := { s.power with hold := s.power.hold.put sub h, ready := s.power.ready.put sub ready } }

def State.holdOf (s : State) (sub : Nat) : HoldState := s.power.hold.get .unpowered sub

def holdSrc (sub : Nat) : Source := if sub ≤ 64 then srcIn (sub - 1) 1 0 else srcBoard

/-- A boundary is released, by the host (0) or the Holm (1): requests held at an isle's local port go on (R420), a site's links come
up (R423), and a retested isle goes to phase 6 (R403). -/
def State.release (s : State) (sub by_ : Nat) : State :=
  let s := (s.setHold sub .released true).emit 0x121 0 (holdSrc sub) none [sub, by_]
  if 64 < sub then
    (List.range 4).foldl (fun s n =>
      let p := (sub - 0x41) * 4 + n
      if (s.port p).link = .down then s.updPort p fun x => { x with link := .training } else s) s
  else if (s.repairOf (sub - 1)).phase = 5 then
    (s.updRepair (sub - 1) fun r => { r with phase := 6, soundsPassed := false }).setAction 0x2300 sub 1 0
  else s.retryLoads

/-- A write of HOLD_RELEASE (R422). -/
def State.holdReleaseOp (sub by_ : Nat) (s : State) : Performed :=
  match s.holdOf sub with
  | .released => (s.actionDone 0x2300 sub, .ok [])
  | .held => if s.power.ready.get false sub then ((s.actionDone 0x2300 sub).release sub by_, .ok []) else (s, .error 8)
  | .unpowered => (s, .error 8)

end Sys2Proof.Machine
end

