-- ==== Sys2Proof/Machine/Repair.lean ====
section
/-! DEFINITION. Background work and live repair (18). -/

namespace Sys2Proof.Machine

/-! ### Background activities -/

/-- Age in seconds past which an activity is overdue (18, Table 1); activities without one are never overdue. -/
def overdueAfter : Nat → Option Nat
  | 1 => some 600 | 3 => some 345600 | 5 => some 100 | 12 => some 60
  | 6 => some 86400 | 7 => some 86400 | 8 => some 86400 | 9 => some 86400 | 10 => some 86400 | 11 => some 86400 | 13 => some 86400
  | _ => none

/-- R389. -/
def execBackgroundOverdue (activity : Fin 17) (isle inst : Byte) (ageSeconds : Nat) (s : State) : Host.Outcome State Fault Refusal :=
  let (a, i, n) := (activity.val, isle.toNat, inst.toNat)
  match overdueAfter a with
  | none => .next s
  | some limit =>
    let k := bgKey a i n
    if ageSeconds ≤ limit || (s.bg.get {} k).overdue then .next s else
    .next ({ s with bg := s.bg.upd {} k fun b => { b with overdue := true } }.emit 0x710 2 (if i = 0xFF then srcPort n else srcIn i 1 0)
      none [a, i, n, ageSeconds])

/-- Both routers of a Sound are powered; a shore Sound has one. -/
def State.soundPowered (s : State) (n : Nat) : Bool :=
  let on (e : Nat) : Bool := if e < 64 then s.power.isle.get .i3 e != .i3 else s.siteOn (e - 64)
  on (soundEnds n).1 && on (soundEnds n).2

/-- R394. A spare lane that was steered in is tested no more. -/
def execSoundSpareLaneTest (sound : SoundId) (failed : List Nat) (s : State) : Host.Outcome State Fault Refusal :=
  let n := sound.val
  if !(s.soundPowered n) then .next s else
  let bad := failed.filter fun l => !((s.sound n).spareFailed.contains l) && !((s.sound n).steered.any (·.2 == l))
  let s := bad.foldl (fun s l =>
    (s.updSound n fun x => { x with spareFailed := addNew x.spareFailed l }).emit 0xB20 2 (srcIn 0xFF 8 n) none [n, l]) s
  .next (s.bgCycle 11 (Nat.min (soundEnds n).1 (soundEnds n).2) n)

/-- Spare rows of a bank that are neither used nor failed. -/
def StackSt.sparesLeft (x : StackSt) (bank : Nat) : Nat := Config.hbmSpareRows - x.sparesUsed.get 0 bank - x.sparesFailed.get 0 bank

/-- Spare rows left in the poorest bank. -/
def StackSt.poorest (x : StackSt) : Nat :=
  (x.sparesUsed.keys ++ x.sparesFailed.keys).foldl (fun m b => Nat.min m (x.sparesLeft b)) Config.hbmSpareRows

/-- HBM_REPAIR_LOW, once for a stack, below 25 % of the spare rows present at manufacture (R395). -/
def State.checkSpareRows (s : State) (k : Nat) : State :=
  let left := (s.stack k).poorest
  if left * 4 < Config.hbmSpareRows && !(s.stack k).repairLow then
    (s.updStack k fun x => { x with repairLow := true }).emit 0xB21 2 (srcStack k) none [k / 2, k % 2, left]
  else s

/-- R395: the spare rows of one bank; banks are tested in turn, and a cycle is complete when the turn comes round. -/
def execHbmSpareRowTest (k : StackId) (bank failed : Nat) (s : State) : Host.Outcome State Fault Refusal :=
  let x := s.stack k.key
  if !x.serves then .next s else
  let round := match x.spareBank with
    | some b => decide (bank ≤ b)
    | none => false
  let s := s.updStack k.key fun x => { x with
    spareBank := some bank
    sparesFailed := x.sparesFailed.upd 0 bank (· + Nat.min failed (x.sparesLeft bank)) }
  let s := if round then s.bgCycle 3 k.isle.val k.stack.val else s
  .next (s.checkSpareRows k.key)

/-! ### Drain (R398 to R400; 18, Table 6) -/

/-- DRAIN. A SERVING isle leaves the shape in a planned change; an isle in phase 5 or 6 is outside it. -/
def State.drainOp (i : Nat) (s : State) : Performed :=
  let phase := (s.repairOf i).phase
  let begin_ (p : Nat) : State :=
    ((s.updRepair i fun r => { r with phase := p, forced := false, soundsPassed := false }).setAction 0x7010 (i + 1) 1 0).emit
      0x700 1 (srcIn i 1 0) none [i, s.obj 0x7012 0]
  if (s.isle i).state = .serving && phase = 0 then ((begin_ 1).plannedChange (.drain i), .ok [])
  else if phase = 5 || phase = 6 then ((begin_ 2).setIsle i .draining, .ok [])
  else (s, .error 8)

def execIsleDrain (req : Req) (isle : Isle) (s : State) : Host.Outcome State Fault Refusal :=
  .next (s.rowWrite req 0x7010 (isle.val + 1) [1] (State.drainOp isle.val)).1

/-- Nothing holds the drain of an isle any more (R400). -/
def State.drainDone (s : State) (i : Nat) : Bool :=
  (s.repairOf i).phase == 2 && !(s.loaded.any fun cp => cp.2.names i) && s.olderRun.isNone

/-- Step 6 of a drain: the boundary is held, the isle is off, phase 3. -/
def State.finishDrain (s : State) (i : Nat) : State :=
  let forced := (s.repairOf i).forced
  let s := (s.powerOffIsle i).setIsle i .off
  let s := (s.updRepair i fun r => { r with phase := 3, forced := false, soundsPassed := false }).setAction 0x7010 (i + 1) 2 (if forced then 2 else 0)
  let s := if s.running 0x2300 (i + 1) then s.setAction 0x2300 (i + 1) 3 5 else s
  (s.emit 0x701 1 (srcIn i 1 0) none [i, s.shape.cur.epoch, if forced then 1 else 0]).refresh

/-- R400. -/
def execIsleDrainComplete (isle : Isle) (s : State) : Host.Outcome State Fault Refusal :=
  .next (if s.drainDone isle.val then s.finishDrain isle.val else s)

/-- R400: the drain is forced; it ends once the halted runs have ended. -/
def State.forceDrain (s : State) (i : Nat) : State :=
  let hit (cp : Nat × Plan) : Bool := cp.2.names i || cp.2.header.epoch != s.shape.cur.epoch && (s.activeRun cp.1).isSome
  let hits := s.loaded.filter hit
  let s := s.updRepair i fun r => { r with forced := true }
  hits.foldl (fun s cp =>
    let s := if (s.activeRun cp.1).isSome then s.emit 0x702 2 (srcIn i 1 0) none [i, cp.1, cp.2.header.planId] else s
    s.forceUnload cp.1 0x702) s

/-- R400, R406. -/
def execDrainTimeoutExpiry (isle : Isle) (s : State) : Host.Outcome State Fault Refusal :=
  let i := isle.val
  let phase := (s.repairOf i).phase
  if s.drainDone i then .next (s.finishDrain i)
  else if phase = 1 || phase = 2 then
    let s := s.forceDrain i
    .next (if s.drainDone i then s.finishDrain i else s)
  else .next s

/-- ISLE_SERVICE_ABORT (R398). -/
def State.abortOp (i : Nat) (s : State) : Performed :=
  if (s.repairOf i).phase ≠ 1 then (s, .error 8) else
  let s := { s with shape := { s.shape with waiting := s.shape.waiting.filter (· != ShapeChange.drain i) } }
  let s := s.updRepair i fun r => { r with phase := 0, forced := false }
  ((s.setAction 0x7010 (i + 1) 3 1).actionDone 0x7016 (i + 1), .ok [])

def execIsleServiceAbort (req : Req) (isle : Isle) (value : List Byte) (s : State) : Host.Outcome State Fault Refusal :=
  .next (s.rowWrite req 0x7016 (isle.val + 1) value (State.abortOp isle.val)).1

/-! ### Retest (R401, R402, R405) -/

/-- RETEST: the isle is powered on with its boundary held; it takes the microcode image in force now (R406). -/
def State.retestOp (i : Nat) (s : State) : Performed :=
  if s.power.wafer = .w0 && ((s.repairOf i).phase == 3 || (s.isle i).state == .failed) then
    let s := s.updRepair i fun r => { r with phase := 4, soundsPassed := false, image := s.microcodeInForce }
    ((s.powerOnIsle i .testing).setAction 0x7010 (i + 1) 1 0, .ok [])
  else (s, .error 8)

def execIsleRetest (req : Req) (isle : Isle) (s : State) : Host.Outcome State Fault Refusal :=
  .next (s.rowWrite req 0x7010 (isle.val + 1) [2] (State.retestOp isle.val)).1

/-- RETEST_RESULT after a retest: 1 passed, 2 reduced, 3 failed. -/
def State.retestResult (s : State) (i result failing : Nat) (o : RetestOutcome) : RetestSt :=
  let x := s.isle i
  { result := result, failing := failing, time := s.clock.base, ox := x.ox.toNat, lamb := x.lamb, bantam := x.bantam.toNat,
    pc := x.pc.toNat, spareColumns := o.spareColumns, banksRetired := o.banksRetired.length }

/-- The isle runs the image in force; where its digest fails, the previous one, with ISLE_MICROCODE_FAILED (R405). -/
def State.loadMicrocode (s : State) (i image : Nat) (ok : Bool) : State :=
  if ok then { s with boot := { s.boot with microcode := s.boot.microcode.put i image } }
  else s.emit 0x707 3 (srcIn i 1 0) none [i, image, s.boot.microcode.get 0 i]

/-- A failed retest: the isle is off and FAILED. -/
def State.failRetest (s : State) (i row : Nat) : State :=
  let s := (s.setAction 0x7010 (i + 1) 3 (if row = 1 then 6 else 3)).enterFailed i
  (s.powerOffIsle i).emit 0x705 3 (srcIn i 1 0) none [i, row]

/-- R402. With AUTO_REJOIN the Holm releases the boundary itself (R404). -/
def execIsleRetestComplete (isle : Isle) (o : RetestOutcome) (s : State) : Host.Outcome State Fault Refusal :=
  let i := isle.val
  if (s.repairOf i).phase ≠ 4 then .next s else
  let s := (s.loadMicrocode i (s.repairOf i).image o.microcodeOk).takeOutcome i o
  let row := s.failingRow i o
  let result := if row ≠ 0 then 3 else if isleWhole s i then 1 else 2
  let s := s.updRepair i fun r => { r with retest := s.retestResult i result row o }
  if row ≠ 0 then .next (s.failRetest i row) else
  let x := s.isle i
  let s := if result = 1 then s.emit 0x703 1 (srcIn i 1 0) none [i, s.boot.microcode.get 0 i]
    else s.emit 0x704 2 (srcIn i 1 0) none [i, x.ox.toNat, x.bantam.toNat, x.pc.toNat]
  let s := (s.updRepair i fun r => { r with phase := 5 }).setHold (holdIsle i) .held true
  let s := if o.microcodeOk then s.setAction 0x7010 (i + 1) 2 0 else s.setAction 0x7010 (i + 1) 3 6
  .next (if s.obj 0x7014 0 = 1 then s.release (holdIsle i) 1 else s)

/-! ### Release and rejoin (R403, R422) -/

/-- R422. -/
def execHoldRelease (req : Req) (sub : Byte) (value : List Byte) (s : State) : Host.Outcome State Fault Refusal :=
  .next (s.rowWrite req 0x2300 sub.toNat value (State.holdReleaseOp sub.toNat 0)).1

/-- REJOIN: phase 7, and the planned change of the shape. -/
def State.rejoinOp (i : Nat) (s : State) : Performed :=
  let r := s.repairOf i
  if r.phase = 6 && r.soundsPassed then
    (((s.updRepair i fun r => { r with phase := 7 }).setAction 0x7010 (i + 1) 1 0).plannedChange (.rejoin i), .ok [])
  else (s, .error 8)

/-- Sounds that join an isle to in-shape neighbours and its shore sites (R403). -/
def State.rejoinSounds (s : State) (i : Nat) : List Nat :=
  ((neighbours i).filter (bit s.shape.cur.mask)).map (soundBetween i) ++
    ((List.range 32).filter fun n => edgeIsle n == i).map shoreSound

/-- R403, R404. -/
def execSoundTestComplete (isle : Isle) (failed : List SoundId) (s : State) : Host.Outcome State Fault Refusal :=
  let i := isle.val
  if (s.repairOf i).phase ≠ 6 || (s.repairOf i).soundsPassed then .next s else
  let bad := (failed.map (·.val)).filter fun n => (s.rejoinSounds i).contains n
  let s := bad.foldl (fun s n => s.updSound n fun x => { x with state := .out }) s
  if s.canJoin i s.outSounds then
    let s := (s.updRepair i fun r => { r with soundsPassed := true }).actionDone 0x2300 (i + 1)
    .next (if s.obj 0x7014 0 = 1 then (State.rejoinOp i s).1 else s)
  else
    let s := (s.updRepair i fun r => { r with phase := 5 }).setHold (holdIsle i) .held true
    .next ((s.setAction 0x2300 (i + 1) 3 4).setAction 0x7010 (i + 1) 3 4)

def execIsleRejoin (req : Req) (isle : Isle) (s : State) : Host.Outcome State Fault Refusal :=
  .next (s.rowWrite req 0x7010 (isle.val + 1) [3] (State.rejoinOp isle.val)).1

/-- R403: the Holm drains an isle that was left in phase 5 or 6. -/
def execRejoinIdleTimeout (isle : Isle) (s : State) : Host.Outcome State Fault Refusal :=
  let i := isle.val
  if (s.repairOf i).phase = 5 || (s.repairOf i).phase = 6 then .next (((State.drainOp i s).1).finishDrain i) else .next s

/-- R404: once for each entry into FAILED, and not after a second entry within 24 h. -/
def execAutoRetest (isle : Isle) (s : State) : Host.Outcome State Fault Refusal :=
  let i := isle.val
  let r := s.repairOf i
  let again := match r.failedBefore, r.failedAt with
    | some a, some b => decide (b - a < 86400000000000)
    | _, _ => false
  if (s.isle i).state = .failed && s.obj 0x7013 0 = 1 && !r.autoDone && !again then
    .next (State.retestOp i (s.updRepair i fun r => { r with autoDone := true })).1
  else .next s

end Sys2Proof.Machine
end

