-- ==== Sys2Proof/Machine/StoreOps.lean ====
section
/-! DEFINITION. The record store (17, R379 to R384): what it stores next, wear, reclaim, volatile fallback. -/

namespace Sys2Proof.Machine

/-- Sequence number of the newest state record of a kind. -/
def Store.newest (t : Store) (kind : Nat) : Nat :=
  (t.sectors.values.flatMap (·.slots)).foldl (fun m x => match x with
    | .state n k => if k = kind then Nat.max m n else m
    | .event _ _ => m) 0

/-- A held record takes a place that came free in the write queue (R384). -/
def Store.pull (t : Store) : Store := match t.held with
  | r :: rest => if t.queue.length < 4096 then { t with queue := t.queue ++ [r], held := rest } else t
  | [] => t

/-! ### Wear (R382, R383) -/

/-- RS_WEAR_CRITICAL and volatile fallback, where retirements call for them. Queued records go on into the ring. -/
def State.checkWear (s : State) : State :=
  let t := s.recd.store
  let s := if 64 < t.retiredCount && !t.critical then
      (s.updStore fun t => { t with critical := true }).emit 0x812 3 srcStore none [t.retiredCount, t.usable] else s
  if t.usable < 16 && !t.isVolatile then
    let s := s.updStore fun t => { t with isVolatile := true, ring := t.queue ++ t.held, queue := [], held := [] }
    (s.emit 0x813 3 srcStore none [t.usable]).refresh
  else s

/-- A sector is retired. Cause 0 erase, 1 program. -/
def State.retireSector (s : State) (n cause : Nat) : State :=
  let s := s.updStore fun t => { (t.updSector n fun x => { x with retired := true, closed := true }) with
    writing := if t.writing = some n then none else t.writing }
  (s.emit 0x811 2 srcStore none [n, cause, s.recd.store.retiredCount]).checkWear

/-- A tired mark; the third retires the sector. -/
def State.tireSector (s : State) (n cause ms : Nat) : State :=
  let marks := (s.recd.store.sector n).tired + 1
  let s := (s.updStore fun t => t.updSector n fun x => { x with tired := marks }).emit 0x810 2 srcStore none [n, cause, ms, marks]
  if 3 ≤ marks then s.retireSector n cause else s

/-- RS_RECORDS_DROPPED, the next record stored after a loss (R384). -/
def State.lossRecord (s : State) : Rec :=
  let t := s.recd.store
  s.form 2 0x814 2 srcStore none t.lostFirst t.lostLast false (.values [t.lostNow, t.lostFirst, t.lostLast])

/-- What the store programs next, if anything. -/
def State.nextStored (s : State) : Option Rec :=
  if 0 < s.recd.store.lostNow then some s.lossRecord else s.recd.store.queue.head?

/-- The programmed record leaves the write queue. -/
def Store.stored_ (t : Store) : Store :=
  let t := { t with stored := satAdd 64 t.stored 1 }
  if 0 < t.lostNow then { t with lostNow := 0 } else ({ t with queue := t.queue.drop 1 }).pull

end Sys2Proof.Machine
end

