-- ==== Sys2Proof/Machine/Time.lean ====
section
/-! DEFINITION. Time and records (17): the PTP discipline, counts of time, coalescing windows, caps, and the record store's work. -/

namespace Sys2Proof.Machine

/-! ### Discipline (R371 to R374) -/

def State.updClock (s : State) (f : Clock → Clock) : State := { s with clock := f s.clock }

/-- INCREMENT as the servo leaves it: within ±12 ppm (R367); the manual gives no number. A free value (log 82). -/
def State.servo (s : State) : State :=
  { s with clock := { s.clock with incr := 4 * 2 ^ 32 - 206158 + (Config.freeWord s.free).toNat % 412317 }, free := s.free + 1 }

/-- The timebase steps by `d`, and the starts of active runs move with it (R368, R373). -/
def State.stepTime (s : State) (d : Int) : State :=
  let move (t : Nat) : Nat := ((t : Int) + d).toNat % 2 ^ 64
  let active := (List.range 64).filter fun c => match (s.ctx c).run with
    | some r => r.accepted
    | none => false
  let s := s.updClock fun c => { c with base := move c.base }
  let s := active.foldl (fun s c => s.updRun c fun r => { r with start := move r.start }) s
  s.emit 0x803 2 srcTime none [i64 d, active.length]

/-- R373, and the changes of 17, Table 4 that Sync messages make. Without a master a message has no effect. -/
def execPtpSync (offset pathDelay : Int) (s : State) : Host.Outcome State Fault Refusal :=
  let n := offset.natAbs
  let s' := s.updClock fun c => { c with offset := offset, pathDelay := pathDelay, syncs := satAdd 32 c.syncs 1 }
  match s.clock.state with
  | .free | .holdover => .next s
  | .acquiring =>
    if 1000000 < n then .next ((s'.updClock fun c => { c with inRange := 0 }).stepTime (-offset))
    else
      let s := s'.servo
      if 1000 < n then .next (s.updClock fun c => { c with inRange := 0 })
      else if s.clock.inRange + 1 < 16 then .next (s.updClock fun c => { c with inRange := c.inRange + 1 })
      else .next ((s.updClock fun c => { c with state := .locked, inRange := 0, outRange := 0, fromHoldover := false }).emit 0x800 1 srcTime none
        [s.clock.master, i64 offset])
  | .locked =>
    let s := s'.servo
    if n ≤ 10000 then .next (s.updClock fun c => { c with outRange := 0 })
    else if s.clock.outRange + 1 < 16 then .next (s.updClock fun c => { c with outRange := c.outRange + 1 })
    else .next ((s.updClock fun c => { c with state := .acquiring, inRange := 0, outRange := 0, fromHoldover := false }).emit 0x804 2 srcTime none
      [i64 offset])

/-- R371, R372: `best` is the verdict of the best master clock algorithm. -/
def execPtpAnnounce (a : Announce) (s : State) : Host.Outcome State Fault Refusal :=
  if !a.best || !(s.boot.holmUp || s.boot.restarting) || !s.boot.bcUp then .next s else
  let old := s.clock.master
  let new := a.clock.toNat
  let s' := s.updClock fun c => { c with
    master := new, masterPort := a.portNumber.toNat, steps := a.steps.toNat, utcOffset := a.utcOffset, linkUp := true }
  let select (from_ : Bool) (spent : Nat) : State :=
    (s'.updClock fun c => { c with state := .acquiring, inRange := 0, outRange := 0, fromHoldover := from_, holdSpent := spent }).emit
      0x805 1 srcTime none [old, new]
  match s.clock.state with
  | .free => .next (select false 0)
  | .holdover => .next (select true (s.nsSince s.clock.holdStart))
  | .acquiring => .next (if old = new then s' else select s.clock.fromHoldover s.clock.holdSpent)
  | .locked => .next (if old = new then s' else select false 0)

/-- The master is lost (17, Table 4). Cause 0 Announce timeout, 1 link down. The rate that holdover holds is the mean of rates that are
free values (R374, log 82). -/
def State.masterLost (s : State) (cause : Nat) : State :=
  let hold (spent : Nat) (raised : Bool) : State :=
    ((s.servo).updClock fun c => { c with state := .holdover, holdStart := c.ticks - spent / 4, lostRaised := raised }).emit
      0x801 2 srcTime none [i64 s.clock.offset, cause]
  match s.clock.state with
  | .locked => hold 0 false
  | .acquiring => if s.clock.fromHoldover then hold s.clock.holdSpent s.clock.lostRaised else s.updClock fun c => { c with state := .free }
  | _ => s

/-- R372. -/
def execAnnounceTimeout (s : State) : Host.Outcome State Fault Refusal := .next (s.masterLost 0)

/-- R372. -/
def execPtpLinkDown (s : State) : Host.Outcome State Fault Refusal :=
  if !s.clock.linkUp then .next s
  else .next (((s.updClock fun c => { c with linkUp := false }).emit 0x806 2 srcTime none []).masterLost 1)

/-- R374: once in a holdover. -/
def execTimeValidLost (s : State) : Host.Outcome State Fault Refusal :=
  if s.clock.state = .holdover && !s.clock.lostRaised && decide (s.obj 0x1107 0 * 1000 < s.errorBound) then
    .next ((s.updClock fun c => { c with lostRaised := true }).emit 0x802 2 srcTime none [s.errorBound])
  else .next s

/-! ### Counts of time (R374, R375) -/

/-- The timebase and OPERATING_SECONDS are stored as state records; with no usable sector they are kept in RAM (R383). -/
def State.saveTime (s : State) : State := s.updStore fun t =>
  { (t.keep [1, 2]) with kept := { t.kept with timebase := s.clock.base, hasTimebase := true, opSeconds := s.clock.opSeconds } }

/-- R374. -/
def execTimebaseStateSave (s : State) : Host.Outcome State Fault Refusal :=
  .next (if s.boot.holmUp || s.boot.restarting then s.saveTime else s)

/-- R375; the hours that lasers are lit are counted with it (11, Table 6). -/
def execOperatingSecond (s : State) : Host.Outcome State Fault Refusal :=
  if !(s.boot.holmUp || s.boot.restarting) then .next s else
  let s := s.updClock fun c => { c with opSeconds := satAdd 40 c.opSeconds 1 }
  .next { s with strait := { s.strait with ports := s.strait.ports.map fun _ x => { x with
    lasers := x.lasers.map fun _ l => if l.lit then { l with litSeconds := satAdd 44 l.litSeconds 1 } else l } } }

/-! ### Coalescing and caps (R377, R378) -/

/-- R377 rule 3. -/
def execCoalesceWindowClose (code : BitVec 16) (src : Source) (s : State) : Host.Outcome State Fault Refusal :=
  if !s.boot.holmUp || s.boot.restarting then .next s else
  let key := coalesceKey code.toNat s.unitNo src
  match s.recd.windows.find? key with
  | none => .next s
  | some w => match w.follow with
    | some f => .next ((s.deliver f).openWindow key)
    | none => .next { s with recd := { s.recd with windows := s.recd.windows.drop key } }

/-- Of two codes with their counts, the higher count goes first, then the lower code. -/
def moreOften (a b : Nat × Nat) : Bool := decide (b.2 < a.2) || a.2 == b.2 && decide (a.1 ≤ b.1)

/-- EVENT_SUMMARY of a destination (R378). -/
def State.summary (s : State) (c : Cap) : Rec :=
  let top := (c.codes.rows.mergeSort moreOften).take 5
  s.form 2 0x820 1 srcHolm none c.first c.last false (.text (leBytes 4 c.suppressed ++ leBytes 1 (Nat.min c.codes.rows.length 255) ++
    top.flatMap fun x => leBytes 2 x.1 ++ leBytes 2 (Nat.min x.2 65535)))

/-- A record goes to one destination. -/
def State.sendTo (s : State) (dest : Nat) (r : Rec) : State :=
  if dest < 64 then s.toFn dest r else if dest < destConsole then s.toChan (dest - 64) r
  else if dest = destConsole then s.toConsole r else s.toStore r

/-- R378. -/
def execCapSecondEnd (s : State) : Host.Outcome State Fault Refusal :=
  if !s.boot.holmUp || s.boot.restarting then .next s else
  let t := { s with recd := { s.recd with caps := {} } }
  .next (s.recd.caps.rows.foldl (fun t x => if x.2.suppressed = 0 then t else t.sendTo x.1 (s.summary x.2)) t)

/-! ### The record store (R379 to R382) -/

/-- R379, R382, R384: the next queued record is programmed. More than 2 retries tire the sector; with more than 8 it has failed, and the
record is written again in another. -/
def execRecordStoreProgram (retries : Nat) (s : State) : Host.Outcome State Fault Refusal :=
  if s.recd.store.isVolatile then .next s else
  match s.nextStored, s.recd.store.open_ with
  | some r, some (n, t) =>
    let s := s.updStore fun _ => t
    if 8 < retries then .next (s.retireSector n 1)
    else
      let s := s.updStore fun t => (t.program (.event · r)).1.stored_
      .next (if 2 < retries then s.tireSector n 1 0 else s)
  | _, _ => .next s

/-- The written sector that holds the oldest records. -/
def Store.oldestSector (t : Store) : Option Nat :=
  (t.sectors.rows.filter fun x => !x.2.erased && !x.2.erasing && t.writing != some x.1).foldl (fun (o : Option Nat) x => match o with
    | some b => if x.2.seq < (t.sector b).seq then some x.1 else o
    | none => some x.1) none

/-- R380: the current state records of the oldest sector are copied forward, and its erase begins. A retired sector is not written again. -/
def execRsReclaim (s : State) : Host.Outcome State Fault Refusal :=
  let t := s.recd.store
  if 4 ≤ t.erasedSectors.length then .next s else
  match t.oldestSector with
  | none => .next s
  | some n =>
    let kinds := [1, 2, 3, 4].filter fun k => t.newest k != 0 && (t.sector n).slots.contains (.state (t.newest k) k)
    let s := s.updStore fun t => (t.keep kinds).updSector n fun x => { x with slots := [], used := 0, erasing := !x.retired, erased := x.retired }
    .next (s.bgCycle 16 0xFF 0)

/-- R382. -/
def execRsEraseComplete (sector : Fin 1024) (ms : Nat) (s : State) : Host.Outcome State Fault Refusal :=
  let n := sector.val
  if !(s.recd.store.sector n).erasing then .next s else
  let s := s.updStore fun t => t.updSector n fun x => { x with erasing := false, erased := true, erases := x.erases + 1, closed := false }
  if 1000 < ms then .next (s.retireSector n 0)
  else .next (if 400 < ms then s.tireSector n 0 ms else s)

end Sys2Proof.Machine
end

