-- ==== Sys2Proof/Machine/PowerOps.lean ====
section
/-! DEFINITION. What the power commands share (19): profiles, set points and caps, HBM rates, sites, entry to W1, loss of power. -/

namespace Sys2Proof.Machine

def State.updPower (s : State) (f : PowerSt → PowerSt) : State := { s with power := f s.power }
def State.updSupply (s : State) (n : Nat) (f : SupplySt → SupplySt) : State :=
  s.updPower fun x => { x with supplies := x.supplies.upd {} n f }
def State.updFan (s : State) (n : Nat) (f : FanSt → FanSt) : State := s.updPower fun x => { x with fans := x.fans.upd {} n f }
def srcSupply (n : Nat) : Source := srcIn 0xFF 0x0F n
def srcFan (n : Nat) : Source := srcIn 0xFF 0x10 n

/-! ### Profiles and set points (R411 to R414, R417) -/

/-- Profile limit L in W (01, Table 3). -/
def limitOf (profile : Nat) : Nat := if profile = 1 then 10500 else if profile = 2 then 15000 else 20000
/-- Set point of a profile in mV (R412). -/
def setPointOf (profile : Nat) : Nat := if profile = 1 then 640 else if profile = 2 then 700 else 760
/-- Lowest set point of a capped unit in mV, and the minimum serving power in W (R417). -/
def capFloor : Nat := 550
def minServing : Nat := 7500

/-- Is a profile admissible under two feed limits (R411)? -/
def admissible (profile a b : Nat) : Bool := decide (limitOf profile ≤ a + b)

/-- Where the set point is to go: the profile's value, under the lower of the caps in force (R413, R432). -/
def PowerSt.wanted (x : PowerSt) : Nat :=
  let p := setPointOf (match x.raising with
    | some (p, _) => p
    | none => x.force)
  let p := if x.capped then Nat.min p x.capMv else p
  if x.thermalCap then Nat.min p x.thermMv else p

/-- Every trained stack of another rate is due for this one. -/
def State.rateDueAll (s : State) (rate : Nat) : State :=
  { s with hbm := s.hbm.map fun _ x => if x.trained then { x with rateDue := if x.rate = rate then none else some rate } else x }

/-- PROFILE_IN_FORCE takes a value. The lowest floor pace of the open pace windows is kept; only an isle whose monitors run has one
(R23, R24). -/
def State.putForce (s : State) (profile cause : Nat) : State :=
  let old := s.power.force
  let floor := s.floor
  let s := { s with isles := s.isles.map fun i x =>
    if s.power.isle.get IslePower.i3 i != IslePower.i0 then x
    else { x with pace := { x.pace with window := if x.pace.window = 0 then floor else Nat.min x.pace.window floor } } }
  (s.updPower fun x => { x with force := profile }).emit 0x100 (if profile < old then 2 else 1) srcBoard none [old, profile, cause]

/-- The set point stands where it is wanted: a raise comes into force, and pin rates become due (R413, R414, R417). The HBM is at
6.4 Gb/s in P1 and while a cap holds the set point at or below 0.64 V. -/
def State.settled (s : State) : State :=
  if s.power.setMv ≠ s.power.targetMv then s else
  let (s, raised) := match s.power.raising with
    | some (p, cause) => ((s.updPower fun x => { x with raising := none }).putForce p cause, true)
    | none => (s, false)
  let capped := s.power.capped || s.power.thermalCap
  if s.power.force = 1 || capped && decide (s.power.setMv ≤ 640) then s.rateDueAll 64
  else if raised || !capped then s.rateDueAll 80
  else s

/-- The set point moves to where it is wanted; outside W0 there are no rails to slew. -/
def State.retarget (s : State) : State :=
  let s := s.updPower fun x => { x with targetMv := x.wanted, setMv := if x.wafer = .w0 then x.setMv else x.wanted }
  s.settled

/-- A free set point from `lo` to `hi` mV: the manual gives the power that a capped set point keeps to, not its voltage (log 92). -/
def State.freeMv (s : State) (lo hi : Nat) : Nat × State :=
  (if hi ≤ lo then lo else lo + (Config.freeWord s.free).toNat % (hi - lo + 1), { s with free := s.free + 1 })

/-- The unit caps its power (R417); a capped set point follows the available power. -/
def State.cap (s : State) : State :=
  let x := s.power
  let avail := s.available
  let top := setPointOf x.force
  if !x.capped then
    let (mv, s) := s.freeMv capFloor (Nat.min x.setMv top)
    let s := s.updPower fun x => { x with capped := true, capMv := mv, capAvail := avail }
    (s.emit 0x106 2 srcBoard none [avail, limitOf x.force, mv]).retarget
  else if avail = x.capAvail then s
  else
    let (mv, s) := if avail < x.capAvail then s.freeMv capFloor (Nat.min x.capMv top) else s.freeMv (Nat.min x.capMv top) top
    (s.updPower fun x => { x with capMv := mv, capAvail := avail }).retarget

/-! ### Shore sites (R423) -/

/-- A site loses its power: its four ports are down. -/
def State.siteOff (s : State) (site : Nat) : State :=
  let s := (List.range 4).foldl (fun s n =>
    let p := site * 4 + n
    let s := s.updPort p fun x => { x with
      optic := .dark, lanes := [], subst := none, peerMove := none, rings := x.failedRings, lasers := x.lasers.map fun _ l => { l with lit := false } }
    if (s.port p).link = .down then s else s.linkReset p .down) s
  s.setHold (holdSite site) .unpowered false

/-- A site is powered on: its carrying lasers are lit, its rings search and its links begin to train; its boundary is held, and the Holm
releases it with HOLD_AUTO (R422, R423, R235, R254). -/
def State.siteUp (s : State) (site : Nat) : State :=
  let s := (List.range 4).foldl (fun s n => s.updPort (site * 4 + n) fun x =>
    (List.range 36).foldl (fun x l => if (x.laser l).state = .carrying then x.updLaser l fun y => { y with lit := true } else x)
      { x with optic := .acquiring, link := if x.link = .down then .training else x.link }) s
  let s := s.setHold (holdSite site) .held true
  if s.obj 0x2302 0 = 1 then s.release (holdSite site) 1 else s

/-! ### Wafer states (R424 to R426) -/

/-- An isle leaves service for a power-down of the wafer: a drain that had begun has its isle off, every other action of it ends (log 93). -/
def State.isleDown (s : State) (i : Nat) : State :=
  if (s.isle i).state = .unlicensed then s else
  let s := s.powerOffIsle i
  let s := if (s.isle i).state = .failed then s else s.setIsle i .off
  let s := s.updRepair i fun r => { r with phase := if r.phase ≤ 1 then 0 else 3, soundsPassed := false, forced := false }
  let s := if s.running 0x7010 (i + 1) then s.setAction 0x7010 (i + 1) 3 5 else s
  if s.running 0x2300 (i + 1) then s.setAction 0x2300 (i + 1) 3 5 else s

/-- Every isle and site goes off, and the shape is emptied, as a shape change. -/
def State.emptyWafer (s : State) : State :=
  let s := (List.range 64).foldl State.isleDown s
  let s := { s with shape := { s.shape with waiting := [] } }
  let s := s.removeNow 0 s.outSounds
  (List.range 32).foldl (fun s n => if s.holdOf (holdSite n) = .unpowered then s else s.siteOff n) s

def W1Cause.code : W1Cause → Nat
  | .request => 0 | .trip => 0x11B | .insufficient => 0x108

/-- Entry to W1 (R425, R426). The HBM rails stay, with every stack in self-refresh. -/
def State.enterW1 (s : State) (cause : W1Cause) : State :=
  let s := if cause = .request then s else s.forceUnloads cause.code fun _ _ => true
  let s := s.updPower fun x => { x with wafer := .w1, cause := cause, capped := false, thermalCap := false, raising := none }
  let s := s.emptyWafer
  let s := { s with hbm := s.hbm.map fun _ x => { x with selfRefresh := true, rateDue := none } }
  s.emit 0x120 1 srcBoard none [0, 1, cause.code]

/-- What the available power calls for in W0 (R417). -/
def State.capCheck (s : State) : State :=
  if s.power.wafer ≠ .w0 then s else
  let avail := s.available
  if avail < minServing then (s.emit 0x108 3 srcBoard none [avail]).enterW1 .insufficient
  else if s.power.capped || decide (avail < limitOf s.power.force) then s.cap
  else s

/-! ### Changes of profile (R411, R413, R416) -/

/-- A lowering: PROFILE_IN_FORCE takes the new value at once, and runs that declare a higher one are void (R18). -/
def State.lowerTo (s : State) (profile cause : Nat) : State :=
  let s := (s.updPower fun x => { x with raising := none }).putForce profile cause
  (s.voidRuns fun _ p => decide (profile < p.header.profile)).retarget.capCheck

/-- A raise: the set point goes first (R413). -/
def State.raiseTo (s : State) (profile cause : Nat) : State :=
  (s.updPower fun x => { x with raising := some (profile, cause) }).retarget.capCheck

/-- The requested profile takes force where its conditions hold (R411, R416). -/
def State.applyProfile (s : State) (cause : Nat) : State :=
  let want := s.obj 0x2000 0
  let now := s.power.force
  if want < now then s.lowerTo want cause
  else if want = now then (s.updPower fun x => { x with raising := none }).retarget
  else if s.power.bStable && s.feedPresent 1 && admissible want (s.feedLimit 0) (s.feedLimit 1) then s.raiseTo want cause
  else s

/-! ### Loss of power (20, Table 7; R475) -/

def IsleSt.atRest (x : IsleSt) : IsleSt := { ox := x.ox, bantam := x.bantam, pc := x.pc, lamb := x.lamb }
def StackSt.atRest (x : StackSt) : StackSt :=
  { marked := x.marked, watched := x.watched, sparesUsed := x.sparesUsed, sparesFailed := x.sparesFailed, repairLow := x.repairLow }
def IsleStoreSt.atRest (x : IsleStoreSt) : IsleStoreSt :=
  { spare := x.spare, place := x.place, next := x.next, head := x.head, spareColumns := x.spareColumns, spareRows := x.spareRows,
    cellLog := x.cellLog, retiredBanks := x.retiredBanks, disabledSteps := x.disabledSteps }
def SoundSt.atRest (x : SoundSt) : SoundSt := { x with state := if x.state = .inService then .inService else .out }
def RepairSt.atRest (x : RepairSt) : RepairSt := { failedAt := x.failedAt, failedBefore := x.failedBefore, disables := x.disables, fused := x.fused }
def CardSt.atRest (x : CardSt) : CardSt := { present := x.present, serial := x.serial, version := x.version }
def PortSt.atRest (x : PortSt) : PortSt :=
  { txChan := x.txChan, rxChan := x.rxChan, exhausted := x.exhausted, lasers := x.lasers.map fun _ l => { l with lit := false }
    rings := x.failedRings, due := x.due, tries := x.tries, nextTest := x.nextTest }
def CassetteSt.atRest (x : CassetteSt) : CassetteSt := { present := x.present, serial := x.serial, loss := x.loss }
/-- Of the store, what flash holds. -/
def Store.atRest (t : Store) : Store :=
  { sectors := t.sectors, writing := t.writing, nextSeq := t.nextSeq, nextSectorSeq := t.nextSectorSeq, kept := t.kept,
    critical := t.critical }

/-- The unit loses its power: what flash, fuses, the repair map and the parts themselves hold is kept (20, Table 7; R64). -/
def State.powerLost (s : State) : State :=
  { pending := s.pending, free := s.free, out := s.out
    clock := { ticks := s.clock.ticks }
    shape := { cur := { epoch := s.recd.store.kept.epoch } }
    recd := { store := s.recd.store.atRest }
    dict := { copies := s.dict.copies, nextCopy := s.dict.nextCopy, key := s.dict.key, nonces := s.dict.nonces }
    frames := (s.frames.keep fun _ f => f.retired).map fun _ _ => { retired := true }
    isles := unlicensedIsles (s.isles.map fun _ x => x.atRest)
    sounds := s.sounds.map fun _ x => x.atRest
    engines := s.engines.map fun _ x => { state := if x.state = .disabled then .disabled else .healthy, spares := x.spares }
    lambs := s.lambs.map fun _ x => { state := if x.state = .disabled then .disabled else .healthy }
    cores := (s.cores.keep fun _ x => x.disabled).map fun _ _ => { disabled := true }
    hbm := s.hbm.map fun _ x => x.atRest
    stores := s.stores.map fun _ x => x.atRest
    cards := s.cards.map fun _ x => x.atRest
    strait := { ports := s.strait.ports.map fun _ x => x.atRest, cassettes := s.strait.cassettes.map fun _ x => x.atRest }
    repair := s.repair.map fun _ x => x.atRest
    power := { supplies := s.power.supplies, fans := s.power.fans, fanLost := s.power.fanLost }
    boot := { slots := s.boot.slots, active := s.boot.active, trial := s.boot.trial, attempts := s.boot.attempts, secMin := s.boot.secMin }
    rack := { termination := s.rack.termination, dip := s.rack.dip } }

/-! ### Feeds (R410, R416) -/

/-- A feed is lost. Without feed B the unit lowers to P1. With neither feed the unit has no power (R475). -/
def State.feedGone (s : State) (feed : Nat) : State :=
  let s := s.emit 0x101 2 srcBoard none [feed, s.sense (objKey 0x2006 (2 + feed))]
  if !(s.feedPresent 0) && !(s.feedPresent 1) then s.powerLost else
  let s := if feed = 1 then s.updPower fun x => { x with bStable := false } else s
  let s := if feed = 1 && (1 < s.power.force || s.power.raising.isSome) then
      if 1 < s.power.force then s.lowerTo 1 1 else (s.updPower fun x => { x with raising := none }).retarget
    else s
  s.capCheck

/-- A feed is present again. -/
def State.feedBack (s : State) (feed : Nat) : State := (s.emit 0x102 1 srcBoard none [feed]).capCheck

/-- A change of the supplies of a feed, and what follows for the feed and the available power. -/
def State.suppliesChanged (s : State) (feed : Nat) (was : Bool) : State :=
  if was && !(s.feedPresent feed) then s.feedGone feed
  else if !was && s.feedPresent feed then s.feedBack feed
  else s.capCheck

end Sys2Proof.Machine
end

