-- ==== Sys2Proof/Machine/Power.lean ====
section
/-! DEFINITION. Power, domains and air (19). Temperatures are in 0.01 °C. -/

namespace Sys2Proof.Machine

/-! ### Feeds and supplies (R410, R416) -/

/-- R416: every supply on the feed reports AC failure. -/
def execFeedLost (feed : Fin 2) (s : State) : Host.Outcome State Fault Refusal :=
  let f := feed.val
  if !(s.feedPresent f) then .next s else
  let s := (List.range 6).foldl (fun s n =>
    if supplyFeed n = f then s.updSupply n fun x => { x with state := if x.state = .healthy then .noAc else x.state, ac := false } else s) s
  .next (s.feedGone f)

/-- R416: AC is back on the feed. -/
def execFeedRestored (feed : Fin 2) (s : State) : Host.Outcome State Fault Refusal :=
  let f := feed.val
  if s.feedPresent f then .next s else
  let s := (List.range 6).foldl (fun s n =>
    if supplyFeed n = f then s.updSupply n fun x => { x with state := if x.state = .noAc then .healthy else x.state, ac := true } else s) s
  .next (if s.feedPresent f then s.feedBack f else s)

/-- R416. -/
def execFeedBStable (s : State) : Host.Outcome State Fault Refusal :=
  if !(s.feedPresent 1) || s.power.bStable || s.power.wafer = .w3 then .next s else
  let s := s.updPower fun x => { x with bStable := true }
  .next (if s.power.force < s.obj 0x2000 0 then s.applyProfile 2 else s)

/-- R410. Cause 0 AC, 1 output, 2 overtemperature, 3 fan. -/
def execSupplyFailed (supply : Fin 6) (cause : Fin 4) (s : State) : Host.Outcome State Fault Refusal :=
  let (n, f) := (supply.val, supplyFeed supply.val)
  let was := s.feedPresent f
  let x := s.supply n
  if cause.val = 0 then
    if !x.acGood then .next s else
    let s := s.updSupply n fun x => { x with state := if x.state = .healthy then .noAc else x.state, ac := false }
    .next ((s.emit 0x103 2 (srcSupply n) none [n, 0]).suppliesChanged f was)
  else if x.state = .absent || x.state = .failed then .next s
  else
    let s := s.updSupply n fun x => { x with state := .failed, ac := x.state = .healthy }
    .next ((s.emit 0x103 2 (srcSupply n) none [n, cause.val]).suppliesChanged f was)

/-- R410. -/
def execSupplyInserted (supply : Fin 6) (serial : List Byte) (ac : Bool) (s : State) : Host.Outcome State Fault Refusal :=
  let (n, f) := (supply.val, supplyFeed supply.val)
  let was := s.feedPresent f
  if (s.supply n).state != .absent then .next s else
  let s := s.updSupply n fun _ => { state := if ac then .healthy else .noAc, ac := ac, serial := serial }
  .next ((s.emit 0x105 1 (srcSupply n) none [n, ofBytes serial]).suppliesChanged f was)

/-- R410. -/
def execSupplyRemoved (supply : Fin 6) (s : State) : Host.Outcome State Fault Refusal :=
  let (n, f) := (supply.val, supplyFeed supply.val)
  let was := s.feedPresent f
  if (s.supply n).state = .absent then .next s else
  let s := s.updSupply n fun _ => { state := .absent, ac := false }
  .next ((s.emit 0x104 1 (srcSupply n) none [n]).suppliesChanged f was)

/-- R410: a supply regains AC good. -/
def execSupplyAcGood (supply : Fin 6) (s : State) : Host.Outcome State Fault Refusal :=
  let (n, f) := (supply.val, supplyFeed supply.val)
  let was := s.feedPresent f
  let x := s.supply n
  if x.state = .absent || x.acGood then .next s else
  let s := s.updSupply n fun x => { x with state := if x.state = .noAc then .healthy else x.state, ac := true }
  .next (s.suppliesChanged f was)

/-! ### Profiles (R411 to R417) -/

/-- POWER_PROFILE (R411, R416). -/
def State.profileOp (v : Nat) (s : State) : Performed :=
  if admissible v (s.feedLimit 0) (s.feedLimit 1) then ((s.setObj 0x2000 0 v).applyProfile 0, .ok []) else (s, .error 8)

def execPowerProfile (req : Req) (value : List Byte) (s : State) : Host.Outcome State Fault Refusal :=
  .next (s.rowWrite req 0x2000 0 value (State.profileOp (ofBytes value))).1

def limitObj (feed : Nat) : Nat := if feed = 0 then 0x2002 else 0x2005

/-- FEED_A_LIMIT and FEED_B_LIMIT (R411). -/
def State.feedLimitOp (feed v : Nat) (s : State) : Performed :=
  if admissible (s.obj 0x2000 0) v (s.feedLimit (1 - feed)) then ((s.setObj (limitObj feed) 0 v).capCheck, .ok []) else (s, .error 8)

def execFeedLimitWrite (req : Req) (feed : Fin 2) (value : List Byte) (s : State) : Host.Outcome State Fault Refusal :=
  .next (s.rowWrite req (limitObj feed.val) 0 value (State.feedLimitOp feed.val (ofBytes value))).1

/-- R413. -/
def execSetPointReached (s : State) : Host.Outcome State Fault Refusal :=
  if s.power.wafer ≠ .w0 || s.power.setMv = s.power.targetMv then .next s
  else
    let s := (s.updPower fun x => { x with setMv := x.targetMv }).settled
    .next s.capCheck

/-- R414, R415: a raise waits until no active run leases the stack; the hold voids the bounds of runs that lease it. -/
def execHbmRateChange (k : StackId) (s : State) : Host.Outcome State Fault Refusal :=
  let x := s.stack k.key
  match x.rateDue with
  | none => .next s
  | some r =>
    if !x.trained || decide (x.rate < r) && (s.loaded.any fun cp => cp.2.hasStack k.key && (s.activeRun cp.1).isSome) then .next s else
    let s := s.updStack k.key fun x => { x with rate := r, rateDue := none }
    .next ((s.voidRuns fun _ p => p.hasStack k.key).emit 0x109 1 (srcStack k.key) none [k.isle.val, k.stack.val, r])

/-- R417: the measured input exceeds L. -/
def execInputAboveProfileLimit (watts : Nat) (s : State) : Host.Outcome State Fault Refusal :=
  if s.power.wafer ≠ .w0 || watts ≤ limitOf s.power.force || s.power.capped then .next s else .next s.cap

/-- R417: the available power has been at least L for 10 s. -/
def execPowerCapCleared (s : State) : Host.Outcome State Fault Refusal :=
  if !s.power.capped || s.available < limitOf s.power.force then .next s else
  let s := (s.updPower fun x => { x with capped := false }).emit 0x107 1 srcBoard none [s.available]
  .next s.retarget

/-! ### Air and temperature (R427 to R431) -/

/-- R430. -/
def execThermalCap (isle : Isle) (temp : Int) (s : State) : Host.Outcome State Fault Refusal :=
  if temp < 10000 || s.power.thermalCap || s.power.wafer ≠ .w0 then .next s else
  let (mv, s) := s.freeMv capFloor (Nat.min s.power.setMv (setPointOf s.power.force))
  let s := s.updPower fun x => { x with thermalCap := true, thermMv := mv }
  .next ((s.emit 0x119 2 (srcIn isle.val 1 0) none [isle.val, i64 temp, mv]).retarget)

/-- R430. -/
def execThermalCapCleared (temp : Int) (s : State) : Host.Outcome State Fault Refusal :=
  if !s.power.thermalCap || 9000 < temp then .next s else
  .next (((s.updPower fun x => { x with thermalCap := false }).emit 0x11A 1 srcBoard none [i64 temp]).retarget)

/-- R431. -/
def execThermalTrip (src : TripSource) (temp : Int) (s : State) : Host.Outcome State Fault Refusal :=
  let (isle, least) := match src with
    | .junction i => (i.val, (11000 : Int))
    | .inlet => (0xFF, 4500)
  if temp < least || s.power.wafer ≠ .w0 then .next s
  else .next ((s.emit 0x11B 4 (srcIn isle (if isle = 0xFF then 0x0E else 1) 0) none [isle, i64 temp]).enterW1 .trip)

def State.fansRunning (s : State) : Nat := ((List.range 10).filter fun n => (s.power.fans.get {} n).state == .running).length

/-- FAN_REDUNDANCY_LOST where fewer than nine modules run (R428); once until nine run again. -/
def State.fanCheck (s : State) : State :=
  let n := s.fansRunning
  if n < 9 then
    if s.power.fanLost then s else (s.updPower fun x => { x with fanLost := true }).emit 0x111 3 srcBoard none [n]
  else s.updPower fun x => { x with fanLost := false }

/-- R428. -/
def execFanFailed (fan : Fin 10) (measured : Nat) (s : State) : Host.Outcome State Fault Refusal :=
  let n := fan.val
  if (s.power.fans.get {} n).state != .running then .next s else
  .next (((s.updFan n fun x => { x with state := .failed }).emit 0x110 2 (srcFan n) none [n, s.fanPercent, measured]).fanCheck)

/-- R427. -/
def execFanInserted (fan : Fin 10) (s : State) : Host.Outcome State Fault Refusal :=
  let n := fan.val
  if (s.power.fans.get {} n).state != .absent then .next s else
  .next (((s.updFan n fun x => { x with state := .running }).emit 0x113 1 (srcFan n) none [n]).fanCheck)

/-- R427. -/
def execFanRemoved (fan : Fin 10) (s : State) : Host.Outcome State Fault Refusal :=
  let n := fan.val
  if (s.power.fans.get {} n).state = .absent then .next s else
  .next (((s.updFan n fun x => { x with state := .absent }).emit 0x112 1 (srcFan n) none [n]).fanCheck)

/-- Is an inlet temperature above the permitted range? Above 900 m the limit of 35 °C falls by 1 °C for every 300 m (R429, R477). -/
def State.inletHot (s : State) (temp : Int) : Bool := decide (10500 < 3 * temp + ((s.obj 0x2041 0 - 900 : Nat) : Int))

/-- R429, R477. -/
def execInletOutOfRange (temp : Int) (s : State) : Host.Outcome State Fault Refusal :=
  .next (if temp < 1000 || s.inletHot temp then s.emit 0x118 2 srcBoard none [i64 temp] else s)

/-! ### Isles in retention (R418, R420) -/

/-- A wake raises the rail and takes the stacks out of self-refresh; the housekeeping core runs again for the wake check (R420). A stack in
thermal protection stays there. The pace monitors start again (R23); a failed envelope condition of the isle and its count of good windows
outlast retention and power-off (DESIGN CHOICE, log 161). -/
def State.wakeIsle (s : State) (i : Nat) : State :=
  if s.power.isle.get .i3 i ≠ .i2 then s else
  let s := (List.range 2).foldl (fun s n => s.updStack (i * 2 + n) fun x => { x with selfRefresh := decide (x.step = 3) }) s
  let s := s.updCore (i * 16 + (s.bant i).housekeeper) fun x => { x with power := .run }
  { (s.startPace i) with power := { s.power with isle := s.power.isle.put i .i0 } }

/-- R420. A LOAD wakes the isles its lease names. -/
def execIsleWake (isle : Isle) (src : WakeSource) (s : State) : Host.Outcome State Fault Refusal :=
  match src with
  | .load c => .next (match (s.ctx c.val).waiting with
    | some p => if p.names isle.val then s.wakeIsle isle.val else s
    | none => s)
  | .bar2 | .packet | .holm | .background => .next (s.wakeIsle isle.val)

/-- R420, R422. A failed wake check is a hard fault of the isle. -/
def execIsleWakeCheckDone (isle : Isle) (failing : Option Byte) (s : State) : Host.Outcome State Fault Refusal :=
  let i := isle.val
  let h := holdIsle i
  if s.power.isle.get .i3 i ≠ .i0 || s.holdOf h ≠ .held || s.power.ready.get false h || (s.repairOf i).phase = 4 then .next s else
  match failing with
  | some f => .next ((s.emit 0x122 3 (srcIn i 1 0) none [i, f.toNat]).isleFault i f.toNat)
  | none =>
    let s := s.setHold h .held true
    .next (if s.obj 0x2302 0 = 1 then s.release h 1 else s)

/-- R420. -/
def execPeriodicIsleWake (s : State) : Host.Outcome State Fault Refusal := .next ((List.range 64).foldl State.wakeIsle s)

/-! ### Sites and wafer states (R423 to R425) -/

/-- SITE_POWER (R423). -/
def State.sitePowerOp (site v : Nat) (s : State) : Performed :=
  if v = 0 then
    if s.loaded.any fun cp => (List.range 4).any fun n => cp.2.usesPort (site * 4 + n) then (s, .error 9)
    else
      let s := s.setObj 0x2304 (site + 1) 0
      (if s.holdOf (holdSite site) = .unpowered then s else s.siteOff site, .ok [])
  else
    let s := s.setObj 0x2304 (site + 1) 1
    (if s.power.wafer = .w0 && s.holdOf (holdSite site) == .unpowered then s.siteUp site else s, .ok [])

def execSitePower (req : Req) (site : Site) (value : List Byte) (s : State) : Host.Outcome State Fault Refusal :=
  .next (s.rowWrite req 0x2304 (site.val + 1) value (State.sitePowerOp site.val (ofBytes value))).1

/-- A plan is loaded, or a LOAD has arrived (R425, R432). -/
def State.anyPlan (s : State) : Bool := !s.loaded.isEmpty || s.ctxs.values.any fun x => x.waiting.isSome || x.state == .loading

/-- WAFER_STATE_REQUEST 1 (R425). -/
def State.toW1Op (s : State) : Performed :=
  if s.power.wafer ≠ .w0 then (s, .error 8)
  else if s.anyPlan then (s, .error 9)
  else ((s.enterW1 .request).actionDone 0x2051 0, .ok [])

def execWaferToW1 (req : Req) (s : State) : Host.Outcome State Fault Refusal := .next (s.rowWrite req 0x2051 0 [1] State.toW1Op).1

/-- WAFER_STATE_REQUEST 3, which a Custodian writes (R425): the state records are stored and the unit is off. -/
def State.toW3Op (ch : Channel) (s : State) : Performed :=
  if s.role ch < 2 then (s, .error 6)
  else if s.anyPlan then (s, .error 9)
  else
    let s := s.emit 0x120 1 srcBoard none [s.power.wafer.code, 3, 0]
    ((s.saveTime.updStore (·.keep [3, 4])).powerLost, .ok [])

def execWaferToW3 (req : Req) (s : State) : Host.Outcome State Fault Refusal :=
  .next (s.rowWrite req 0x2051 0 [3] (State.toW3Op req.ch)).1

end Sys2Proof.Machine
end

