-- ==== Sys2Proof/Machine/BootOps.lean ====
section
/-! DEFINITION. What start-up, reset and update share (20): firmware bundles and slots, bring-up of the wafer, publication of the shape, and
restarts of the Holm. -/

namespace Sys2Proof.Machine

def State.updBoot (s : State) (f : BootSt → BootSt) : State := { s with boot := f s.boot }
def State.slot (s : State) (n : Nat) : SlotSt := s.boot.slots.get {} n
def State.updSlot (s : State) (n : Nat) (f : SlotSt → SlotSt) : State := s.updBoot fun b => { b with slots := b.slots.upd {} n f }

/-! ### The firmware bundle (R433) -/

/-- An entry of the component table: KIND, OFFSET, LENGTH, digest, and whether its reserved fields are 0. -/
structure BundlePart where
  kind : Nat
  offset : Nat
  length : Nat
  digest : List Byte
  clean : Bool
deriving DecidableEq, Repr

def bundlePart (b : List Byte) (n : Nat) : BundlePart :=
  let o := 48 + n * 64
  { kind := fieldAt b o 1, offset := fieldAt b (o + 4) 4, length := fieldAt b (o + 8) 4, digest := (b.drop (o + 16)).take 48
    clean := fieldAt b (o + 1) 3 == 0 && fieldAt b (o + 12) 4 == 0 }

def bundleParts (b : List Byte) : List BundlePart := (List.range 4).map (bundlePart b)

/-- Largest length of a component kind (20, Table 4). -/
def partLimit (kind : Nat) : Nat :=
  if kind = 1 || kind = 4 then 4194304 else if kind = 2 then 16777216 else if kind = 3 then 1048576 else 0

def disjointParts : List BundlePart → Bool
  | [] => true
  | p :: r => r.all (fun q => decide (p.offset + p.length ≤ q.offset) || decide (q.offset + q.length ≤ p.offset)) && disjointParts r

/-- What is wrong with a bundle: 0 format, 1 signature, 2 security version, 3 digest (20, Table 9). -/
def bundleBad (b : List Byte) (secMin : Nat) : Option Nat :=
  let parts := bundleParts b
  let len := fieldAt b 8 4
  let formatOk := fieldAt b 0 4 == 0x57465856 && fieldAt b 4 2 == 1 && fieldAt b 6 2 == 4 && decide (len ≤ 33554432) && len == b.length &&
    decide (fieldAt b 12 4 ≤ 63) && fieldAt b 40 8 == 0 && (b.drop 304).take 112 == List.replicate 112 0 &&
    parts.all (fun p => p.clean && decide (1 ≤ p.kind) && decide (p.length ≤ partLimit p.kind) && decide (512 ≤ p.offset) &&
      decide (p.offset + p.length ≤ len)) && disjointParts parts && (parts.map (·.kind)).eraseDups.length == 4
  if !formatOk then some 0
  else if !(Config.signatureValid (sha384 (b.take 416)) ((b.drop 416).take 96)) then some 1
  else if fieldAt b 12 4 < secMin then some 2
  else if parts.all fun p => sha384 ((b.drop p.offset).take p.length) == p.digest then none
  else some 3

/-- Digest of a component of a staged bundle; nothing is known of the bundle of manufacture. -/
def SlotSt.partDigest (x : SlotSt) (kind : Nat) : Option (List Byte) :=
  if x.image.isEmpty then none else ((bundleParts x.image).find? fun p => p.kind == kind).map (·.digest)

/-! ### Choosing a slot (R434, R442) -/

/-- A ROM found a slot invalid: it is marked, and FW_IMAGE_REJECTED reports it. -/
def State.rejectSlot (s : State) (c : SlotCheck) : State :=
  s.updSlot c.slot.val fun x => { x with state := .invalid }

def State.reportRejected (s : State) (cs : List SlotCheck) : State :=
  cs.foldl (fun s c => s.emit 0xF01 3 srcHolm none [c.slot.val, c.component.val, c.reason.val]) s

/-- What a start of the Holm runs (R442): the trial slot while it has attempts left, else the active slot. `watchdog` says that a watchdog
ended a run of the trial slot. With it, the rollback that the choice makes: from slot, to slot, reason. -/
def State.chooseSlot (s : State) (watchdog : Bool) : State × Option (List Nat) :=
  let b := s.boot
  let run (n : Nat) : State := s.updBoot fun b => { b with running := n }
  let back (from_ reason : Nat) : State × Option (List Nat) :=
    (s.updBoot fun b => { b with running := b.active, trial := none, attempts := 0 }, some [from_, b.active, reason])
  match b.trial with
  | none => (run b.active, none)
  | some t =>
    if watchdog then back t 1
    else if 3 ≤ b.attempts then back t 0
    else ((run t).updBoot fun b => { b with attempts := b.attempts + 1 }, none)

/-- The Holm starts: the chosen slot, or the other where it is not valid, or recovery (R434, R448). -/
def State.startSlot (s : State) (rejected : List SlotCheck) (watchdog : Bool) : State × Option (List Nat) :=
  let (s, roll) := s.chooseSlot watchdog
  let s := rejected.foldl State.rejectSlot s
  let n := s.boot.running
  if (s.slot n).state = .valid then (s, roll)
  else if (s.slot (1 - n)).state = .valid then (s.updBoot fun b => { b with running := 1 - n }, roll)
  else (s.updBoot fun b => { b with recovery := true }, roll)

/-! ### Bring-up of isles (R401, R402, R437) -/

/-- An isle passes every test. -/
def allPass : RetestOutcome :=
  { failingTest := 0, microcodeOk := true, ox := 0xF, bantam := 0xFFFF, pc := BitVec.ofNat 64 (2 ^ 64 - 1), lamb := true, spareColumns := 0
    banksRetired := [], stacksFailed := 0 }

/-- What the `n`-th attempt on an isle gives; an isle or an attempt that the facts do not name passes. -/
def bootAttempt (b : BootFacts) (i n : Nat) : RetestOutcome := match b.bringUps.find? fun x => x.isle.val == i with
  | some x => x.attempts.getD n allPass
  | none => allPass

/-- One attempt: microcode, tests, and the row that fails it, 0 where it passes. -/
def State.tryIsle (s : State) (i : Nat) (o : RetestOutcome) : State × Nat :=
  let s := (s.powerOnIsle i .starting).takeOutcome i o
  if !o.microcodeOk then (s, 1)
  else
    let s := s.updBoot fun b => { b with microcode := b.microcode.put i s.microcodeInForce }
    (s, s.failingRow i o)

/-- Bring-up of an isle from attempt `n` on; the attempt that passed, if one did (R437). -/
def State.bringIsle (s : State) (boot : BootFacts) (i n : Nat) : Nat → State × Option Nat
  | 0 => ((s.enterFailed i).powerOffIsle i, none)
  | k + 1 =>
    let (s, row) := s.tryIsle i (bootAttempt boot i n)
    if row = 0 then (s.setHold (holdIsle i) .held true, some n)
    else ((s.emit 0xF0A 2 (srcIn i 1 0) none [i, row, n + 1]).powerOffIsle i).bringIsle boot i (n + 1) k

/-- Power-on of an isle at an exit from W1 (R425): its stacks train, and its engines and cores are as they were; a failed wake check is a
hard fault. -/
def State.wakeFromW1 (s : State) (boot : BootFacts) (i : Nat) : State × Option Nat :=
  let x := s.isle i
  let o : RetestOutcome := { bootAttempt boot i 0 with ox := x.ox, bantam := x.bantam, lamb := x.lamb, banksRetired := [] }
  let (s, row) := s.tryIsle i o
  if row = 0 then (s.setHold (holdIsle i) .held true, some 0)
  else ((s.emit 0x122 3 (srcIn i 1 0) none [i, row]).isleFault i row, none)

/-- Bring-up of some isles: those that passed at once, and those that passed later. -/
def State.bringIsles (s : State) (one : State → Nat → State × Option Nat) (isles : List Nat) : State × List Nat × List Nat :=
  isles.foldl (fun x i =>
    let (s, r) := one x.1 i
    match r with
    | some 0 => (s, x.2.1 ++ [i], x.2.2)
    | some _ => (s, x.2.1, x.2.2 ++ [i])
    | none => (s, x.2)) (s, [], [])

/-! ### Publishing the shape (R62) -/

/-- The first publication after a cold power-up: the epoch keeps its value where the shape equals the saved one (R62). -/
def State.publishFirst (s : State) (mask : Nat) (out : List Nat) : State :=
  let kept := s.recd.store.kept
  let t : ShapeTable := ⟨kept.epoch, mask, out⟩
  let now := settle { t with mask := choosePart t (trainedCards s) } 64
  let same := kept.epoch != 0 && sameShape now out kept.shape kept.sounds
  let e := if same then kept.epoch else nextEpoch kept.epoch
  let s := { s with shape := { s.shape with cur := ⟨e, now, out⟩, old := none, published := true } }
  let s := { s with recd := { s.recd with store := { s.recd.store.keep [4] with kept := { kept with epoch := e, shape := now, sounds := out } } } }
  let s := ((isleList mask).filter fun i => !(bit now i)).foldl (fun s i => (s.setIsle i .stranded).emit 0x222 2 (srcIn i 1 0) none [i]) s
  let s := (isleList now).foldl (fun s i => s.setIsle i .serving) s
  (if same then s else s.emit 0x220 1 srcUnit none [kept.epoch, e, now]).refresh

def maskOfIsles (l : List Nat) : Nat := l.foldl setBit 0

/-- Holds of isles that join the shape are released by the Holm (20, Table 5, step 10; R422). -/
def State.releaseIsles (s : State) (isles : List Nat) : State := isles.foldl (fun s i => s.release (holdIsle i) 1) s

/-- The address switch is taken (R364): a value from 248 to 255 is invalid. -/
def State.switchTaken (s : State) : State := if 248 ≤ s.rack.dip then s.emit 0x909 2 (srcUart 0) none [s.rack.dip] else s

/-! ### Start-up steps 6 to 12 (20, Table 5) -/

/-- A start-up step ends: while the Holm owns N1, the console prints its progress line (R365, R438; log 181). -/
def State.stepDone (s : State) (n : Nat) : State :=
  let line := if s.uartOwner 1 = 0 then [stepLine n (if n < 5 then none else some s.clock.base) s.shape.level] else []
  { s with boot := { s.boot with step := n }, recd := { s.recd with console := s.recd.console ++ line } }

/-- The highest profile at or below the requested one that is admissible and whose feeds are present (R436). -/
def State.startProfile (s : State) : Nat :=
  let ok (p : Nat) : Bool := decide (p ≤ s.obj 0x2000 0) && admissible p (s.feedLimit 0) (s.feedLimit 1) && s.feedPresent 1
  if ok 3 then 3 else if ok 2 then 2 else 1

/-- Rails up, sites on, isles brought up, Sounds tested, the shape published, late isles joined. `first` says that no shape was published
since power-up, `steps` that these are the steps of Table 5. -/
def State.bringUp (s : State) (boot : BootFacts) (first steps : Bool) (one : State → Nat → State × Option Nat) (isles : List Nat) : State :=
  let done (s : State) (n : Nat) : State := if steps then s.stepDone n else s
  let s := s.updPower fun x => { x with wafer := .w0, setMv := setPointOf x.force, targetMv := setPointOf x.force, raising := none }
  let s := (List.range 32).foldl (fun s n => if s.obj 0x2304 (n + 1) = 1 then s.siteUp n else s) s
  let s := done (done s 6) 7
  let (s, now, late) := s.bringIsles one isles
  let s := done (done s 8) 9
  let s := (boot.soundsBad.map (·.val)).foldl (fun s n => s.updSound n fun x => { x with state := .out }) s
  let s := s.releaseIsles now
  let mask := maskOfIsles (now.filter fun i => (s.isle i).state != .failed)
  let s := if first then s.publishFirst mask s.outSounds else s.reshape (s.shape.cur.mask ||| mask) s.outSounds
  let s := done (done s 10) 11
  let s := if late.isEmpty then s
    else (s.releaseIsles late).reshape ((s.shape.cur.mask ||| maskOfIsles late)) s.outSounds
  (done s 12).capCheck

def State.licensed (_s : State) (i : Nat) : Bool := Config.licensed i

/-- Steps 6 to 12 over every licensed isle. -/
def State.startWafer (s : State) (boot : BootFacts) (first : Bool) : State :=
  let s := (List.range 64).foldl (fun s i => if s.licensed i then s.updRepair i fun r => { r with phase := 0 }
    else s.setIsle i .unlicensed) s
  s.bringUp boot first true (fun s i => s.bringIsle boot i 0 3) ((List.range 64).filter s.licensed)

/-- Steps 6 to 12 with the start profile, or W1 where the available power does not serve (R436). -/
def State.startService (s : State) (boot : BootFacts) : State :=
  let s := s.updPower fun x => { x with force := s.startProfile }
  if s.available < minServing then
    (s.updPower fun x => { x with wafer := .w1, cause := .insufficient }).emit 0x108 3 srcBoard none [s.available]
  else s.startWafer boot true

/-- An exit from W1 (R425, R426): steps 6 to 12 where they have not run since power-up (R436); else the isles that went off with the wafer
power on. -/
def State.exitW1 (s : State) (boot : BootFacts) : State :=
  let cause := s.power.cause
  let s := if !s.shape.published then s.startService boot
    else s.bringUp boot false false (fun s i => s.wakeFromW1 boot i)
      ((List.range 64).filter fun i => (s.isle i).state == .off && (s.repairOf i).phase == 0 && s.licensed i)
  if s.power.wafer = .w0 then s.emit 0x120 1 srcBoard none [1, 0, cause.code] else s

/-! ### LAST_RESET -/

/-- Kinds in the order of 20, Table 6; causes as the restart events code them (0 update, 1 watchdog, 2 request; log 96). -/
def State.lastReset (s : State) (kind cause : Nat) : State :=
  s.updBoot fun b => { b with resetKind := kind, resetCause := cause, resetTime := s.clock.base }

def restartCode : RestartCause → Nat
  | .update => 0 | .watchdog => 1 | .request => 2

/-! ### Restarts (R444 to R446) -/

/-- The Holm stops: its state records are stored, arming and sessions end (R444, R456, R374). -/
def State.stopHolm (s : State) (cause : RestartCause) : State :=
  let s := s.saveTime.disarm 3
  let s := (List.range 65).foldl State.endSession s
  s.updBoot fun b => { b with restarting := true, restartCause := restartCode cause, holmReady := false, lostEvents := 0, heldEvents := [] }

/-- The PTP port is down with the board controller (R445). -/
def State.restartBoard (s : State) (cause : RestartCause) : State :=
  let s := s.emit 0xF08 2 srcBoard none [restartCode cause]
  if s.clock.linkUp then ((s.updClock fun c => { c with linkUp := false }).emit 0x806 2 srcTime none []).masterLost 1 else s

end Sys2Proof.Machine
end

