-- ==== Sys2Proof/Machine/Boot.lean ====
section
/-! DEFINITION. Start-up, reset and update (20), and the exits from W1 (R425). -/

namespace Sys2Proof.Machine

/-! ### Exits from W1 (R425, R431) -/

/-- WAFER_STATE_REQUEST 0. After a trip it waits for every junction below 60 °C and the inlet at most 35 °C (R431). -/
def State.toW0Op (boot : BootFacts) (s : State) : Performed :=
  if s.power.wafer ≠ .w1 then (s, .error 8)
  else if s.power.cause = .trip && !(decide (s.temperature 3 < 6000) && decide (boot.inlet ≤ 3500)) then (s, .error 9)
  else ((s.exitW1 boot).actionDone 0x2051 0, .ok [])

def execWaferToW0 (req : Req) (boot : BootFacts) (s : State) : Host.Outcome State Fault Refusal :=
  .next (s.rowWrite req 0x2051 0 [0] (State.toW0Op boot)).1

/-- R425: available power of 10,500 W has lasted 10 s. -/
def execPowerRecoveredExit (boot : BootFacts) (s : State) : Host.Outcome State Fault Refusal :=
  .next (if s.power.wafer = .w1 && s.power.cause = .insufficient && decide (10500 ≤ s.available) then s.exitW1 boot else s)

/-! ### Cold power-up (R435 to R438, R374, R375, R385) -/

/-- Step 5 of the store: half-erased sectors are erased again, and with no usable store the recorder is in volatile fallback. -/
def Store.recover (t : Store) (usable : Bool) : Store :=
  let t := { t with sectors := t.sectors.map fun _ x =>
    if x.erasing then { x with erasing := false, erased := true, erases := x.erases + 1 } else x }
  if usable then t else { t with isVolatile := true, kept := {} }

/-- The timebase at start: 1 s after the later of the newest state record and the largest LAST_TIME recovered, or 0 (R374). -/
def Store.startTime (t : Store) : Nat :=
  let times := (if t.kept.hasTimebase then [t.kept.timebase] else []) ++ (if t.isVolatile then [] else t.held_.map fun x => x.2.last)
  match times with
  | [] => 0
  | x :: r => r.foldl Nat.max x + 1000000000

/-- Every RWP value as saved, and every other object at its default (R334; 20, Table 7). -/
def State.loadSettings (s : State) : State :=
  { s with dict := { s.dict with values := rwpKeys.foldl (fun t k =>
      let v := s.dict.savedValue k.1 k.2
      if v = k.2 then t else t.put k.1 v) {}, ready := true } }

/-- Step 5: store, counts, timebase, settings; HOLM_READY, and N0 opens. -/
def State.startHolm (s : State) (usable : Bool) : State :=
  let s := s.updStore fun t => t.recover usable
  let t := s.recd.store
  let cycles := satAdd 32 t.kept.powerCycles 1
  let s := s.updClock fun c => { c with base := t.startTime, powerCycles := cycles, opSeconds := t.kept.opSeconds }
  let s := s.updStore fun t => { (t.keep [3]) with kept := { t.kept with powerCycles := cycles } }
  let s := s.loadSettings
  let s := (s.holmConfig 0).holmConfig 1
  s.updBoot fun b => { b with holmUp := true, holmReady := true }

/-- A free value of `bits` bits: the manual gives no value (log 13). -/
def State.freeValue (s : State) (bits : Nat) : Nat × State := ((Config.freeWord s.free).toNat % 2 ^ bits, { s with free := s.free + 1 })

/-- Cold power-up (20, Table 5). -/
def State.coldStart (s : State) (boot : BootFacts) : State :=
  let s := s.powerLost
  let (s, roll) := s.startSlot boot.rejected false
  let s := (List.range 4).foldl (fun s b => if (s.card b).present then s.updCard b fun x => { x with link := .training } else s) s
  if s.boot.recovery then
    let s := s.updBoot fun b => { b with holmUp := true, holmReady := true, bcUp := false, step := 4 }
    { s with dict := { s.dict with ready := true } }.holmConfig 0
  else
    let s := (((s.stepDone 1).stepDone 2).stepDone 3).stepDone 4
    let s := s.updPower fun x => { x with wafer := .w1, cause := .request }
    let s := s.startHolm boot.storeUsable
    let (cause, s) := s.freeValue 8
    let (ms, s) := s.freeValue 32
    let s := (s.lastReset 0 cause).refresh
    let s := if boot.storeUsable then s else s.emit 0x813 3 srcStore none [s.recd.store.usable]
    let s := s.emit 0xF00 1 srcHolm none [s.boot.running, ofBytes (s.slot s.boot.running).version, 0, ms]
    let s := s.reportRejected boot.rejected
    let s := match roll with
      | some vals => s.emit 0xF02 2 srcHolm none vals
      | none => s
    let s := s.switchTaken.stepDone 5
    let s := (List.range 4).foldl (fun s b => if (s.card b).present then s.updateCard b else s) s
    s.startService boot

/-- Power reaches an inlet. -/
def State.acPresent (s : State) : Bool := s.feedPresent 0 || s.feedPresent 1

/-- R435. -/
def execColdPowerUp (boot : BootFacts) (s : State) : Host.Outcome State Fault Refusal :=
  .next (if s.power.wafer = .w3 && s.acPresent && !s.boot.holmUp then s.coldStart boot else s)

/-- R475. -/
def execPowerButton (ms : Nat) (boot : BootFacts) (s : State) : Host.Outcome State Fault Refusal :=
  .next (if 100 ≤ ms && s.power.wafer = .w3 && s.acPresent && !s.boot.holmUp then s.coldStart boot else s)

/-- R435. -/
def execStartLevelLate (level : Fin 4) (s : State) : Host.Outcome State Fault Refusal :=
  .next (if s.shape.level < level.val then s.emit 0xF0D 3 srcHolm none [level.val, s.shape.shortfall] else s)

/-! ### Warm wafer reset (R440) -/

/-- RESET_REQUEST:01. In W1 steps 6 to 12 wait for the exit (DEDUCED, log 95). -/
def State.warmResetOp (ch : Channel) (boot : BootFacts) (s : State) : Performed :=
  let s := (s.emit 0xF09 2 srcHolm none [ch.ident]).forceUnloads 0xF09 fun _ _ => true
  let s := s.emptyWafer
  let s := if s.power.wafer = .w0 then s.startWafer boot false else s
  ((s.lastReset 1 2).actionDone 0xF020 1, .ok [])

def execWarmReset (req : Req) (boot : BootFacts) (s : State) : Host.Outcome State Fault Refusal :=
  .next (s.rowWrite req 0xF020 1 [1] (State.warmResetOp req.ch boot)).1

/-! ### Restarts (R439, R444 to R446) -/

/-- RESET_REQUEST:02. -/
def State.holmRestartOp (s : State) : Performed := ((s.actionDone 0xF020 2).stopHolm .request, .ok [])

def execHolmRestart (req : Req) (s : State) : Host.Outcome State Fault Refusal := .next (s.rowWrite req 0xF020 2 [1] State.holmRestartOp).1

/-- R439. -/
def execHolmWatchdog (s : State) : Host.Outcome State Fault Refusal :=
  .next (if s.boot.holmUp && !s.boot.restarting then s.stopHolm .watchdog else s)

/-- The restarted Holm's board controller component differs from the running one (R445). -/
def State.boardDiffers (s : State) (old : Nat) : Bool :=
  old != s.boot.running && (match (s.slot old).partDigest 1, (s.slot s.boot.running).partDigest 1 with
    | some a, some b => a != b
    | _, _ => true)

/-- R444. -/
def execHolmRestartComplete (rejected : List SlotCheck) (s : State) : Host.Outcome State Fault Refusal :=
  if !s.boot.restarting then .next s else
  let old := s.boot.running
  let cause := s.boot.restartCause
  let (s, roll) := s.startSlot rejected (cause == 1)
  let held := s.boot.heldEvents
  let lost := s.boot.lostEvents
  let s := s.updBoot fun b => { b with restarting := false, holmReady := true, heldEvents := [], lostEvents := 0 }
  if s.boot.recovery then .next (s.updBoot fun b => { b with bcUp := false }).refresh else
  let s := (s.lastReset 2 cause).emit 0xF07 2 srcHolm none [cause, lost]
  let s := held.foldl State.occur s
  let s := s.reportRejected rejected
  let s := match roll with
    | some vals => s.emit 0xF02 2 srcHolm none vals
    | none => s
  let s := if s.boardDiffers old then s.restartBoard .update else s
  let s := (List.range 4).foldl (fun s b => if (s.card b).present then s.updateCard b else s) s
  .next s.refresh.retryLoads

/-- RESET_REQUEST:03. -/
def State.boardRestartOp (s : State) : Performed := (((s.lastReset 3 2).restartBoard .request).actionDone 0xF020 3, .ok [])

def execBoardControllerRestart (req : Req) (s : State) : Host.Outcome State Fault Refusal :=
  .next (s.rowWrite req 0xF020 3 [1] State.boardRestartOp).1

/-- R439. -/
def execBoardControllerWatchdog (s : State) : Host.Outcome State Fault Refusal :=
  .next (if s.boot.bcUp && s.boot.holmUp then (s.lastReset 3 1).restartBoard .watchdog else s)

/-- RESET_REQUEST:04 to :07 (R446): the card is removed and inserted again. -/
def State.bridgeRestartOp (b : Nat) (s : State) : Performed :=
  let free := (List.range 16).all fun n =>
    (s.ctx (b * 16 + n)).state == .empty || (s.ctx (b * 16 + n)).state == .haltedLink
  if !free then (s, .error 9)
  else
    let x := s.card b
    let s := (s.lastReset 4 2).actionDone 0xF020 (4 + b)
    if !x.present then (s, .ok [])
    else
      let s := (s.loseCard b).updCard b fun y => { y with present := true, link := .training }
      ((s.emit 0x500 1 (srcCard b) none [b]).updateCard b, .ok [])

def execBridgeRestart (req : Req) (card : Card) (s : State) : Host.Outcome State Fault Refusal :=
  .next (s.rowWrite req 0xF020 (4 + card.val) [1] (State.bridgeRestartOp card.val)).1

/-! ### Staging and activation (R441 to R443) -/

/-- The slot that is staged: the one that does not run. -/
def State.stagedSlot (s : State) : Nat := 1 - s.boot.running

/-- FW_STAGE_BEGIN. -/
def State.stageBeginOp (v : Nat) (s : State) : Performed :=
  let s := s.updSlot s.stagedSlot fun _ => { state := .staging, length := v }
  (s.actionDone 0xF010 0, .ok [])

def execFwStageBegin (req : Req) (value : List Byte) (s : State) : Host.Outcome State Fault Refusal :=
  .next (s.rowWrite req 0xF010 0 value (State.stageBeginOp (ofBytes value))).1

/-- FW_STAGE_DATA. Offsets ascend without a gap, within IMAGE_LENGTH; a write that breaks this abandons the staging. -/
def State.stageDataOp (b : List Byte) (s : State) : Performed :=
  let n := s.stagedSlot
  let x := s.slot n
  let data := b.drop 8
  if x.state ≠ .staging || fieldAt b 4 4 ≠ 0 then (s, .error 8)
  else if fieldAt b 0 4 = x.image.length && x.image.length + data.length ≤ x.length then
    (s.updSlot n fun x => { x with image := x.image ++ data }, .ok [])
  else ((s.updSlot n fun x => { x with state := .invalid, image := [] }).emit 0xF04 3 srcHolm none [n, 4], .error 8)

def execFwStageData (req : Req) (value : List Byte) (s : State) : Host.Outcome State Fault Refusal :=
  .next (s.rowWrite req 0xF011 0 value (State.stageDataOp value)).1

/-- FW_STAGE_END: the slot is checked (R433). -/
def State.stageEndOp (s : State) : Performed :=
  let n := s.stagedSlot
  let x := s.slot n
  if x.state ≠ .staging then (s, .error 8) else
  match (if x.image.length = x.length then bundleBad x.image s.boot.secMin else some 0) with
  | none =>
    let v := (x.image.drop 16).take 16
    let s := s.updSlot n fun x => { x with state := .valid, version := v, security := fieldAt x.image 12 4, digest := sha384 (x.image.take 416) }
    ((s.actionDone 0xF012 0).emit 0xF03 1 srcHolm none [n, ofBytes v], .ok [])
  | some reason =>
    let (code, s) := s.freeValue 16
    let s := (s.updSlot n fun x => { x with state := .invalid }).setAction 0xF012 0 3 code
    (s.emit 0xF04 3 srcHolm none [n, reason], .ok [])

def execFwStageEnd (req : Req) (value : List Byte) (s : State) : Host.Outcome State Fault Refusal :=
  .next (s.rowWrite req 0xF012 0 value State.stageEndOp).1

/-- FW_ACTIVATE (R442). -/
def State.activateOp (n : Nat) (s : State) : Performed :=
  if (s.slot 0).state = .staging || (s.slot 1).state = .staging then (s, .error 9)
  else if n = s.boot.running || (s.slot n).state ≠ .valid then (s, .error 8)
  else
    let s := s.updBoot fun b => { b with trial := some n, attempts := 0 }
    let s := (s.actionDone 0xF013 0).emit 0xF05 1 srcHolm none [n, ofBytes (s.slot n).version]
    (s.stopHolm .update, .ok [])

def execFwActivate (req : Req) (value : List Byte) (s : State) : Host.Outcome State Fault Refusal :=
  .next (s.rowWrite req 0xF013 0 value (State.activateOp (ofBytes value))).1

/-- The trial slot is confirmed. Cause 0 write, 1 time. -/
def State.confirm (s : State) (cause : Nat) : State :=
  match s.boot.trial with
  | none => s
  | some t =>
    if s.boot.running ≠ t then s
    else
      (s.updBoot fun b => { b with active := t, trial := none, attempts := 0 }).emit 0xF06 1 srcHolm none
        [t, ofBytes (s.slot t).version, cause]

/-- FW_CONFIRM. With no trial running there is nothing to confirm (log 97). -/
def State.confirmOp (s : State) : Performed := ((s.confirm 0).actionDone 0xF014 0, .ok [])

def execFwConfirm (req : Req) (value : List Byte) (s : State) : Host.Outcome State Fault Refusal :=
  .next (s.rowWrite req 0xF014 0 value State.confirmOp).1

/-- R442: 300 s at S1 or above. -/
def execFwTrialTimer (s : State) : Host.Outcome State Fault Refusal :=
  .next (if 1 ≤ s.shape.level && !s.boot.restarting then s.confirm 1 else s)

/-- SECURITY_VERSION_COMMIT (R443), refused while the running slot is not confirmed. -/
def State.commitOp (s : State) : Performed :=
  if s.boot.trial == some s.boot.running then (s, .error 8)
  else
    let v := (s.slot s.boot.running).security
    let s := s.updBoot fun b => { b with
      secMin := Nat.max b.secMin v
      slots := b.slots.map fun _ x => if x.state = .valid && decide (x.security < v) then { x with state := .invalid } else x }
    ((s.actionDone 0xF016 0).emit 0xF0C 2 srcHolm none [s.boot.secMin], .ok [])

def execSecurityVersionCommit (req : Req) (value : List Byte) (s : State) : Host.Outcome State Fault Refusal :=
  .next (s.rowWrite req 0xF016 0 value State.commitOp).1

end Sys2Proof.Machine
end

