-- ==== Sys2Proof/Machine/Inject.lean ====
section
/-! DEFINITION. Provoked faults and loopbacks (21). -/

namespace Sys2Proof.Machine

def State.updInject (s : State) (f : InjectSt → InjectSt) : State := { s with inject := f s.inject }

/-! ### Injection points (R450) -/

/-- Table 2: is the combination of target, layer, direction and action allowed? An action not yet written (0) stands for any. -/
def comboOk (p : PointSt) : Bool :=
  let any_ (l : List Nat) : Bool := p.action == 0 || l.contains p.action
  match p.target, p.layer with
  | 0, _ => true
  | 1, 0 => true
  | 1, 1 | 1, 2 => p.dir == 1 && any_ [1, 3]
  | 2, 0 => any_ [2, 3]
  | 2, 3 => true
  | 3, 0 => true
  | _, _ => false

/-- Instance and flip positions fit the target; a target not yet written (0) takes the widest. -/
def targetFits (p : PointSt) : Bool :=
  decide (p.inst < (if p.target = 1 then 128 else if p.target = 3 then 4 else 144)) &&
    (if p.target = 2 then decide (p.flips.length ≤ 2) && p.flips.all (fun f => decide (f < 72)) else p.flips.all fun f => decide (f < 2048))

/-- The point with one field written, where the value is in the field's range (Table 1). -/
def PointSt.put (p : PointSt) (sub : Nat) (b : List Byte) : Option PointSt :=
  let v := ofBytes b
  let ok (c : Bool) (q : PointSt) : Option PointSt := if c then some q else none
  match sub with
  | 1 => some { p with enable := v == 1 }
  | 2 => ok (!(beyond v 1 3)) { p with target := v }
  | 3 => some { p with inst := v }
  | 4 => ok (decide (v ≤ 1)) { p with dir := v }
  | 5 => ok (decide (v ≤ 3)) { p with layer := v }
  | 6 => ok (!(beyond v 1 3)) { p with action := v }
  | 7 => ok (!(beyond v 1 2)) { p with mode := v }
  | 8 => some { p with skip := v }
  | 9 => ok (decide (1 ≤ v)) { p with amount := v }
  | _ => some { p with flips := (List.range (b.length / 2)).map fun n => fieldAt b (2 * n) 2 }

/-- INJECT_POINT. -/
def State.pointOp (n sub : Nat) (b : List Byte) (s : State) : Performed :=
  if s.inject.armed then (s, .error 9) else
  match (s.inject.points.get {} n).put sub b with
  | some p => if comboOk p && targetFits p then (s.updInject fun x => { x with points := x.points.put n p }, .ok []) else (s, .error 8)
  | none => (s, .error 8)

def execInjectPoint (req : Req) (point : Fin 16) (sub : Byte) (value : List Byte) (s : State) : Host.Outcome State Fault Refusal :=
  .next (s.rowWrite req (0xA010 + point.val) sub.toNat value (State.pointOp point.val sub.toNat value)).1

/-! ### Arming (R456) -/

def State.enabledPoints (s : State) : List Nat := (List.range 16).filter fun n => (s.inject.points.get {} n).enable

/-- INJECT_ARM 1. -/
def State.armOp (ch : Channel) (s : State) : Performed :=
  let on := s.enabledPoints
  if on.isEmpty then (s, .error 8)
  else
    let s := s.updInject fun x => { x with
      armed := true, time := s.clock.base, chan := ch.ident
      points := x.points.map fun _ p => { p with injected := 0, eligible := 0, holding := false } }
    ((s.actionDone 0xA000 0).emit 0xA00 2 srcHolm none [ch.ident, on.foldl setBit 0], .ok [])

def execInjectArm (req : Req) (s : State) : Host.Outcome State Fault Refusal :=
  .next (s.rowWrite req 0xA000 0 [1] (State.armOp req.ch)).1

/-- INJECT_ARM 0. -/
def State.disarmOp (s : State) : Performed := ((s.disarm 0).actionDone 0xA000 0, .ok [])

def execInjectDisarm (req : Req) (s : State) : Host.Outcome State Fault Refusal := .next (s.rowWrite req 0xA000 0 [0] State.disarmOp).1

def execInjectArmLimitExpiry (s : State) : Host.Outcome State Fault Refusal := .next (s.disarm 1)

/-! ### Loopbacks (R459) -/

def loopSrc (target inst : Nat) : Source :=
  if target = 1 then srcPort inst else if target = 2 then srcIn 0xFF 8 inst else srcCard inst

def State.loopOn (s : State) (target inst : Nat) : Bool := s.inject.loops.any fun l => l.target == target && l.inst == inst

/-- A link that was up over a loopback starts again (R459). -/
def State.loopLink (s : State) (target inst : Nat) : State :=
  if target = 1 && (s.port inst).link != .down && (s.port inst).link != .training then s.linkReset inst .training else s

def State.startLoop (s : State) (target inst mode : Nat) : State :=
  let s := s.loopLink target inst
  (s.updInject fun x => { x with loops := x.loops ++ [⟨target, inst, mode⟩] }).emit 0xA03 1 (loopSrc target inst) none [target, inst, mode]

/-- A loopback ends with what it compared. -/
def State.endLoop (s : State) (target inst bits errors : Nat) : State :=
  let s := s.updInject fun x => { x with
    loops := x.loops.filter fun l => !(l.target == target && l.inst == inst)
    resTarget := target, resInst := inst, resBits := bits, resErrors := errors }
  (s.loopLink target inst).emit 0xA04 1 (loopSrc target inst) none [target, inst, bits, errors]

/-- A loopback object (R459): 0 ends a loopback, whose counts are then free values (log 98); `busy` refuses a start. -/
def State.loopOp (idx target inst v : Nat) (busy : Bool) (s : State) : Performed :=
  if v = 0 then
    if s.loopOn target inst then
      let (bits, errors) := ((Config.freeWord s.free).toNat, (Config.freeWord (s.free + 1)).toNat)
      (({ s with free := s.free + 2 }.endLoop target inst bits errors).actionDone idx (inst + 1), .ok [])
    else (s.actionDone idx (inst + 1), .ok [])
  else if busy || s.loopOn target inst then (s, .error 9)
  else ((s.startLoop target inst v).actionDone idx (inst + 1), .ok [])

def State.straitLoopOp (port v : Nat) (s : State) : Performed :=
  s.loopOp 0xA040 1 port v (s.loaded.any fun cp => cp.2.usesPort port)

def execStraitLoopback (req : Req) (port : Port) (value : List Byte) (s : State) : Host.Outcome State Fault Refusal :=
  .next (s.rowWrite req 0xA040 (port.val + 1) value (State.straitLoopOp port.val (ofBytes value))).1

def State.shoreLoopOp (b v : Nat) (s : State) : Performed :=
  s.loopOp 0xA041 3 b v ((List.range 16).any fun n => (s.ctx (b * 16 + n)).state != .empty)

def execShoreLoopback (req : Req) (card : Card) (value : List Byte) (s : State) : Host.Outcome State Fault Refusal :=
  .next (s.rowWrite req 0xA041 (card.val + 1) value (State.shoreLoopOp card.val (ofBytes value))).1

def State.soundLoopOp (n v : Nat) (s : State) : Performed := s.loopOp 0xA042 2 n v ((s.sound n).state != .out)

def execSoundLoopback (req : Req) (sound : SoundId) (value : List Byte) (s : State) : Host.Outcome State Fault Refusal :=
  .next (s.rowWrite req 0xA042 (sound.val + 1) value (State.soundLoopOp sound.val (ofBytes value))).1

/-- R459: the loopback that has run longest ends after LOOPBACK_DURATION. -/
def execLoopbackDurationExpiry (bits errors : Nat) (s : State) : Host.Outcome State Fault Refusal :=
  match s.inject.loops with
  | [] => .next s
  | l :: _ => .next (s.endLoop l.target l.inst bits errors)

end Sys2Proof.Machine
end

