-- ==== Sys2Proof/Machine/Narrows.lean ====
section
/-! DEFINITION. The Narrows commands (16). -/

namespace Sys2Proof.Machine

/-- R350, R353, R354: a character while the port drives N0 without ECHO places no entry (R356); what the console receives is counted and
discarded (R365). -/
def execRxCharacter (port : Fin 2) (c : RxChar) (s : State) : Host.Outcome State Fault Refusal :=
  let p := port.val
  let x := s.uart p
  if !(x.ctl 0) || p == 0 && x.shifter.isSome && !(x.ctl 5) then .next s else
  let s := s.updUart p (·.count 1)
  if p = 1 && s.uartOwner 1 == 0 then .next (s.updUart p (·.count 10)) else
  let data := c.data.toNat % 2 ^ x.width
  let e := data + (if c.framing then 2 ^ 9 else 0) + (if c.parityErr then 2 ^ 10 else 0) + (if c.idleBefore then 2 ^ 14 else 0)
  if x.ctl 2 && bit data 8 then
    if x.matches_ data then .next ((s.updUart p fun x => { x with muted := false }).placeEntry p (e + 2 ^ 12))
    else .next (s.updUart p fun x => { x with muted := true })
  else if x.muted && !(bit data 8) then .next (s.updUart p (·.count 7))
  else .next (s.placeEntry p e)

/-- R351. -/
def execRxBreak (port : Fin 2) (s : State) : Host.Outcome State Fault Refusal :=
  let p := port.val
  let x := s.uart p
  if !(x.ctl 0) || p == 0 && x.shifter.isSome && !(x.ctl 5) then .next s
  else if p = 1 && s.uartOwner 1 == 0 then .next s
  else if x.muted then .next (s.updUart p (·.count 7))
  else .next (s.placeEntry p (2 ^ 9 + 2 ^ 11))

/-- R359: the timeout flush. -/
def execRxTimeout (port : Fin 2) (s : State) : Host.Outcome State Fault Refusal :=
  let s := s.dmaRun port.val
  if (s.uart port.val).rxEn && (s.uart port.val).timeoutEn then .next (s.closeBlock port.val 1) else .next s

/-- The value of a register read by a master leaves the unit. -/
def State.uartOut (s : State) (p v : Nat) : State := { s with out := { s.out with uart := s.out.uart ++ [(p, v)] } }

/-- An entry has been shifted out on a port's line. -/
def State.lineOut (s : State) (p e : Nat) : State := { s with out := { s.out with line := s.out.line ++ [(p, e)] } }

/-- R357: the owner's read pops an entry and clears the RC flags of the mask; a non-owner's read shows the oldest entry and pops nothing
(R343). -/
def execUartDataRead (port : Fin 2) (by_ : UartMaster) (s : State) : Host.Outcome State Fault Refusal :=
  let p := port.val
  let x := s.uart p
  let v := if x.rxEn then 0x8000 else x.rx.headD 0x8000
  let s := s.uartOut p v
  if !(s.ownsUart p by_) then .next s
  else .next (s.updUart p fun x => { x with
    flags := [4, 5, 6, 7].foldl (fun f n => if bit x.mask n then clearBit f n else f) x.flags, mask := 0
    rx := if x.rxEn then x.rx else x.rx.tail })

/-- R355. -/
def execUartDataWrite (port : Fin 2) (by_ : UartMaster) (value : BitVec 32) (s : State) : Host.Outcome State Fault Refusal :=
  if s.ownsUart port.val by_ then .next (s.updUart port.val fun x => x.push port.val value.toNat) else .next s

/-- R357. -/
def execUartStatusRead (port : Fin 2) (by_ : UartMaster) (s : State) : Host.Outcome State Fault Refusal :=
  let p := port.val
  let v := (s.uart p).status p
  let s := s.uartOut p v
  if s.ownsUart p by_ then .next (s.updUart p fun x => { x with mask := v }) else .next s

/-- R355, R356, R361. -/
def execTxCharacterSent (port : Fin 2) (mismatch : Bool) (s : State) : Host.Outcome State Fault Refusal :=
  let p := port.val
  let x := s.uart p
  match x.shifter with
  | none => .next s
  | some (e, dma) =>
    if mismatch && p == 0 && !(x.ctl 5) then
      let left := 1 + x.tx.length + x.txLeft.length
      let s := s.updUart p fun x => { (x.flag 13).count 9 with shifter := none, tx := [], txLeft := [], txEn := false }
      .next (s.emit 0x906 2 (srcUart p) none [p, left])
    else
      let done (x : UartSt) : UartSt :=
        if !(dma && x.txEn) then x
        else if x.txLeft.isEmpty && !(x.tx.any (·.2)) then { (x.flag 12) with txSent := x.txSent + 1, txEn := false }
        else { x with txSent := x.txSent + 1 }
      .next ((s.updUart p fun x => (done { (x.count 2) with shifter := none }).start p).lineOut p e)

/-- R354. -/
def execMuteNow (port : Fin 2) (by_ : UartMaster) (s : State) : Host.Outcome State Fault Refusal :=
  if s.ownsUart port.val by_ then .next (s.updUart port.val fun x => { x with muted := true }) else .next s

/-- R366; 16, Table 10. -/
def execRxFlush (port : Fin 2) (by_ : UartMaster) (s : State) : Host.Outcome State Fault Refusal :=
  if s.ownsUart port.val by_ then .next (s.updUart port.val fun x => { x with rx := [] }) else .next s

/-- TX_FLUSH: the FIFO is empty, and transmit DMA goes on with what it has still to push (R361; 16, Table 10). -/
def UartSt.flushTx (p : Nat) (x : UartSt) : UartSt := ({ x with tx := [] }).fill.start p

/-- R366: the character in the shifter completes. -/
def execTxFlush (port : Fin 2) (by_ : UartMaster) (s : State) : Host.Outcome State Fault Refusal :=
  if s.ownsUart port.val by_ then .next (s.updUart port.val fun x => x.flushTx port.val) else .next s

/-- RXDMA_CTRL EN takes a value (R359, R360): what the FIFO holds is written first; a stop closes the block with DISABLED. -/
def State.rxDma (s : State) (p : Nat) (en : Bool) : State :=
  if en = (s.uart p).rxEn then s
  else if en then (s.updUart p fun x => { x with rxEn := true, wptr := 0, seq := 0, block := none }).dmaRun p
  else (s.closeBlock p 4).updUart p fun x => { x with rxEn := false }

/-- R360. -/
def execRxdmaEnable (port : Fin 2) (by_ : UartMaster) (en : Bool) (s : State) : Host.Outcome State Fault Refusal :=
  if s.ownsUart port.val by_ then .next (s.rxDma port.val en) else .next s

/-- R359. -/
def execRxdmaClose (port : Fin 2) (by_ : UartMaster) (s : State) : Host.Outcome State Fault Refusal :=
  if s.ownsUart port.val by_ && (s.uart port.val).rxEn then .next (s.closeBlock port.val 4) else .next s

/-- R361: `bytes` is what transmit DMA reads from TXDMA_BASE. A count of 0 is out of range (R362). -/
def execTxdmaEnable (port : Fin 2) (by_ : UartMaster) (en : Bool) (bytes : List Byte) (s : State) :
    Host.Outcome State Fault Refusal :=
  let p := port.val
  let x := s.uart p
  let z := if x.txTagged || decide (8 < x.width) then 2 else 1
  if !(s.ownsUart p by_) then .next s
  else if !en then .next (s.updUart p fun x => { x with txEn := false, txLeft := [] })
  else if x.txEn then .next s
  else if x.txCount = 0 || x.txTagged && x.txBase % 2 == 1 then .next (s.updUart p (·.refuse))
  else if bytes.length ≠ x.txCount * z then .next s
  else
    let cs := (List.range x.txCount).map fun i =>
      let v := fieldAt bytes (i * z) z
      v % 512 + (if x.txTagged && bit v 11 then 2048 else 0)
    .next (s.updUart p fun x => ({ x with txEn := true, txSent := 0, txLeft := cs }).fill.start p)

/-- NARROWS_OWNER (R343): a bridge that is present, or the Holm. -/
def State.ownerOp (v : Nat) (s : State) : Performed := if v = 0 || (s.card (v - 1)).present then (s, .ok []) else (s, .error 8)

/-- N0_BAUD (R363). -/
def State.baudOp (v : Nat) (s : State) : Performed := (s.setObj 0x9003 0 v, .ok [])

/-- What an accepted write does after its reply: a port changes hands (R344, R345), and N0 takes its new rate (R363). -/
def State.afterWrite (s : State) (idx sub v : Nat) : State :=
  if idx = 0x9000 then s.setUartOwner (sub - 1) v
  else if idx = 0x9003 then
    (if s.uartOwner 0 = 0 && s.dict.ready then s.updUart 0 fun x => { x with baud := baudOf (s.obj 0x9003 0) } else s)
  else s

/-- A write whose effect may follow its reply. -/
def State.writeThen (s : State) (req : Req) (idx sub : Nat) (value : List Byte) (act : State → Performed) : State :=
  let r := s.rowWrite req idx sub value act
  if r.2 then r.1.afterWrite idx sub (ofBytes value) else r.1

/-- R343 to R345. -/
def execNarrowsOwner (req : Req) (port : Fin 2) (value : List Byte) (s : State) : Host.Outcome State Fault Refusal :=
  .next (s.writeThen req 0x9000 (port.val + 1) value (State.ownerOp (ofBytes value)))

/-- R363. -/
def execN0Baud (req : Req) (value : List Byte) (s : State) : Host.Outcome State Fault Refusal :=
  .next (s.writeThen req 0x9003 0 value (State.baudOp (ofBytes value)))

/-- R364, R470. -/
def execDipSwitchChange (value : Byte) (s : State) : Host.Outcome State Fault Refusal :=
  if !s.boot.holmUp then .next { s with rack := { s.rack with dip := value.toNat } } else
  let old := s.nodeAddr.1
  let s := { s with rack := { s.rack with dip := value.toNat } }
  let s := if 248 ≤ value.toNat then s.emit 0x909 2 (srcUart 0) none [value.toNat] else s
  .next (s.nodeChanged old)

/-- R355: a held character may start. -/
def execCtsChange (active : Bool) (s : State) : Host.Outcome State Fault Refusal :=
  .next (s.updUart 1 fun x => ({ x with cts := active }).start 1)

/-! ### Register writes (R362; 16, Tables 8 to 10) -/

/-- UART_CONTROL. Its WO bits act as the rows of their own do. -/
def UartSt.writeControl (p : Nat) (x : UartSt) (v : Nat) : UartSt :=
  if bit v 2 && decide (x.width < 9) then x.refuse else
  let keep := v % 16 + (if p = 0 && bit v 5 then 32 else 0) + (if p = 1 && bit v 6 then 64 else 0)
  let x := { x with control := keep, muted := x.muted || bit v 4 }
  let x := if bit v 7 then { x with rx := [] } else x
  if bit v 8 then x.flushTx p else x.start p

def UartSt.writeFormat (x : UartSt) (v : Nat) : UartSt :=
  if beyond (v % 16) 5 9 || decide (4 < bits v 6 4) || decide (bits v 8 7 = 3) then x.refuse
  else { x with format := v % 128 + bits v 8 7 * 128 }

def UartSt.writeBaud (x : UartSt) (v : Nat) : UartSt :=
  let div := bits v 21 6
  if beyond div 1 40000 || div == 40000 && v % 64 != 0 then x.refuse else { x with baud := v % 2 ^ 22 }

/-- RXDMA_CTRL: [3:1] are locked while EN is 1 (R360). -/
def State.writeRxCtrl (s : State) (p v : Nat) : State :=
  let x := s.uart p
  let same := bit v 1 == x.rxTagged && bit v 2 == x.addrSplit && bit v 3 == x.timeoutEn
  if x.rxEn && bit v 0 && !same then s.updUart p (·.refuse)
  else
    let s := if bit v 4 && x.rxEn then s.closeBlock p 4 else s
    if x.rxEn then s.rxDma p (bit v 0)
    else (s.updUart p fun x => { x with rxTagged := bit v 1, addrSplit := bit v 2, timeoutEn := bit v 3 }).rxDma p (bit v 0)

/-- A write of a register of a port's block by its owner. The start of transmit DMA is a row of its own, so EN of TXDMA_CTRL only stops
it here. -/
def State.uartWrite (s : State) (p off v : Nat) : State :=
  let x := s.uart p
  let w := v % 2 ^ 32
  let put (ok : Bool) (f : UartSt → UartSt) : State := s.updUart p fun x => if ok then f x else x.refuse
  match off with
  | 0x000 => s.updUart p fun x => x.push p w
  | 0x004 => s.updUart p fun x => { x with flags := (List.range 7).foldl (fun f n => if bit w (n + 8) then clearBit f (n + 8) else f) x.flags }
  | 0x008 => s.updUart p fun x => x.writeControl p w
  | 0x00C => s.updUart p fun x => x.writeFormat w
  | 0x010 => s.updUart p fun x => x.writeBaud w
  | 0x014 => put (!(beyond (w % 256) 1 247)) fun x => { x with node := w % 256 }
  | 0x018 => put (decide (w / 2 ^ 24 ≠ 0)) fun x => { x with timing := w }
  | 0x020 => s.updUart p fun x => { x with irqEn := w % 65536 }
  | 0x040 => put (!x.rxEn && v % 16 == 0) fun x => { x with rxBase := v }
  | 0x048 => put (!x.rxEn && !(beyond w 32 16777216) && w % 16 == 0) fun x => { x with rxLen := w }
  | 0x04C => s.writeRxCtrl p w
  | 0x050 => put (!x.rxEn && !(beyond w 1 65535)) fun x => { x with rxBlock := w }
  | 0x054 => put (!(beyond w 8 65535)) fun x => { x with rxTimeout := w }
  | 0x060 => put (!(x.txTagged && v % 2 == 1)) fun x => { x with txBase := v }
  | 0x068 => put (!(beyond w 1 65535)) fun x => { x with txCount := w }
  | 0x06C => s.updUart p fun x =>
      if bit w 0 then { x with txTagged := if x.txEn then x.txTagged else bit w 1 }
      else { x with txTagged := bit w 1, txEn := false, txLeft := [] }
  | _ => s

end Sys2Proof.Machine
end

