-- ==== Sys2Proof/Machine/Rack.lean ====
section
/-! DEFINITION. The unit's front and rear (22). -/

namespace Sys2Proof.Machine

def State.updRack (s : State) (f : RackSt → RackSt) : State := { s with rack := f s.rack }

/-- LOCATE (R474): the seconds that the indicator blinks, 0 while it does not. -/
def State.locateOp (v : Nat) (s : State) : Performed := (s.setObj 0x2060 0 v, .ok [])

def execLocate (req : Req) (value : List Byte) (s : State) : Host.Outcome State Fault Refusal :=
  .next (s.rowWrite req 0x2060 0 value (State.locateOp (ofBytes value))).1

/-- R474. -/
def execLocateExpiry (s : State) : Host.Outcome State Fault Refusal := .next (s.setObj 0x2060 0 0)

/-- LAMP_TEST (R474). -/
def State.lampTestOp (s : State) : Performed := ((s.updRack fun x => { x with lampTest := true }).setAction 0x2061 0 1 0, .ok [])

def execLampTest (req : Req) (value : List Byte) (s : State) : Host.Outcome State Fault Refusal :=
  .next (s.rowWrite req 0x2061 0 value State.lampTestOp).1

/-- R474. -/
def execLampTestEnd (s : State) : Host.Outcome State Fault Refusal :=
  .next (if s.rack.lampTest then (s.updRack fun x => { x with lampTest := false }).actionDone 0x2061 0 else s)

/-- R468. -/
def execTerminationSwitchChange (position : Fin 3) (s : State) : Host.Outcome State Fault Refusal :=
  .next (s.updRack fun x => { x with termination := position.val })

/-! ### Indicators (22, Tables 7 and 8)

INDICATORS shows POWER, SERVICE, FAULT and TIME. The others are functions of the state; the PTP jack's follow signals the state does not
hold (log 182). -/

/-- What an indicator shows. -/
inductive Lamp where
  | off | green | amber | blue | blueBlinking
deriving DecidableEq, Repr

/-- While neither slot of the board controller is valid, every indicator but FAULT is off (R473). -/
def State.lamp (s : State) (l : Lamp) : Lamp := if s.boot.recovery then .off else l

def State.locateLamp (s : State) : Lamp := s.lamp (if s.obj 0x2060 0 ≠ 0 then .blueBlinking else .off)

/-- Ports of a cassette. -/
def cassettePorts (c : Nat) : List Nat := (List.range 16).map (c * 16 + ·)

/-- An amber condition of a port: loss of light, retraining, FENCED, DOWN, or UP with fewer than 31 lanes. -/
def PortSt.amber (x : PortSt) : Bool :=
  x.optic == .loss || x.optic == .down || x.link == .retraining || x.link == .fenced || x.link == .up && decide (x.lanes.length < 31)

/-- Cassette status. Table 7 gives both Amber and Off to a cassette whose ports are all DOWN: amber here (DESIGN CHOICE, log 182). -/
def State.cassetteLamp (s : State) (c : Nat) : Lamp :=
  s.lamp (if (cassettePorts c).any fun p => (s.port p).amber then .amber
    else if (cassettePorts c).any fun p => (s.port p).link == .up then .green else .off)

def State.cassetteRemoveLamp (s : State) (c : Nat) : Lamp :=
  s.lamp (if (cassettePorts c).any fun p => s.loaded.any fun cp => cp.2.usesPort p then .off else .blue)

def State.supplyLamp (s : State) (n : Nat) : Lamp :=
  s.lamp (match (s.supply n).state with
    | .absent => .off
    | .healthy => .green
    | .noAc | .failed => .amber)

def State.fanLamp (s : State) (n : Nat) : Lamp :=
  s.lamp (match (s.power.fans.get {} n).state with
    | .absent => .off
    | .running => .green
    | .failed => .amber)

/-- Bridge LINK. The width and rate of the PCIe link are free readings of BRIDGE_STATUS (log 74); width 0 is a link that is down. -/
def State.bridgeLamp (s : State) (b : Nat) : Lamp :=
  let width := s.sense (objKey (0x5000 + b) 4) % 256
  s.lamp (if !(s.card b).present || width == 0 then .off
    else if width = 16 ∧ s.sense (objKey (0x5000 + b) 5) % 256 = 32 then .green else .amber)

def State.bridgeRemoveLamp (s : State) (b : Nat) : Lamp :=
  s.lamp (if (List.range 16).all fun n => (s.ctx (b * 16 + n)).state == .empty || (s.ctx (b * 16 + n)).state == .haltedLink
    then .blue else .off)

end Sys2Proof.Machine
end

