-- ==== Sys2Proof/Machine/Wailest.lean ====
section
/-! DEFINITION. The Wailest commands (15) but for writes: reads, blocks, notifications, sessions, persistence. Requests that the recovery server
does not serve (R448) are answered UNKNOWN_FUNCTION (log 79). -/

namespace Sys2Proof.Machine

/-! ### Reads (R327, R330, R339) -/

/-- An object as a read finds it; each read of SESSION_CHALLENGE is a new challenge (R336). -/
def State.readMember (ch : Channel) (idx sub : Nat) (s : State) : State × Except Nat Member :=
  match s.lookup ch idx sub with
  | .error e => (s, .error e)
  | .ok m =>
    if !(s.readable idx m) then (s, .error 5)
    else if idx = 0x1010 then match s.challenge ch with
      | (s, .ok n) => (s, .ok (mBlob n))
      | (s, .error e) => (s, .error e)
    else (s, .ok m)

def rflags (m : Member) : List Byte := [if m.testing then 1 else 0]

def State.readOp (ch : Channel) (idx sub : Nat) (s : State) : Performed :=
  match s.readMember ch idx sub with
  | (t, .ok m) => if 238 < m.value.length then (s, .error 0x0C) else (t, .ok (rflags m ++ leBytes 1 m.typ ++ m.value))
  | (t, .error e) => (t, .error e)

/-- R327. -/
def execWailestRead (req : Req) (obj : ObjName) (s : State) : Host.Outcome State Fault Refusal :=
  .next (s.serve req 1 obj.index.toNat obj.sub.toNat [] (State.readOp req.ch obj.index.toNat obj.sub.toNat))

/-- The reply of a READ_BLOCK out of the held snapshot, with the RFLAGS that the object shows now. -/
def State.segment (ch : Channel) (idx sub offset count : Nat) (s : State) : Performed :=
  match (s.chan ch.num).snapshot, s.lookup ch idx sub with
  | some b, .ok m =>
    if b.index = idx && b.sub = sub && decide (offset < b.data.length) then
      (s, .ok (rflags m ++ leBytes 4 b.data.length ++ slice b.data offset count))
    else if b.index = idx && b.sub = sub then (s, .error 0x0B)
    else (s.updChan ch.num fun c => { c with snapshot := none }, .error 0x0B)
  | _, _ => (s, .error 0x0B)

/-- R330. A COUNT of 0 or above 232 is refused (R7). -/
def State.readBlockOp (ch : Channel) (idx sub offset count : Nat) (s : State) : Performed :=
  match s.lookup ch idx sub with
  | .error e => (s, .error e)
  | .ok _ =>
    if s.boot.recovery then (s, .error 1)
    else if beyond count 1 232 then (s, .error 8)
    else if offset ≠ 0 then s.segment ch idx sub offset count
    else match s.readMember ch idx sub with
      | (s, .ok m) => (s.updChan ch.num fun c => { c with snapshot := some ⟨idx, sub, m.value⟩ }).segment ch idx sub 0 count
      | (s, .error e) => (s.updChan ch.num fun c => { c with snapshot := none }, .error e)

def execReadBlock (req : Req) (obj : ObjName) (offset : BitVec 32) (count : Byte) (s : State) : Host.Outcome State Fault Refusal :=
  .next (s.serve req 3 obj.index.toNat obj.sub.toNat (leBytes 4 offset.toNat ++ [count])
    (State.readBlockOp req.ch obj.index.toNat obj.sub.toNat offset.toNat count.toNat))

/-! ### Notifications (R332) -/

/-- The NOTIFY_OVERFLOW record of a channel's losses. -/
def State.overflowRec (s : State) (ch : Channel) (l : Losses) : Rec :=
  s.form 2 0xF46 1 srcHolm none l.first l.last false (.values [ch.ident, l.count, l.first, l.last])

/-- TAKEN acknowledges the first records of the previous reply. -/
def ChanSt.take (c : ChanSt) (taken : Nat) : ChanSt :=
  let k := if c.sentOverflow then taken - 1 else taken
  let gone := ((c.sentAlive.take k).filter (·)).length
  let c := { c with queue := c.queue.drop gone }
  if c.sentOverflow && decide (1 ≤ taken) then { c with overflow := c.overflowNext, overflowNext := none } else c

def ChanSt.sent (c : ChanSt) : Nat := (if c.sentOverflow then 1 else 0) + c.sentAlive.length

def State.notifyOp (ch : Channel) (taken : Nat) (s : State) : Performed :=
  let n := ch.num
  if s.boot.recovery then (s, .error 1)
  else if (s.chan n).sent < taken then (s, .error 8)
  else
    let c := (s.chan n).take taken
    let missed := (c.overflow.map (s.overflowRec ch)).toList
    let recs := c.queue.take (3 - missed.length)
    let c := { c with
      sentOverflow := c.overflow.isSome, sentAlive := recs.map fun _ => true
      overflow := c.overflow.map fun l => { l with delivered := true } }
    (s.updChan n fun _ => c, .ok (leBytes 2 (c.queue.length - recs.length) ++ (missed ++ recs).flatMap Rec.bytes))

def execNotify (req : Req) (taken : Byte) (s : State) : Host.Outcome State Fault Refusal :=
  .next (s.serve req 5 0 0 [taken] (State.notifyOp req.ch taken.toNat))

/-! ### Sessions (R336, R337) -/

/-- R336 step 1. -/
def execSessionChallenge (req : Req) (byRead : Bool) (s : State) : Host.Outcome State Fault Refusal :=
  if byRead then .next (s.serve req 1 0x1010 0 [] (State.readOp req.ch 0x1010 0))
  else .next (s.serve req 6 0 0 [1] fun s => s.challenge req.ch)

/-- R336 steps 2 and 3. -/
def execSessionResponse (req : Req) (byWrite : Bool) (response : List Byte) (s : State) : Host.Outcome State Fault Refusal :=
  if byWrite then .next (s.rowWrite req 0x1011 0 response fun s => s.respond req.ch response).1
  else .next (s.serve req 6 0 0 ([2] ++ response) fun s => if response.length = 32 then s.respond req.ch response else (s, .error 2))

/-- R337. -/
def execSessionClose (req : Req) (s : State) : Host.Outcome State Fault Refusal :=
  .next (s.serve req 6 0 0 [3] fun s => (s.endSession req.ch.num, .ok []))

/-- R336. -/
def execSessionStateQuery (req : Req) (s : State) : Host.Outcome State Fault Refusal :=
  .next (s.serve req 6 0 0 [4] fun s => (s, .ok (leBytes 1 (s.chan req.ch.num).sessionState)))

/-- R322: is a received frame discarded, and counted? -/
def frameDiscarded (f : N0Frame) : Bool :=
  f.charError || f.gap || f.cut || decide (240 < fieldAt f.bytes 2 1) || !(n0Good f.bytes)
/-- R320 to R322, R327: a frame to this node or to all arrives on N0, and no function of Table 4 performs it: it is discarded and counted, or
silently where its REPLY bit is set, or refused. A frame that a function performs is the operands of that function's row (log 174). -/
def execFrameDiscard (frame : N0Frame) (s : State) : Host.Outcome State Fault Refusal :=
  let (b, address) := (frame.bytes, fieldAt frame.bytes 0 1)
  if !(s.hears .n0) || address != 0 && address != s.nodeAddr.1 then .next s
  else if frameDiscarded frame then .next { s with dict := { s.dict with n0Discards := satAdd 32 s.dict.n0Discards 1 } }
  else if bit (fieldAt b 1 1) 5 then .next s
  else
    let payload := slice b 3 (fieldAt b 2 1)
    match frameError (fieldAt b 1 1) payload with
    | some e => .next (s.refuseFrame .n0 (address == 0) (fieldAt b 1 1) payload e)
    | none => .next s

/-- R330. -/
def execSnapshotTimeout (ch : Channel) (s : State) : Host.Outcome State Fault Refusal :=
  .next (s.updChan ch.num fun c => { c with snapshot := none })

/-- R331. -/
def execBlockWriteTimeout (ch : Channel) (s : State) : Host.Outcome State Fault Refusal :=
  .next (s.updChan ch.num fun c => { c with block := none })

/-- R337. -/
def execSessionExpiry (ch : Channel) (s : State) : Host.Outcome State Fault Refusal :=
  .next (if (s.chan ch.num).session = .custodian then s.endSession ch.num else s)

/-- R337. -/
def execSessionLockExpiry (ch : Channel) (s : State) : Host.Outcome State Fault Refusal :=
  .next (s.updChan ch.num fun c => { c with locked := false })

/-! ### Persistence and keys (R334, R335, R338) -/

def State.saveOp (s : State) : Performed :=
  let generation := match s.dict.saved with
    | some c => c.generation + 1
    | none => 1
  let copy : SavedCopy := ⟨generation, s.dict.values.keep fun k _ => isRwp k⟩
  ({ s with dict := { s.dict with saving := some copy } }.setAction 0x1020 0 1 0, .ok [])

/-- R334: SAVE starts. -/
def execSave (req : Req) (value : List Byte) (s : State) : Host.Outcome State Fault Refusal :=
  .next (s.rowWrite req 0x1020 0 value State.saveOp).1

/-- R334: SAVE ends. The flash status of SETTINGS_SAVE_FAILED has no value in the manual (log 11). -/
def execSaveComplete (ok : Bool) (s : State) : Host.Outcome State Fault Refusal :=
  match s.dict.saving with
  | none => .next s
  | some c =>
    if ok then
      let d := { s.dict with copies := s.dict.copies.put s.dict.nextCopy c, nextCopy := 1 - s.dict.nextCopy, saving := none }
      .next (({ s with dict := d }.setAction 0x1020 0 2 0).emit 0xF43 1 srcHolm none [c.generation, rwpKeys.length])
    else
      .next (({ s with dict := { s.dict with saving := none } }.setAction 0x1020 0 3 0x0F).emit 0xF44 3 srcHolm none [s.dict.nextCopy])

def State.restoreOp (s : State) : Performed := ({ s with dict := { s.dict with copies := {} } }.actionDone 0x1021 0, .ok [])

/-- R335. -/
def execRestoreDefaults (req : Req) (value : List Byte) (s : State) : Host.Outcome State Fault Refusal :=
  .next (s.rowWrite req 0x1021 0 value State.restoreOp).1

/-- R338. -/
def execKeyRotate (req : Req) (value : List Byte) (s : State) : Host.Outcome State Fault Refusal :=
  .next (s.rowWrite req 0x1012 0 value fun s => s.rotateKey req.ch value).1

/-! ### LANE_MOVE_NOW (11, Table 6) -/

/-- The lane is due for a substitution at the port's next background slot. -/
def State.laneMoveOp (v : Nat) (s : State) : Performed :=
  let p := v % 128
  if v ≠ p + bits v 12 8 * 256 then (s, .error 8)
  else if (s.port p).subst.isSome then (s, .error 9)
  else ((s.updPort p fun x => x.dueFor (bits v 12 8)).actionDone 0x4190 0, .ok [])

def execLaneMoveNow (req : Req) (value : BitVec 16) (s : State) : Host.Outcome State Fault Refusal :=
  .next (s.rowWrite req 0x4190 0 (leBytes 2 value.toNat) (State.laneMoveOp value.toNat)).1

end Sys2Proof.Machine
end

