-- ==== Sys2Proof/Machine/Dictionary.lean ====
section
/-! DEFINITION. Writes of the dictionary (15): a WRITE of any object, and values written in segments. -/

namespace Sys2Proof.Machine

/-- ISLE_SERVICE by its action code (18, Table 4). -/
def State.serviceOp (i v : Nat) : State → Performed :=
  if v = 1 then State.drainOp i else if v = 2 then State.retestOp i else State.rejoinOp i

/-- WAFER_STATE_REQUEST by its value (R425). -/
def State.waferOp (ch : Channel) (v : Nat) (s : State) : Performed :=
  if v = 0 then State.toW0Op (Config.bootFacts s.free) { s with free := s.free + 1 }
  else if v = 1 then s.toW1Op else s.toW3Op ch

/-- RESET_REQUEST by its subindex (20, Table 10). -/
def State.resetOp (ch : Channel) (sub : Nat) (s : State) : Performed :=
  if sub = 1 then State.warmResetOp ch (Config.bootFacts s.free) { s with free := s.free + 1 }
  else if sub = 2 then s.holmRestartOp else if sub = 3 then s.boardRestartOp else s.bridgeRestartOp (sub - 4)

/-- The effect of an accepted write to an object that has a row of its own: the effect of that row. -/
def State.ownWrite (ch : Channel) (idx sub : Nat) (b : List Byte) (s : State) : Performed :=
  let v := ofBytes b
  if idx < 0x9000 then match idx with
    | 0x1011 => s.respond ch b
    | 0x1012 => s.rotateKey ch b
    | 0x1020 => s.saveOp
    | 0x1021 => s.restoreOp
    | 0x2000 => s.profileOp v
    | 0x2002 => s.feedLimitOp 0 v
    | 0x2005 => s.feedLimitOp 1 v
    | 0x2051 => s.waferOp ch v
    | 0x2060 => s.locateOp v
    | 0x2061 => s.lampTestOp
    | 0x2300 => s.holdReleaseOp sub 0
    | 0x2304 => s.sitePowerOp (sub - 1) v
    | 0x4190 => s.laneMoveOp v
    | 0x7010 => s.serviceOp (sub - 1) v
    | _ => s.abortOp (sub - 1)
  else match idx with
    | 0x9000 => s.ownerOp v
    | 0x9003 => s.baudOp v
    | 0xA000 => if v = 1 then s.armOp ch else s.disarmOp
    | 0xA040 => s.straitLoopOp (sub - 1) v
    | 0xA041 => s.shoreLoopOp (sub - 1) v
    | 0xA042 => s.soundLoopOp (sub - 1) v
    | 0xF010 => s.stageBeginOp v
    | 0xF011 => s.stageDataOp b
    | 0xF012 => s.stageEndOp
    | 0xF013 => s.activateOp v
    | 0xF014 => s.confirmOp
    | 0xF016 => s.commitOp
    | 0xF020 => s.resetOp ch sub
    | _ => s.pointOp (idx - 0xA010) sub b

def State.applyWrite (ch : Channel) (idx sub : Nat) (b : List Byte) (s : State) : Performed :=
  if ownRow idx then s.ownWrite ch idx sub b else s.writeObject ch idx sub b

/-- R328. A frame holds a value of 1 to 237 bytes. -/
def execWailestWrite (req : Req) (obj : ObjName) (value : List Byte) (s : State) : Host.Outcome State Fault Refusal :=
  let idx := obj.index.toNat
  let sub := obj.sub.toNat
  if beyond value.length 1 237 then .next (s.serve req 2 idx sub value fun s => (s, .error 2))
  else .next (s.writeThen req idx sub value (State.applyWrite req.ch idx sub value))

/-! ### Writes in segments (R331) -/

def State.setBlock (s : State) (ch : Channel) (b : Option Block) : State := s.updChan ch.num fun c => { c with block := b }

/-- May the channel write the object at all (R316, R317)? -/
def State.mayWrite (s : State) (ch : Channel) (idx sub : Nat) : Option Nat :=
  match s.lookup ch idx sub with
  | .error e => some e
  | .ok m => if m.acc = .ro then some 5 else if s.role ch < m.role then some 6 else none

/-- The value collected so far, with a segment; nothing where it arrives out of order or names another object. -/
def ChanSt.collect (c : ChanSt) (idx sub offset : Nat) (data : List Byte) : Option (List Byte) :=
  if offset = 0 then some data
  else match c.block with
    | some b => if b.index = idx && b.sub = sub && offset = b.data.length then some (b.data ++ data) else none
    | none => none

/-- One segment. LAST checks and applies the whole value as one write. -/
def State.writeBlockOp (ch : Channel) (idx sub offset bflags : Nat) (data : List Byte) (s : State) : Performed :=
  if 2 ≤ bflags || beyond data.length 1 232 then (s, .error 2)
  else match s.mayWrite ch idx sub, (s.chan ch.num).collect idx sub offset data with
    | some e, _ => (s.setBlock ch none, .error e)
    | none, none => (s.setBlock ch none, .error 0x0B)
    | none, some all =>
      if 65536 < all.length then (s.setBlock ch none, .error 7)
      else if bflags = 0 then (s.setBlock ch (some ⟨idx, sub, all⟩), .ok [])
      else State.tryWrite ch idx sub all (State.applyWrite ch idx sub all) (s.setBlock ch none)

/-- R331. What follows the reply of a write follows that of the segment that applied it. -/
def execWriteBlock (req : Req) (obj : ObjName) (offset : BitVec 32) (bflags : Byte) (data : List Byte) (s : State) :
    Host.Outcome State Fault Refusal :=
  let idx := obj.index.toNat
  let sub := obj.sub.toNat
  let op := State.writeBlockOp req.ch idx sub offset.toNat bflags.toNat data
  let args := leBytes 4 offset.toNat ++ [bflags] ++ data
  let t := s.serve req 4 idx sub args op
  let applied := s.performs req 4 idx sub args && bflags == 1 && (op s).ok
  .next (if applied then t.afterWrite idx sub (ofBytes (((s.chan req.ch.num).collect idx sub offset.toNat data).getD [])) else t)

end Sys2Proof.Machine
end

