-- ==== Sys2Proof/Machine/Links.lean ====
section
/-! DEFINITION. Links of the Strait ports: bring-up, flits, lanes (12, R248 to R257, R271 to R273). -/

namespace Sys2Proof.Machine

/-- A port whose peer conflicts is FENCED and carries no traffic (R255). -/
def State.fencePort (s : State) (p : Nat) (peer : PeerId) (map : List Nat) : State :=
  (s.updPort p fun x => { x with link := .fenced, optic := .locked, lanes := map, peer := some peer, retrainStart := none }).emit 0x425 3
    (srcPort p) none [p, peer.pod.toNat, peer.format]
/-- R254, R255, R271: the end of link bring-up, with what step 5 learnt of the peer, the lanes lit and locked, and the greatest skew between
them in ns, of which the receiver accepts 80 (R249). This end gives its own identity in turn. A retrain resumes where the peer is the same;
a peer that has changed resets the link. -/
def execLinkBringUp (port : Port) (peer : PeerId) (lock : LaneLock) (s : State) : Host.Outcome State Fault Refusal :=
  let p := port.val
  let x := s.port p
  let map := x.agreedLanes lock.lanes.toNat
  if x.link = .up || x.link = .fenced || x.optic = .loss || map.length < 16 || 80 < lock.skew || !(s.siteOpen (siteOf p)) ||
    s.straitLoop p = 1 then .next s else
  let s := { s with out := { s.out with identity := s.out.identity ++ [(p, s.identity p)] } }
  if x.link = .retraining then
    let same := match x.peer with
      | some q => q.serial == peer.serial && q.port == peer.port
      | none => false
    if !same then .next ((s.emit 0x424 2 (srcPort p) none [p]).linkReset p .training)
    else if s.podConflict p peer then .next (s.fencePort p peer map)
    else
      let s := s.updPort p fun x => { (x.acknowledge peer.ackSeq.toNat) with
        link := .up, optic := .locked, lanes := map, peer := some peer, retrainStart := none, replays := 0 }
      let s := (s.emit 0x422 1 (srcPort p) none [p]).resend p
      .next (((if map.length ≤ 30 then s.voidPort p else s).pump p).flush p)
  else if s.podConflict p peer then .next (s.fencePort p peer map)
  else
    let s := s.updPort p fun x => { x with
      link := .up, optic := .locked, lanes := map, peer := some peer, txSeq := 0, fill := [], replayBuf := [], rxSeq := 0, rxTop := 0, tag := 0,
      renumber := false, creditReq := 2048, creditRsp := 2048, creditTok := 64, rspRoom := 2048 }
    let s := s.emit 0x420 1 (srcPort p) none [p, peer.pod.toNat]
    .next (((if map.length ≤ 30 then s.voidPort p else s).pump p).flush p)
/-- An intact flit is accepted (R256): its acknowledgement and credits are applied, and of a sequenced flit in its place the slots and the
link command taken. What it calls for goes out, in a control-only flit where nothing else does. -/
def State.acceptFlit (s : State) (p : Nat) (b : List Byte) : State :=
  let h := readLink b
  let s := s.updPort p (·.acknowledge h.ack)
  let s := if h.nak then s.replay p else s
  if (s.port p).link != .up then s
  else if h.kind = 1 then ((s.updPort p fun x => (x.credit h).keepLink h.link).pump p).flush p
  else
    let s := if h.seq = (s.port p).rxSeq then
        s.updPort p fun x => { (((x.credit h).keepLink h.link).takeSlots (validSlots b)) with rxSeq := (x.rxSeq + 1) % 65536, nakReq := false }
      else s.updPort p fun x => { x with nakReq := true }
    let t := (s.pump p).flush p
    if t.out.strait.length = s.out.strait.length then t.sendControl p none else t

/-- R256, R250, R248; R450, R458: a flit arrives. Its codeword is uncorrectable with more than 15 symbols in error; a flit of such a
codeword, one whose CRC fails, and one with a reserved header value are discarded, and NAK_REQ asks for a replay. -/
def execFlitReceive (port : Port) (f : FlitIn) (s : State) : Host.Outcome State Fault Refusal :=
  let p := port.val
  if (s.port p).link != .up then .next s else
  let h := readLink f.bytes
  let first := h.kind == 0 && decide ((h.seq + 65536 - (s.port p).rxTop) % 65536 < 32768)
  let (s, hit) := if first then s.inject1 1 p 1 0 else (s, .pass)
  if hit = .drop then .next s else
  let b := match hit with
    | .corrupt l => flipBits f.bytes l
    | _ => f.bytes
  let lost := decide (15 < f.symbols)
  let s := s.updPort p fun x => { (if lost then x else x.countCodeword f.codeword) with
    rxTop := if first then (h.seq + 1) % 65536 else x.rxTop
    cwBad := if lost then satAdd 64 x.cwBad 1 else x.cwBad
    cwCorrected := if !lost && f.symbols != 0 then satAdd 64 x.cwCorrected 1 else x.cwCorrected
    crcErrors := if flitIntact b then x.crcErrors else satAdd 64 x.crcErrors 1 }
  if !(flitIntact b) || lost || flitReserved b then .next ((s.updPort p fun x => { x with nakReq := true }).sendControl p none)
  else .next (s.acceptFlit p b)

/-- R256. -/
def execReplayTimeout (port : Port) (s : State) : Host.Outcome State Fault Refusal :=
  if (s.port port.val).link = .up then .next (s.replay port.val) else .next s

/-- R271: the expiry is granted before an identity confirmed at the same moment. -/
def execRetrainTimerExpiry (port : Port) (s : State) : Host.Outcome State Fault Refusal :=
  if (s.port port.val).link = .retraining then .next (s.linkReset port.val .training) else .next s

/-- The link command agreed for a codeword (R257), where there is one. -/
def PortSt.agreed (x : PortSt) (cmd lane at_ : Nat) : Option LinkCmd :=
  if x.link != .up then none else x.linkCmds.find? fun c => c.cmd == cmd && c.lane == lane && c.at_ == at_

/-- A link command takes effect. -/
def State.linkTaken (s : State) (p : Nat) (c : LinkCmd) : State := s.updPort p fun x => { x with linkCmds := x.linkCmds.erase c }

/-- R257, R241, Table 3, steps 3 to 5: at the agreed codeword the lane leaves striping; the modulator of our own substitution, or the drop
filter of the peer's, jumps to the new channel. Only one filter of a port is on a channel (R229). -/
def execLaneMove (port : Port) (lane : Lane) (channel : Laser) (at_ : BitVec 32) (s : State) : Host.Outcome State Fault Refusal :=
  let (p, l, n) := (port.val, lane.val, channel.val)
  match (s.port p).agreed 1 l at_.toNat with
  | none => .next s
  | some c =>
    if c.channel ≠ n then .next s else
    let s := s.linkTaken p c
    let x := s.port p
    if c.mine then
      match x.subst with
      | some b =>
        if b.lane ≠ l || b.spare ≠ n || b.out || x.peerMove.isSome then .next s
        else .next ((s.laneAside p l).updPort p fun x =>
          { x.moveRing l (x.sends l) b.spare with subst := some { b with out := true } })
      | none => .next s
    else if x.peerMove.isSome || x.subst.any (·.out) || (List.range 32).any (fun k => k != l && x.receives k == n) then .next s
    else .next ((s.laneAside p l).updPort p fun x =>
      { x.moveRing (32 + l) (x.receives l) n with rxChan := x.rxChan.put l n, peerMove := some (l, x.receives l) })

/-- R257: at the agreed codeword a lane leaves striping; a move of it is abandoned (R274). The sending end repairs a lane that its peer has
dropped by substitution (R245; log 55). -/
def execLaneDrop (port : Port) (lane : Lane) (at_ : BitVec 32) (s : State) : Host.Outcome State Fault Refusal :=
  let (p, l) := (port.val, lane.val)
  match (s.port p).agreed 2 l at_.toNat with
  | none => .next s
  | some c =>
    let s := (s.linkTaken p c).updPort p fun x => { x with linkCmds := x.linkCmds.filter fun d => d.cmd != 1 || d.lane != l }
    let s := match (s.port p).subst with
      | some b => if b.lane = l then s.revertMove p b else s
      | none => s
    if (s.port p).lanes.contains l then .next ((if c.mine then s else s.updPort p (·.dueFor l)).laneOut p l) else .next s

/-- R257: at the agreed codeword a lane whose rings are locked again joins striping. -/
def execLaneAdd (port : Port) (lane : Lane) (at_ : BitVec 32) (s : State) : Host.Outcome State Fault Refusal :=
  let (p, l) := (port.val, lane.val)
  match (s.port p).agreed 3 l at_.toNat with
  | none => .next s
  | some c =>
    let s := s.linkTaken p c
    let x := s.port p
    if !(x.laneLocked l) || (x.laser (x.sends l)).state != .carrying || x.subst.any (fun b => b.out && b.lane == l) then .next s
    else .next (s.updPort p fun x =>
      { x with lanes := insertLane l x.lanes, due := x.due.filter fun d => d != l || (x.laser (x.sends l)).lowRaised })

/-- R257: LANE_ERRORS, and a LANE_DROP goes to the peer. -/
def execLaneErrors (port : Port) (lane : Lane) (s : State) : Host.Outcome State Fault Refusal :=
  let (p, l) := (port.val, lane.val)
  if !((s.port p).lanes.contains l) then .next s
  else .next ((s.emit 0x426 2 (srcPort p) none [p, l]).dropLane p l)

end Sys2Proof.Machine
end

