-- ==== Sys2Proof/Machine/Registers.lean ====
section
/-! DEFINITION. Writes of registers that have no row of their own, and what registers read (13, Tables 3 to 9; 16, Tables 8 to 10). -/

namespace Sys2Proof.Machine

/-- A vector that pends is raised once the host no longer masks it. -/
def State.unmask (s : State) (k v : Nat) : State :=
  if bit (s.fn k).msixPba v && !((s.fn k).masked v) then (s.updFn k fun f => { f with msixPba := clearBit f.msixPba v }).vector k v else s

/-! ### What a read returns (R5, R277, R279; 13, Tables 3 to 10; 16, Tables 8 to 10)

No command of the table reads these registers: the functions say what 4 bytes at an offset read. -/

/-- Word `o` of a 64-bit register. -/
def half (v : Word) (o : Nat) : Nat := v.toNat / 2 ^ (8 * o) % 2 ^ 32

def UartSt.read (p : Nat) (x : UartSt) (o : Nat) : Nat := match o with
  | 0x000 => if x.rxEn then 0x8000 else x.rx.headD 0x8000
  | 0x004 => x.status p
  | 0x008 => x.control
  | 0x00C => x.format
  | 0x010 => x.baud
  | 0x014 => x.node
  | 0x018 => x.timing
  | 0x01C => x.rx.length + x.tx.length * 2 ^ 16
  | 0x020 => x.irqEn
  | 0x040 => x.rxBase % 2 ^ 32
  | 0x044 => x.rxBase / 2 ^ 32
  | 0x048 => x.rxLen
  | 0x04C => (if x.rxEn then 1 else 0) + (if x.rxTagged then 2 else 0) + (if x.addrSplit then 4 else 0) + if x.timeoutEn then 8 else 0
  | 0x050 => x.rxBlock
  | 0x054 => x.rxTimeout
  | 0x058 => x.wptr
  | 0x05C => x.seq
  | 0x060 => x.txBase % 2 ^ 32
  | 0x064 => x.txBase / 2 ^ 32
  | 0x068 => x.txCount
  | 0x06C => (if x.txEn then 1 else 0) + if x.txTagged then 2 else 0
  | 0x070 => x.txSent
  | _ => if 0x080 ≤ o && o ≤ 0x0A8 && o % 4 == 0 then x.ev.get 0 (4 + (o - 0x080) / 4) else 0

/-- FN_STATUS (13, Table 8). -/
def State.fnStatus (s : State) (k : Nat) : Nat :=
  let b := k / 16
  s.shape.level + (if s.boot.holmReady then 4 else 0) + (if s.pathReady b then 8 else 0) + (if (s.card b).stagingReady then 16 else 0) +
    (if (s.fn k).configError then 256 else 0) + if (s.fn k).ringError then 512 else 0
/-- Function registers (13, Table 4). -/
def State.fnRead (s : State) (fn : FnId) (o : Nat) : Nat :=
  let owned (n : Nat) : Bool := (s.ctx (fn.card.val * 16 + n)).owner == fn.fn.val
  match o with
  | 0x000 => fn.fn.val + fn.card.val * 16
  | 0x004 => s.fnStatus fn.key
  | 0x008 => ((List.range 16).filter owned).foldl setBit 0
  | _ => if fn.fn = 0 && 0x100 ≤ o && o < 0x140 && o % 4 == 0 then (s.ctx (fn.card.val * 16 + (o - 0x100) / 4)).owner else 0
/-- Event queue registers (13, Table 5). -/
def FnSt.evqRead (f : FnSt) (physical : Bool) (o : Nat) : Nat := match o with
  | 0x000 | 0x004 => half f.evqBase o
  | 0x008 => f.evqSize.toNat
  | 0x010 | 0x014 => half f.evqProdAddr (o - 0x010)
  | 0x018 => f.evqCons.toNat
  | 0x01C => if f.evqEnable then 1 else 0
  | 0x020 => f.modCount
  | 0x024 => f.modTime
  | 0x028 => if physical then f.filter else 0
  | 0x030 | 0x034 | 0x038 => f.dropped.get 0 ((o - 0x030) / 4)
  | _ => 0
/-- The context register block (13, Tables 6, 9 and 10). -/
def CtxSt.read (x : CtxSt) (o : Nat) : Nat := match o with
  | 0x000 | 0x004 => half x.ringBase o
  | 0x008 => x.ringSize.toNat
  | 0x00C => x.doorbell.toNat
  | 0x010 => x.cons.toNat
  | 0x014 => if x.enable then 1 else 0
  | 0x018 => x.state.code + if x.ringError then 256 else 0
  | 0x020 => loadedPlanId x % 2 ^ 32
  | 0x024 => loadedPlanId x / 2 ^ 32
  | 0x028 => x.runNo
  | _ => 0
/-- 4 bytes of BAR0 as a function reads them (R277, R279): blocks of contexts that it does not own, blocks of the physical function seen from
a virtual one, and offsets outside the blocks read 0. -/
def State.bar0Read (s : State) (fn : FnId) (o : Nat) : Nat :=
  let f := s.fn fn.key
  if o < 0x1000 then s.fnRead fn o
  else if o < 0x2000 then f.evqRead (fn.fn == 0) (o - 0x1000)
  else if 0x10000 ≤ o && o < 0x20000 then match s.ownedCtx fn ((o - 0x10000) / 4096) with
    | some c => (s.ctx c).read (o % 4096)
    | none => 0
  else if 0x20000 ≤ o && o < 0x20020 then (f.msixTable.get (if o % 16 = 12 then 1 else 0) (o - 0x20000)).toNat
  else if o = 0x21000 then f.msixPba
  else if 0x30000 ≤ o && o < 0x30100 then fieldAt (padTo 256 f.mbxReq) (o - 0x30000) 4
  else if 0x30100 ≤ o && o < 0x30200 then fieldAt (padTo 256 f.mbxRsp) (o - 0x30100) 4
  else if o = 0x30204 then (if f.mbxDone then 1 else 0) + (if f.mbxBusy then 2 else 0) + (if f.mbxOverrun then 4 else 0) + if f.mbxNotReady then 8 else 0
  else if 0x40000 ≤ o && o < 0x42000 && fn.fn == 0 then (s.uart ((o - 0x40000) / 4096)).read ((o - 0x40000) / 4096) (o % 4096)
  else if 0x100000 ≤ o && o < 0x108000 then half (f.segments.get 0 ((o - 0x100000) / 8)) (o % 8)
  else 0

/-! ### Writes -/

/-- A write of BAR0 by a function (R279). Registers of a row of their own, read-only ones and offsets outside the blocks ignore it. -/
def State.bar0Write (s : State) (fn : FnId) (o v : Nat) : State :=
  let k := fn.key
  if !(s.card fn.card.val).present then s
  else if o = 0x4 then s.updFn k fun f => { f with configError := f.configError && !(bit v 8), ringError := f.ringError && !(bit v 9) }
  else if 0x1000 ≤ o && o < 0x2000 then s.evqWrite k (o - 0x1000) v
  else if 0x10000 ≤ o && o < 0x20000 then match s.ownedCtx fn ((o - 0x10000) / 4096) with
    | some c => s.ringWrite c (o % 4096) v
    | none => s
  else if 0x20000 ≤ o && o < 0x20020 then
    ((s.updFn k fun f => { f with msixTable := f.msixTable.put (o - 0x20000) (BitVec.ofNat 64 (v % 2 ^ 32)) }).unmask k 0).unmask k 1
  else if 0x30000 ≤ o && o < 0x30100 then s.updFn k fun f => f.putReq (o - 0x30000) v
  else if o = 0x30204 then s.updFn k fun f => { f with
    mbxDone := f.mbxDone && !(bit v 0), mbxOverrun := f.mbxOverrun && !(bit v 2), mbxNotReady := f.mbxNotReady && !(bit v 3) }
  else if 0x40000 ≤ o && o < 0x42000 && fn.fn == 0 then
    let p := (o - 0x40000) / 4096
    if s.ownsUart p (.bridge fn.card) then s.uartWrite p (o % 4096) v else s
  else s

/-- R5, R10, R279, R281, R288, R343, R362. -/
def execRegisterWrite (w : RegWrite) (s : State) : Host.Outcome State Fault Refusal :=
  match w with
  | .bar0 fn offset value => .next (s.bar0Write fn offset.toNat value.toNat)
  | .uart port by_ offset value =>
    .next (if s.ownsUart port.val by_ then s.uartWrite port.val offset.toNat value.toNat else s)

end Sys2Proof.Machine
end

