-- ==== Sys2Proof/Machine/Dispatch.lean ====
section
/-! DEFINITION. One arm per command: a direct call of its meaning. -/

namespace Sys2Proof.Machine

/-- The effect of a command on everything but the queue. -/
def exec (i : Instr) (s : State) : Host.Outcome State Fault Refusal :=
  match i with
  | .paceWindowClose isle num den => Sys2Proof.Machine.execPaceWindowClose isle num den s
  | .commandWaitMet ctx strand => Sys2Proof.Machine.execCommandWaitMet ctx strand s
  | .commandComplete ctx strand => Sys2Proof.Machine.execCommandComplete ctx strand s
  | .tokenMessage ctx run isle counter inc soundError => Sys2Proof.Machine.execTokenMessage ctx run isle counter inc soundError s
  | .tokenDeadlockCheck => Sys2Proof.Machine.execTokenDeadlockCheck s
  | .jobHaltComplete ctx => Sys2Proof.Machine.execJobHaltComplete ctx s
  | .runEnd ctx => Sys2Proof.Machine.execRunEnd ctx s
  | .nop ctx strand => Sys2Proof.Machine.execNop ctx strand s
  | .bgWindow ctx strand duration => Sys2Proof.Machine.execBgWindow ctx strand duration s
  | .fork ctx ops => Sys2Proof.Machine.execFork ctx ops s
  | .split ctx ops => Sys2Proof.Machine.execSplit ctx ops s
  | .release ctx ops => Sys2Proof.Machine.execRelease ctx ops s
  | .wload ctx e ops => Sys2Proof.Machine.execWload ctx e ops s
  | .matmul ctx e ops => Sys2Proof.Machine.execMatmul ctx e ops s
  | .drain ctx e ops => Sys2Proof.Machine.execDrain ctx e ops s
  | .accload ctx e ops => Sys2Proof.Machine.execAccload ctx e ops s
  | .maskset ctx e ops => Sys2Proof.Machine.execMaskset ctx e ops s
  | .oxPatrolVector e miscompare foreground => Sys2Proof.Machine.execOxPatrolVector e miscompare foreground s
  | .oxStall e opcode => Sys2Proof.Machine.execOxStall e opcode s
  | .kernel ctx c ops => Sys2Proof.Machine.execKernel ctx c ops s
  | .kernelComplete c => Sys2Proof.Machine.execKernelComplete c s
  | .add c f => Sys2Proof.Machine.execAdd c f s
  | .sub c f => Sys2Proof.Machine.execSub c f s
  | .and c f => Sys2Proof.Machine.execAnd c f s
  | .or c f => Sys2Proof.Machine.execOr c f s
  | .xor c f => Sys2Proof.Machine.execXor c f s
  | .shl c f => Sys2Proof.Machine.execShl c f s
  | .shr c f => Sys2Proof.Machine.execShr c f s
  | .sar c f => Sys2Proof.Machine.execSar c f s
  | .slt c f => Sys2Proof.Machine.execSlt c f s
  | .sltu c f => Sys2Proof.Machine.execSltu c f s
  | .mul c f => Sys2Proof.Machine.execMul c f s
  | .mulh c f => Sys2Proof.Machine.execMulh c f s
  | .mulhu c f => Sys2Proof.Machine.execMulhu c f s
  | .div c f => Sys2Proof.Machine.execDiv c f s
  | .divu c f => Sys2Proof.Machine.execDivu c f s
  | .rem c f => Sys2Proof.Machine.execRem c f s
  | .remu c f => Sys2Proof.Machine.execRemu c f s
  | .min c f => Sys2Proof.Machine.execMin c f s
  | .max c f => Sys2Proof.Machine.execMax c f s
  | .clz c f => Sys2Proof.Machine.execClz c f s
  | .popc c f => Sys2Proof.Machine.execPopc c f s
  | .addi c f => Sys2Proof.Machine.execAddi c f s
  | .slti c f => Sys2Proof.Machine.execSlti c f s
  | .andi c f => Sys2Proof.Machine.execAndi c f s
  | .ori c f => Sys2Proof.Machine.execOri c f s
  | .xori c f => Sys2Proof.Machine.execXori c f s
  | .shli c f => Sys2Proof.Machine.execShli c f s
  | .shri c f => Sys2Proof.Machine.execShri c f s
  | .sari c f => Sys2Proof.Machine.execSari c f s
  | .lui c f => Sys2Proof.Machine.execLui c f s
  | .ldl c f => Sys2Proof.Machine.execLdl c f s
  | .stl c f => Sys2Proof.Machine.execStl c f s
  | .ldg c f => Sys2Proof.Machine.execLdg c f s
  | .stg c f => Sys2Proof.Machine.execStg c f s
  | .amoAdd c wide f => Sys2Proof.Machine.execAmoAdd c wide f s
  | .amoMin c wide f => Sys2Proof.Machine.execAmoMin c wide f s
  | .amoMax c wide f => Sys2Proof.Machine.execAmoMax c wide f s
  | .amoSwap c wide f => Sys2Proof.Machine.execAmoSwap c wide f s
  | .amoCas c wide f => Sys2Proof.Machine.execAmoCas c wide f s
  | .amoFadd32 c f => Sys2Proof.Machine.execAmoFadd32 c f s
  | .vldl c f => Sys2Proof.Machine.execVldl c f s
  | .vstl c f => Sys2Proof.Machine.execVstl c f s
  | .vldg c f => Sys2Proof.Machine.execVldg c f s
  | .vstg c f => Sys2Proof.Machine.execVstg c f s
  | .beq c f => Sys2Proof.Machine.execBeq c f s
  | .bne c f => Sys2Proof.Machine.execBne c f s
  | .blt c f => Sys2Proof.Machine.execBlt c f s
  | .bge c f => Sys2Proof.Machine.execBge c f s
  | .bltu c f => Sys2Proof.Machine.execBltu c f s
  | .bgeu c f => Sys2Proof.Machine.execBgeu c f s
  | .jmp c off => Sys2Proof.Machine.execJmp c off s
  | .call c off => Sys2Proof.Machine.execCall c off s
  | .jr c f => Sys2Proof.Machine.execJr c f s
  | .vadd c f => Sys2Proof.Machine.execVadd c f s
  | .vsub c f => Sys2Proof.Machine.execVsub c f s
  | .vmul c f => Sys2Proof.Machine.execVmul c f s
  | .vfma c f => Sys2Proof.Machine.execVfma c f s
  | .vmin c f => Sys2Proof.Machine.execVmin c f s
  | .vmax c f => Sys2Proof.Machine.execVmax c f s
  | .vand c f => Sys2Proof.Machine.execVand c f s
  | .vor c f => Sys2Proof.Machine.execVor c f s
  | .vxor c f => Sys2Proof.Machine.execVxor c f s
  | .vshl c f => Sys2Proof.Machine.execVshl c f s
  | .vshr c f => Sys2Proof.Machine.execVshr c f s
  | .vsar c f => Sys2Proof.Machine.execVsar c f s
  | .vabs c f => Sys2Proof.Machine.execVabs c f s
  | .vneg c f => Sys2Proof.Machine.execVneg c f s
  | .vsel c f => Sys2Proof.Machine.execVsel c f s
  | .vredsum c f => Sys2Proof.Machine.execVredsum c f s
  | .vredmax c f => Sys2Proof.Machine.execVredmax c f s
  | .vredmin c f => Sys2Proof.Machine.execVredmin c f s
  | .vcmpEq c f => Sys2Proof.Machine.execVcmpEq c f s
  | .vcmpNe c f => Sys2Proof.Machine.execVcmpNe c f s
  | .vcmpLt c f => Sys2Proof.Machine.execVcmpLt c f s
  | .vcmpLe c f => Sys2Proof.Machine.execVcmpLe c f s
  | .vcmpLtu c f => Sys2Proof.Machine.execVcmpLtu c f s
  | .vgate c fn f => Sys2Proof.Machine.execVgate c fn f s
  | .vcvt c fn f => Sys2Proof.Machine.execVcvt c fn f s
  | .bcast c f => Sys2Proof.Machine.execBcast c f s
  | .insert c f => Sys2Proof.Machine.execInsert c f s
  | .extract c f => Sys2Proof.Machine.execExtract c f s
  | .pset c f => Sys2Proof.Machine.execPset c f s
  | .pget c f => Sys2Proof.Machine.execPget c f s
  | .tsig c f => Sys2Proof.Machine.execTsig c f s
  | .twait c f => Sys2Proof.Machine.execTwait c f s
  | .tread c f => Sys2Proof.Machine.execTread c f s
  | .fence c f => Sys2Proof.Machine.execFence c f s
  | .halt c f => Sys2Proof.Machine.execHalt c f s
  | .wait c f => Sys2Proof.Machine.execWait c f s
  | .brk c f => Sys2Proof.Machine.execBrk c f s
  | .resume c f => Sys2Proof.Machine.execResume c f s
  | .ring c f => Sys2Proof.Machine.execRing c f s
  | .csrr c f => Sys2Proof.Machine.execCsrr c f s
  | .csrw c f => Sys2Proof.Machine.execCsrw c f s
  | .globalAccessComplete c => Sys2Proof.Machine.execGlobalAccessComplete c s
  | .timecmpReached c => Sys2Proof.Machine.execTimecmpReached c s
  | .coreWake c => Sys2Proof.Machine.execCoreWake c s
  | .bantamStall c => Sys2Proof.Machine.execBantamStall c s
  | .housekeepingReport isle => Sys2Proof.Machine.execHousekeepingReport isle s
  | .lgeom ctx isle ops => Sys2Proof.Machine.execLgeom ctx isle ops s
  | .lwload ctx isle ops => Sys2Proof.Machine.execLwload ctx isle ops s
  | .patch ctx isle ops => Sys2Proof.Machine.execPatch ctx isle ops s
  | .lconv ctx isle ops => Sys2Proof.Machine.execLconv ctx isle ops s
  | .pool ctx isle ops => Sys2Proof.Machine.execPool ctx isle ops s
  | .resample ctx isle ops => Sys2Proof.Machine.execResample ctx isle ops s
  | .regroup ctx isle ops => Sys2Proof.Machine.execRegroup ctx isle ops s
  | .lambPatrolVector isle miscompare foreground => Sys2Proof.Machine.execLambPatrolVector isle miscompare foreground s
  | .lambStall isle => Sys2Proof.Machine.execLambStall isle s
  | .copy ctx isle ops meets => Sys2Proof.Machine.execCopy ctx isle ops meets s
  | .mcast ctx isle ops soundError => Sys2Proof.Machine.execMcast ctx isle ops soundError s
  | .reduceContribution ctx t c => Sys2Proof.Machine.execReduceContribution ctx t c s
  | .reduceResend t => Sys2Proof.Machine.execReduceResend t s
  | .hbmDriftTrack k => Sys2Proof.Machine.execHbmDriftTrack k s
  | .hbmTemperatureReading k temp => Sys2Proof.Machine.execHbmTemperatureReading k temp s
  | .hbmStackReturn k failed stackFailed temp => Sys2Proof.Machine.execHbmStackReturn k failed stackFailed temp s
  | .hbmScrubPass t offset found cell endOfPass => Sys2Proof.Machine.execHbmScrubPass t offset found cell endOfPass s
  | .hbmRowRepair k frame repaired spareRows => Sys2Proof.Machine.execHbmRowRepair k frame repaired spareRows s
  | .bankRotationStep isle => Sys2Proof.Machine.execBankRotationStep isle s
  | .bankMigrationDone isle => Sys2Proof.Machine.execBankMigrationDone isle s
  | .bankTestDone isle cells => Sys2Proof.Machine.execBankTestDone isle cells s
  | .soundLaneSteering sound lane spare success => Sys2Proof.Machine.execSoundLaneSteering sound lane spare success s
  | .isleHardFault isle block => Sys2Proof.Machine.execIsleHardFault isle block s
  | .shapeChangeProceed => Sys2Proof.Machine.execShapeChangeProceed s
  | .laserBiasSample port laser bias => Sys2Proof.Machine.execLaserBiasSample port laser bias s
  | .ringFeedForward site temp => Sys2Proof.Machine.execRingFeedForward site temp s
  | .setPointTrim port lane step => Sys2Proof.Machine.execSetPointTrim port lane step s
  | .ringLockAcquired port ring shift => Sys2Proof.Machine.execRingLockAcquired port ring shift s
  | .ringUnlocked port ring err => Sys2Proof.Machine.execRingUnlocked port ring err s
  | .ringRelockTimeout port ring => Sys2Proof.Machine.execRingRelockTimeout port ring s
  | .ringHop port ring => Sys2Proof.Machine.execRingHop port ring s
  | .laserSubstitution port lane => Sys2Proof.Machine.execLaserSubstitution port lane s
  | .laneReturned port lane => Sys2Proof.Machine.execLaneReturned port lane s
  | .substitutionTimeout port lane => Sys2Proof.Machine.execSubstitutionTimeout port lane s
  | .spareLaserTest port laser bias => Sys2Proof.Machine.execSpareLaserTest port laser bias s
  | .lossOfLight port brightest => Sys2Proof.Machine.execLossOfLight port brightest s
  | .lightRestored port => Sys2Proof.Machine.execLightRestored port s
  | .laneDark port lane => Sys2Proof.Machine.execLaneDark port lane s
  | .cassetteRemoved c => Sys2Proof.Machine.execCassetteRemoved c s
  | .cassetteInserted c ident => Sys2Proof.Machine.execCassetteInserted c ident s
  | .laneMoveNow req value => Sys2Proof.Machine.execLaneMoveNow req value s
  | .linkBringUp port peer lock => Sys2Proof.Machine.execLinkBringUp port peer lock s
  | .flitReceive port f => Sys2Proof.Machine.execFlitReceive port f s
  | .replayTimeout port => Sys2Proof.Machine.execReplayTimeout port s
  | .retrainTimerExpiry port => Sys2Proof.Machine.execRetrainTimerExpiry port s
  | .laneMove port lane channel at_ => Sys2Proof.Machine.execLaneMove port lane channel at_ s
  | .laneDrop port lane at_ => Sys2Proof.Machine.execLaneDrop port lane at_ s
  | .laneAdd port lane at_ => Sys2Proof.Machine.execLaneAdd port lane at_ s
  | .laneErrors port lane => Sys2Proof.Machine.execLaneErrors port lane s
  | .straitRead port h => Sys2Proof.Machine.execStraitRead port h s
  | .straitWrite port h mask data => Sys2Proof.Machine.execStraitWrite port h mask data s
  | .straitReduce port h slot slots fmt unordered data => Sys2Proof.Machine.execStraitReduce port h slot slots fmt unordered data s
  | .straitFence port epoch tag => Sys2Proof.Machine.execStraitFence port epoch tag s
  | .straitToken port h inc void_ => Sys2Proof.Machine.execStraitToken port h inc void_ s
  | .completionReadData port tag data => Sys2Proof.Machine.execCompletionReadData port tag data s
  | .completionAck port tag => Sys2Proof.Machine.execCompletionAck port tag s
  | .completionNak port tag cause => Sys2Proof.Machine.execCompletionNak port tag cause s
  | .completionFenceDone port tag cause => Sys2Proof.Machine.execCompletionFenceDone port tag cause s
  | .ackSend port => Sys2Proof.Machine.execAckSend port s
  | .postedRequestTimeout port tag => Sys2Proof.Machine.execPostedRequestTimeout port tag s
  | .remoteReadTimeout port tag => Sys2Proof.Machine.execRemoteReadTimeout port tag s
  | .window ctx port ops => Sys2Proof.Machine.execWindow ctx port ops s
  | .rget ctx port ops => Sys2Proof.Machine.execRget ctx port ops s
  | .rput ctx port ops => Sys2Proof.Machine.execRput ctx port ops s
  | .rreduce ctx port ops => Sys2Proof.Machine.execRreduce ctx port ops s
  | .rfence ctx port => Sys2Proof.Machine.execRfence ctx port s
  | .rsignal ctx port ops => Sys2Proof.Machine.execRsignal ctx port ops s
  | .reorderHoldTimeout point => Sys2Proof.Machine.execReorderHoldTimeout point s
  | .ctxDoorbell fn k value => Sys2Proof.Machine.execCtxDoorbell fn k value s
  | .entryFetch ctx entry => Sys2Proof.Machine.execEntryFetch ctx entry s
  | .load ctx image => Sys2Proof.Machine.execLoad ctx image s
  | .launch ctx inTable outTable buffers => Sys2Proof.Machine.execLaunch ctx inTable outTable buffers s
  | .launchAccept ctx => Sys2Proof.Machine.execLaunchAccept ctx s
  | .unload ctx => Sys2Proof.Machine.execUnload ctx s
  | .inCopyComplete ctx => Sys2Proof.Machine.execInCopyComplete ctx s
  | .outCopyStart ctx index => Sys2Proof.Machine.execOutCopyStart ctx index s
  | .outCopyComplete ctx => Sys2Proof.Machine.execOutCopyComplete ctx s
  | .ctxEnable fn k enable => Sys2Proof.Machine.execCtxEnable fn k enable s
  | .ctxStop fn k => Sys2Proof.Machine.execCtxStop fn k s
  | .ctxStatusClear fn k => Sys2Proof.Machine.execCtxStatusClear fn k s
  | .ctxOwner fn k value => Sys2Proof.Machine.execCtxOwner fn k value s
  | .fnReattach fn value => Sys2Proof.Machine.execFnReattach fn value s
  | .fnDiscard fn value => Sys2Proof.Machine.execFnDiscard fn value s
  | .evqCons fn value => Sys2Proof.Machine.execEvqCons fn value s
  | .evqRecordWrite fn => Sys2Proof.Machine.execEvqRecordWrite fn s
  | .evqModTimeout fn => Sys2Proof.Machine.execEvqModTimeout fn s
  | .bar2Access fn window segment offset op => Sys2Proof.Machine.execBar2Access fn window segment offset op s
  | .bar2SegmentWrite fn index value => Sys2Proof.Machine.execBar2SegmentWrite fn index value s
  | .mbxDoorbell fn value => Sys2Proof.Machine.execMbxDoorbell fn value s
  | .functionReset fn => Sys2Proof.Machine.execFunctionReset fn s
  | .perstRelease card refclk => Sys2Proof.Machine.execPerstRelease card refclk s
  | .bridgeRemoved card => Sys2Proof.Machine.execBridgeRemoved card s
  | .bridgeInserted card serial version => Sys2Proof.Machine.execBridgeInserted card serial version s
  | .shoreLinkRetrain card => Sys2Proof.Machine.execShoreLinkRetrain card s
  | .shoreLinkRetrained card => Sys2Proof.Machine.execShoreLinkRetrained card s
  | .shoreLinkRetryExpiry card => Sys2Proof.Machine.execShoreLinkRetryExpiry card s
  | .contextDiscardTimeout card => Sys2Proof.Machine.execContextDiscardTimeout card s
  | .stintGrant e ready => Sys2Proof.Machine.execStintGrant e ready s
  | .leaseClearDone ctx failed => Sys2Proof.Machine.execLeaseClearDone ctx failed s
  | .wailestRead req obj => Sys2Proof.Machine.execWailestRead req obj s
  | .wailestWrite req obj value => Sys2Proof.Machine.execWailestWrite req obj value s
  | .readBlock req obj offset count => Sys2Proof.Machine.execReadBlock req obj offset count s
  | .writeBlock req obj offset bflags data => Sys2Proof.Machine.execWriteBlock req obj offset bflags data s
  | .notify req taken => Sys2Proof.Machine.execNotify req taken s
  | .sessionChallenge req byRead => Sys2Proof.Machine.execSessionChallenge req byRead s
  | .sessionResponse req byWrite response => Sys2Proof.Machine.execSessionResponse req byWrite response s
  | .sessionClose req => Sys2Proof.Machine.execSessionClose req s
  | .sessionStateQuery req => Sys2Proof.Machine.execSessionStateQuery req s
  | .frameDiscard frame => Sys2Proof.Machine.execFrameDiscard frame s
  | .snapshotTimeout ch => Sys2Proof.Machine.execSnapshotTimeout ch s
  | .blockWriteTimeout ch => Sys2Proof.Machine.execBlockWriteTimeout ch s
  | .sessionExpiry ch => Sys2Proof.Machine.execSessionExpiry ch s
  | .sessionLockExpiry ch => Sys2Proof.Machine.execSessionLockExpiry ch s
  | .save req value => Sys2Proof.Machine.execSave req value s
  | .restoreDefaults req value => Sys2Proof.Machine.execRestoreDefaults req value s
  | .keyRotate req value => Sys2Proof.Machine.execKeyRotate req value s
  | .rxCharacter port c => Sys2Proof.Machine.execRxCharacter port c s
  | .rxBreak port => Sys2Proof.Machine.execRxBreak port s
  | .rxTimeout port => Sys2Proof.Machine.execRxTimeout port s
  | .uartDataRead port by_ => Sys2Proof.Machine.execUartDataRead port by_ s
  | .uartDataWrite port by_ value => Sys2Proof.Machine.execUartDataWrite port by_ value s
  | .uartStatusRead port by_ => Sys2Proof.Machine.execUartStatusRead port by_ s
  | .txCharacterSent port mismatch => Sys2Proof.Machine.execTxCharacterSent port mismatch s
  | .muteNow port by_ => Sys2Proof.Machine.execMuteNow port by_ s
  | .rxFlush port by_ => Sys2Proof.Machine.execRxFlush port by_ s
  | .txFlush port by_ => Sys2Proof.Machine.execTxFlush port by_ s
  | .rxdmaEnable port by_ en => Sys2Proof.Machine.execRxdmaEnable port by_ en s
  | .rxdmaClose port by_ => Sys2Proof.Machine.execRxdmaClose port by_ s
  | .txdmaEnable port by_ en bytes => Sys2Proof.Machine.execTxdmaEnable port by_ en bytes s
  | .narrowsOwner req port value => Sys2Proof.Machine.execNarrowsOwner req port value s
  | .n0Baud req value => Sys2Proof.Machine.execN0Baud req value s
  | .dipSwitchChange value => Sys2Proof.Machine.execDipSwitchChange value s
  | .registerWrite w => Sys2Proof.Machine.execRegisterWrite w s
  | .ptpSync offset pathDelay => Sys2Proof.Machine.execPtpSync offset pathDelay s
  | .ptpAnnounce a => Sys2Proof.Machine.execPtpAnnounce a s
  | .announceTimeout => Sys2Proof.Machine.execAnnounceTimeout s
  | .ptpLinkDown => Sys2Proof.Machine.execPtpLinkDown s
  | .timeValidLost => Sys2Proof.Machine.execTimeValidLost s
  | .timebaseStateSave => Sys2Proof.Machine.execTimebaseStateSave s
  | .operatingSecond => Sys2Proof.Machine.execOperatingSecond s
  | .coalesceWindowClose code src => Sys2Proof.Machine.execCoalesceWindowClose code src s
  | .capSecondEnd => Sys2Proof.Machine.execCapSecondEnd s
  | .recordStoreProgram retries => Sys2Proof.Machine.execRecordStoreProgram retries s
  | .rsReclaim => Sys2Proof.Machine.execRsReclaim s
  | .rsEraseComplete sector ms => Sys2Proof.Machine.execRsEraseComplete sector ms s
  | .backgroundOverdue activity isle inst ageSeconds => Sys2Proof.Machine.execBackgroundOverdue activity isle inst ageSeconds s
  | .soundSpareLaneTest sound failed => Sys2Proof.Machine.execSoundSpareLaneTest sound failed s
  | .hbmSpareRowTest k bank failed => Sys2Proof.Machine.execHbmSpareRowTest k bank failed s
  | .isleDrain req isle => Sys2Proof.Machine.execIsleDrain req isle s
  | .isleDrainComplete isle => Sys2Proof.Machine.execIsleDrainComplete isle s
  | .drainTimeoutExpiry isle => Sys2Proof.Machine.execDrainTimeoutExpiry isle s
  | .isleServiceAbort req isle value => Sys2Proof.Machine.execIsleServiceAbort req isle value s
  | .isleRetest req isle => Sys2Proof.Machine.execIsleRetest req isle s
  | .isleRetestComplete isle o => Sys2Proof.Machine.execIsleRetestComplete isle o s
  | .holdRelease req sub value => Sys2Proof.Machine.execHoldRelease req sub value s
  | .soundTestComplete isle failed => Sys2Proof.Machine.execSoundTestComplete isle failed s
  | .isleRejoin req isle => Sys2Proof.Machine.execIsleRejoin req isle s
  | .rejoinIdleTimeout isle => Sys2Proof.Machine.execRejoinIdleTimeout isle s
  | .autoRetest isle => Sys2Proof.Machine.execAutoRetest isle s
  | .feedLost feed => Sys2Proof.Machine.execFeedLost feed s
  | .feedRestored feed => Sys2Proof.Machine.execFeedRestored feed s
  | .feedBStable => Sys2Proof.Machine.execFeedBStable s
  | .supplyFailed supply cause => Sys2Proof.Machine.execSupplyFailed supply cause s
  | .supplyInserted supply serial ac => Sys2Proof.Machine.execSupplyInserted supply serial ac s
  | .supplyRemoved supply => Sys2Proof.Machine.execSupplyRemoved supply s
  | .powerProfile req value => Sys2Proof.Machine.execPowerProfile req value s
  | .feedLimitWrite req feed value => Sys2Proof.Machine.execFeedLimitWrite req feed value s
  | .setPointReached => Sys2Proof.Machine.execSetPointReached s
  | .hbmRateChange k => Sys2Proof.Machine.execHbmRateChange k s
  | .powerCapCleared => Sys2Proof.Machine.execPowerCapCleared s
  | .thermalCap isle temp => Sys2Proof.Machine.execThermalCap isle temp s
  | .thermalCapCleared temp => Sys2Proof.Machine.execThermalCapCleared temp s
  | .thermalTrip src temp => Sys2Proof.Machine.execThermalTrip src temp s
  | .fanFailed fan measured => Sys2Proof.Machine.execFanFailed fan measured s
  | .fanInserted fan => Sys2Proof.Machine.execFanInserted fan s
  | .fanRemoved fan => Sys2Proof.Machine.execFanRemoved fan s
  | .inletOutOfRange temp => Sys2Proof.Machine.execInletOutOfRange temp s
  | .isleWake isle src => Sys2Proof.Machine.execIsleWake isle src s
  | .isleWakeCheckDone isle failing => Sys2Proof.Machine.execIsleWakeCheckDone isle failing s
  | .periodicIsleWake => Sys2Proof.Machine.execPeriodicIsleWake s
  | .sitePower req site value => Sys2Proof.Machine.execSitePower req site value s
  | .waferToW0 req boot => Sys2Proof.Machine.execWaferToW0 req boot s
  | .waferToW1 req => Sys2Proof.Machine.execWaferToW1 req s
  | .waferToW3 req => Sys2Proof.Machine.execWaferToW3 req s
  | .powerRecoveredExit boot => Sys2Proof.Machine.execPowerRecoveredExit boot s
  | .coldPowerUp boot => Sys2Proof.Machine.execColdPowerUp boot s
  | .startLevelLate level => Sys2Proof.Machine.execStartLevelLate level s
  | .warmReset req boot => Sys2Proof.Machine.execWarmReset req boot s
  | .holmRestart req => Sys2Proof.Machine.execHolmRestart req s
  | .holmRestartComplete rejected => Sys2Proof.Machine.execHolmRestartComplete rejected s
  | .boardControllerRestart req => Sys2Proof.Machine.execBoardControllerRestart req s
  | .bridgeRestart req card => Sys2Proof.Machine.execBridgeRestart req card s
  | .holmWatchdog => Sys2Proof.Machine.execHolmWatchdog s
  | .boardControllerWatchdog => Sys2Proof.Machine.execBoardControllerWatchdog s
  | .fwStageBegin req value => Sys2Proof.Machine.execFwStageBegin req value s
  | .fwStageData req value => Sys2Proof.Machine.execFwStageData req value s
  | .fwStageEnd req value => Sys2Proof.Machine.execFwStageEnd req value s
  | .fwActivate req value => Sys2Proof.Machine.execFwActivate req value s
  | .fwConfirm req value => Sys2Proof.Machine.execFwConfirm req value s
  | .fwTrialTimer => Sys2Proof.Machine.execFwTrialTimer s
  | .securityVersionCommit req value => Sys2Proof.Machine.execSecurityVersionCommit req value s
  | .injectPoint req point sub value => Sys2Proof.Machine.execInjectPoint req point sub value s
  | .injectArm req => Sys2Proof.Machine.execInjectArm req s
  | .injectDisarm req => Sys2Proof.Machine.execInjectDisarm req s
  | .injectArmLimitExpiry => Sys2Proof.Machine.execInjectArmLimitExpiry s
  | .straitLoopback req port value => Sys2Proof.Machine.execStraitLoopback req port value s
  | .shoreLoopback req card value => Sys2Proof.Machine.execShoreLoopback req card value s
  | .soundLoopback req sound value => Sys2Proof.Machine.execSoundLoopback req sound value s
  | .loopbackDurationExpiry bits errors => Sys2Proof.Machine.execLoopbackDurationExpiry bits errors s
  | .locate req value => Sys2Proof.Machine.execLocate req value s
  | .locateExpiry => Sys2Proof.Machine.execLocateExpiry s
  | .lampTest req value => Sys2Proof.Machine.execLampTest req value s
  | .lampTestEnd => Sys2Proof.Machine.execLampTestEnd s
  | .powerButton ms boot => Sys2Proof.Machine.execPowerButton ms boot s
  | .terminationSwitchChange position => Sys2Proof.Machine.execTerminationSwitchChange position s
  | .shoreLinkUp card => Sys2Proof.Machine.execShoreLinkUp card s
  | .ctsChange active => Sys2Proof.Machine.execCtsChange active s
  | .supplyAcGood supply => Sys2Proof.Machine.execSupplyAcGood supply s
  | .inputAboveProfileLimit watts => Sys2Proof.Machine.execInputAboveProfileLimit watts s
  | .saveComplete ok => Sys2Proof.Machine.execSaveComplete ok s

end Sys2Proof.Machine
end

