-- ==== Sys2Proof/Machine/Tick.lean ====
section
/-! DEFINITION. The 4 ns tick of the timebase (R367), which is what the block does when no command waits (log 3). -/

namespace Sys2Proof.Machine

/-- Each tick adds INCREMENT, held to 2^−32 ns, to the 64-bit timebase (R367). -/
def Clock.tick (c : Clock) : Clock :=
  let sum := c.base * 2 ^ 32 + c.frac + c.incr
  { c with base := sum / 2 ^ 32 % 2 ^ 64, frac := sum % 2 ^ 32, ticks := c.ticks + 1 }

/-- The timebase runs while the Holm is powered: in W0 and W1 after its start (R374). -/
def tick (s : State) : State := if (s.boot.holmUp || s.boot.restarting) && !s.boot.recovery then { s with clock := s.clock.tick } else s

end Sys2Proof.Machine
end

