-- ==== Sys2Proof/Safety.lean ====
section
/-! DEFINITION. What counts as a safe state of the block, and the terms the statements use: completing, one core's step, one plan
command's completion, the members a command leaves alone. -/

namespace Sys2Proof

open Machine

/-- The memory of the wafer and the buffers of the Holm are in their canonical form. -/
def MemSafe (s : State) : Prop := s.mem.wf = true ∧ s.holmMem.wf = true

/-- The command has its effect: it answers a next state, and `P` holds of it. -/
def Completes (c : Instr) (s : State) (P : State → Prop) : Prop := ∃ t, exec c s = .next t ∧ P t

/-! ### Bantam cores (05) -/

/-- The core is awake, has no wake trap to take, fetches the word that spells `i` at PC (R113, R115), and in kernel mode has `beats` left of
its budget. -/
def CoreReady (s : State) (c : CoreId) (i : Instr) (beats : Nat) : Prop :=
  (s.core c.key).runs = true ∧ (s.core c.key).wakeTrap = none ∧ s.fetchFault c.key (s.core c.key) = false ∧ s.fetched c = some i ∧
    ((s.core c.key).kernel = true → (s.core c.key).beats + beats ≤ (s.core c.key).budget)

/-- The registers `y` of a core after an instruction of `beats` beats whose next address is `pc`: BEATS counts kernel beats (R99). -/
def retired (kernel : Bool) (y : CoreSt) (pc beats : Nat) : CoreSt :=
  { y with pc := BitVec.ofNat 64 pc, beats := if kernel then y.beats + beats else y.beats }

/-- From `s` to `t`, the core whose registers were `x` retires with the registers `y`, and nothing else of the machine changes. -/
def CoreStepFrom (x : CoreSt) (s t : State) (c : CoreId) (y : CoreSt) (pc beats : Nat) : Prop :=
  t.core c.key = retired x.kernel y pc beats ∧ (∀ j, j ≠ c.key → t.core j = s.core j) ∧ t = { s with cores := t.cores }

/-- One core's registers change to `y` as its instruction retires, and nothing else of the machine changes. -/
def CoreStep (s t : State) (c : CoreId) (y : CoreSt) (pc beats : Nat) : Prop := CoreStepFrom (s.core c.key) s t c y pc beats

/-- Address of the next instruction in sequence. -/
def seqPc (s : State) (c : CoreId) : Nat := (s.core c.key).pc.toNat + 4

/-- Only the state of Ox engine `k` changes. -/
def OnlyEngine (s t : State) (k : Nat) : Prop := t = { s with engines := t.engines } ∧ ∀ j, j ≠ k → t.engine j = s.engine j

/-- Only the state of the Lamb engine of isle `i` changes, and memory. -/
def OnlyLamb (s t : State) (i : Nat) : Prop := t = { s with lambs := t.lambs, mem := t.mem } ∧ ∀ j, j ≠ i → t.lamb j = s.lamb j

/-! ### Requests of the dictionary (15) -/

/-- The channel holds the request, which is heard, is no broadcast and repeats nothing, and the server is ready: it is performed (R322 to
R326). -/
def Fresh (s : State) (req : Req) (fn idx sub : Nat) (args : List Byte) : Prop :=
  req.broadcast = false ∧ s.performs req fn idx sub args = true

/-- A WRITE of the value is performed and passes the checks of R316, R317, R328 and R329. -/
def Accepted (s : State) (req : Req) (idx sub : Nat) (value : List Byte) : Prop :=
  Fresh s req 2 idx sub value ∧ s.checkWrite req.ch idx sub value = none

/-- The channel has answered the request with the reply, and holds it for repeats. -/
def Replied (t : State) (req : Req) (fn idx sub : Nat) (r : Reply) : Prop :=
  (t.chan req.ch.num).answer = some r ∧ (t.chan req.ch.num).stored = some ⟨req.seq, fn, idx, sub, r⟩

/-- The reply of an accepted write. -/
def Done (t : State) (req : Req) (idx sub : Nat) : Prop := Replied t req 2 idx sub ⟨false, []⟩

/-- The same memory, read byte by byte, outside `n` bytes from `a`. -/
def SameMemBut (s t : State) (a n : Nat) : Prop := ∀ b, b < a ∨ a + n ≤ b → t.mem.read b = s.mem.read b

end Sys2Proof
end

