-- ==== Sys2Proof/WellFormed.lean ====
section
/-! DEFINITION. Which commands can be sent at all: operands that no field of a command, frame, packet or table of the manual could
carry are ill-formed. What the manual describes as refused, ignored or in error is well formed: the meaning answers it. -/

namespace Sys2Proof

/-- A strand number: at most 1,600 strands in a plan (R26). -/
def strandOk (n : Nat) : Bool := n < 1600

/-- No value twice. -/
def distinct : List Nat → Bool
  | [] => true
  | x :: r => !r.contains x && distinct r

/-- Bytes of a lane of the formats of contributions: FP32, BF16, INT32, INT64 (12, Table 3). -/
def laneWidth (fmt : Nat) : Nat := if fmt = 0 then 4 else if fmt = 1 then 2 else if fmt = 2 then 4 else 8

/-- A contribution carries the lanes of one 64-byte line, each within its format (R157, R160). -/
def contributionOk (c : Contribution) : Bool :=
  c.data.length == 64 / laneWidth c.fmt.toNat && c.data.all fun x => x.toNat < 2 ^ (8 * laneWidth c.fmt.toNat)

/-- A request has 1 to 4,096 bytes, lies within 4 KiB and is aligned to the smaller of LEN and 64 bytes (12, Table 3). -/
def reqWf (h : ReqHeader) : Bool :=
  0 < h.len.toNat && h.addr.toNat % 4096 + h.len.toNat ≤ 4096 && h.addr.toNat % Nat.min h.len.toNat 64 == 0

/-- Bytes a host read gave, where it gave any (R280). -/
def hostReadOk (n : Nat) : HostRead → Bool
  | .data b => b.length == n
  | .failed => true

/-- A BAR2 access moves 1 to 64 bytes (R287). -/
def bar2Ok : Bar2Op → Bool
  | .read n => n.val != 0
  | .write b => 0 < b.length && b.length ≤ 64

/-- A bring-up tries an isle one to three times (R437), and names it once. -/
def bootOk (b : BootFacts) : Bool :=
  distinct (b.bringUps.map fun x => x.isle.val) && b.bringUps.all fun x => 0 < x.attempts.length && x.attempts.length ≤ 3

/-- The value of a WRITE: 240 payload bytes less INDEX and SUBINDEX (R327). -/
def valueOk (v : List Byte) : Bool := v.length ≤ 237

def Instr.wellFormed : Instr → Bool
  | .paceWindowClose _ _ den => den != 0
  | .commandWaitMet _ strand => strandOk strand
  | .commandComplete _ strand => strandOk strand
  | .nop _ strand => strandOk strand
  | .bgWindow _ strand _ => strandOk strand
  | .reduceContribution _ _ c => contributionOk c
  | .soundLaneSteering _ lane spare _ => lane < 65536 && spare < 65536
  | .straitRead _ h => reqWf h
  | .straitWrite _ h _ data => reqWf h && data.length == h.len.toNat
  | .straitReduce _ h _ _ _ _ data => reqWf h && h.len.toNat % 64 == 0 && data.length == h.len.toNat
  | .completionReadData _ _ data => 0 < data.length && data.length ≤ 4096
  | .entryFetch _ entry => hostReadOk 64 entry
  | .bar2Access _ _ _ _ op => bar2Ok op
  | .stintGrant _ ready => !ready.isEmpty && distinct (ready.map fun r => r.ctx.val)
  | .leaseClearDone _ failed => distinct (failed.map fun f => (f.isle.val * 8 + f.kind.val) * 65536 + f.index)
  | .wailestWrite _ _ value => value.length ≤ 237
  | .writeBlock _ _ _ _ data => data.length ≤ 232
  | .sessionResponse _ _ response => response.length ≤ 237
  | .backgroundOverdue activity _ _ _ => activity.val != 0
  | .waferToW0 _ boot => bootOk boot
  | .powerRecoveredExit boot => bootOk boot
  | .coldPowerUp boot => bootOk boot
  | .warmReset _ boot => bootOk boot
  | .powerButton _ boot => bootOk boot
  | .loopbackDurationExpiry bits errors => errors ≤ bits
  | .save _ value => valueOk value
  | .restoreDefaults _ value => valueOk value
  | .keyRotate _ value => valueOk value
  | .narrowsOwner _ _ value => valueOk value
  | .n0Baud _ value => valueOk value
  | .isleServiceAbort _ _ value => valueOk value
  | .holdRelease _ _ value => valueOk value
  | .powerProfile _ value => valueOk value
  | .feedLimitWrite _ _ value => valueOk value
  | .sitePower _ _ value => valueOk value
  | .fwStageBegin _ value => valueOk value
  | .fwStageData _ value => valueOk value
  | .fwStageEnd _ value => valueOk value
  | .fwActivate _ value => valueOk value
  | .fwConfirm _ value => valueOk value
  | .securityVersionCommit _ value => valueOk value
  | .injectPoint _ _ _ value => valueOk value
  | .straitLoopback _ _ value => valueOk value
  | .shoreLoopback _ _ value => valueOk value
  | .soundLoopback _ _ value => valueOk value
  | .locate _ value => valueOk value
  | .lampTest _ value => valueOk value
  | .tokenMessage .. | .tokenDeadlockCheck .. | .jobHaltComplete .. | .runEnd .. | .fork .. | .split .. | .release ..
  | .wload .. | .matmul .. | .drain .. | .accload .. | .maskset .. | .oxPatrolVector .. | .oxStall .. | .kernel ..
  | .kernelComplete .. | .add .. | .sub .. | .and .. | .or .. | .xor .. | .shl .. | .shr .. | .sar .. | .slt .. | .sltu ..
  | .mul .. | .mulh .. | .mulhu .. | .div .. | .divu .. | .rem .. | .remu .. | .min .. | .max .. | .clz .. | .popc ..
  | .addi .. | .slti .. | .andi .. | .ori .. | .xori .. | .shli .. | .shri .. | .sari .. | .lui .. | .ldl .. | .stl ..
  | .ldg .. | .stg .. | .amoAdd .. | .amoMin .. | .amoMax .. | .amoSwap .. | .amoCas .. | .amoFadd32 .. | .vldl .. | .vstl ..
  | .vldg .. | .vstg .. | .beq .. | .bne .. | .blt .. | .bge .. | .bltu .. | .bgeu .. | .jmp .. | .call .. | .jr .. | .vadd ..
  | .vsub .. | .vmul .. | .vfma .. | .vmin .. | .vmax .. | .vand .. | .vor .. | .vxor .. | .vshl .. | .vshr .. | .vsar ..
  | .vabs .. | .vneg .. | .vsel .. | .vredsum .. | .vredmax .. | .vredmin .. | .vcmpEq .. | .vcmpNe .. | .vcmpLt ..
  | .vcmpLe .. | .vcmpLtu .. | .vgate .. | .vcvt .. | .bcast .. | .insert .. | .extract .. | .pset .. | .pget .. | .tsig ..
  | .twait .. | .tread .. | .fence .. | .halt .. | .wait .. | .brk .. | .resume .. | .ring .. | .csrr .. | .csrw ..
  | .globalAccessComplete .. | .timecmpReached .. | .coreWake .. | .bantamStall .. | .housekeepingReport .. | .lgeom ..
  | .lwload .. | .patch .. | .lconv .. | .pool .. | .resample .. | .regroup .. | .lambPatrolVector .. | .lambStall ..
  | .copy .. | .mcast .. | .reduceResend .. | .hbmDriftTrack .. | .hbmTemperatureReading .. | .hbmStackReturn ..
  | .hbmScrubPass .. | .hbmRowRepair .. | .bankRotationStep .. | .bankMigrationDone .. | .bankTestDone .. | .isleHardFault ..
  | .shapeChangeProceed .. | .laserBiasSample .. | .ringFeedForward .. | .setPointTrim .. | .ringLockAcquired ..
  | .ringUnlocked .. | .ringRelockTimeout .. | .ringHop .. | .laserSubstitution .. | .laneReturned .. | .substitutionTimeout ..
  | .spareLaserTest .. | .lossOfLight .. | .lightRestored .. | .laneDark .. | .cassetteRemoved .. | .cassetteInserted ..
  | .laneMoveNow .. | .linkBringUp .. | .flitReceive .. | .replayTimeout .. | .retrainTimerExpiry .. | .laneMove ..
  | .laneDrop .. | .laneAdd .. | .laneErrors .. | .straitFence .. | .straitToken .. | .completionAck .. | .completionNak ..
  | .completionFenceDone .. | .ackSend .. | .postedRequestTimeout .. | .remoteReadTimeout .. | .window .. | .rget .. | .rput ..
  | .rreduce .. | .rfence .. | .rsignal .. | .reorderHoldTimeout .. | .ctxDoorbell .. | .load .. | .launch ..
  | .launchAccept .. | .unload .. | .inCopyComplete .. | .outCopyStart .. | .outCopyComplete .. | .ctxEnable .. | .ctxStop ..
  | .ctxStatusClear .. | .ctxOwner .. | .fnReattach .. | .fnDiscard .. | .evqCons .. | .evqRecordWrite .. | .evqModTimeout ..
  | .bar2SegmentWrite .. | .mbxDoorbell .. | .functionReset .. | .perstRelease .. | .bridgeRemoved .. | .bridgeInserted ..
  | .shoreLinkRetrain .. | .shoreLinkRetrained .. | .shoreLinkRetryExpiry .. | .contextDiscardTimeout .. | .wailestRead ..
  | .readBlock .. | .notify .. | .sessionChallenge .. | .sessionClose .. | .sessionStateQuery .. | .frameDiscard ..
  | .snapshotTimeout .. | .blockWriteTimeout .. | .sessionExpiry .. | .sessionLockExpiry .. | .rxCharacter .. | .rxBreak ..
  | .rxTimeout .. | .uartDataRead .. | .uartDataWrite .. | .uartStatusRead .. | .txCharacterSent .. | .muteNow .. | .rxFlush ..
  | .txFlush .. | .rxdmaEnable .. | .rxdmaClose .. | .txdmaEnable .. | .dipSwitchChange .. | .registerWrite .. | .ptpSync ..
  | .ptpAnnounce .. | .announceTimeout .. | .ptpLinkDown .. | .timeValidLost .. | .timebaseStateSave .. | .operatingSecond ..
  | .coalesceWindowClose .. | .capSecondEnd .. | .recordStoreProgram .. | .rsReclaim .. | .rsEraseComplete ..
  | .soundSpareLaneTest .. | .hbmSpareRowTest .. | .isleDrain .. | .isleDrainComplete .. | .drainTimeoutExpiry ..
  | .isleRetest .. | .isleRetestComplete .. | .soundTestComplete .. | .isleRejoin .. | .rejoinIdleTimeout .. | .autoRetest ..
  | .feedLost .. | .feedRestored .. | .feedBStable .. | .supplyFailed .. | .supplyInserted .. | .supplyRemoved ..
  | .setPointReached .. | .hbmRateChange .. | .powerCapCleared .. | .thermalCap .. | .thermalCapCleared .. | .thermalTrip ..
  | .fanFailed .. | .fanInserted .. | .fanRemoved .. | .inletOutOfRange .. | .isleWake .. | .isleWakeCheckDone ..
  | .periodicIsleWake .. | .waferToW1 .. | .waferToW3 .. | .startLevelLate .. | .holmRestart .. | .holmRestartComplete ..
  | .boardControllerRestart .. | .bridgeRestart .. | .holmWatchdog .. | .boardControllerWatchdog .. | .fwTrialTimer ..
  | .injectArm .. | .injectDisarm .. | .injectArmLimitExpiry .. | .locateExpiry .. | .lampTestEnd ..
  | .terminationSwitchChange .. | .shoreLinkUp .. | .ctsChange .. | .supplyAcGood .. | .inputAboveProfileLimit ..
  | .saveComplete .. => true

end Sys2Proof
end

