-- ==== Sys2Proof/Certificates/Slice0/Obligations.lean ====
section
/-! DEFINITION. The statements for the provers. Each docstring names the rules of spec/ that its statement rests on. -/

open Sys2Proof Sys2Proof.Machine

/-! ### The block's step -/

/-- A step takes the command at the front of the queue and is that command's meaning on the state with the queue's rest. -/
def Obligations.StepRunsFrontCommand : Prop :=
  ∀ (s : State) (c : Instr) (rest : List Instr), step { s with pending := c :: rest } = exec c { s with pending := rest }

/-! ### Bantam cores (05) -/

/-- R107, R113, R114, R115: the result of each scalar register and immediate instruction goes to D, g0 reads as 0 and discards what is written
to it, the next address is the next word, and nothing else of the machine changes. A shift immediate above 63 and a LUI with A not 0 are no
such forms. -/
def Obligations.ScalarResults : Prop :=
  (∀ (x : CoreSt) (v : Word), x.greg 0 = 0 ∧ ∀ r, r < 32 → (x.setG 0 v).greg r = x.greg r) ∧
  (∀ (x : CoreSt) (v : Word) (d r : Nat), 0 < d → (x.setG d v).greg r = if r = d then v else x.greg r) ∧
  (∀ (s : State) (c : CoreId) (f : FmtA),
      let a := (s.core c.key).greg f.a.toNat
      let b := (s.core c.key).greg f.b.toNat
      let n := b.toNat % 64
      (∀ e ∈ ([(.add c f, 1, a + b), (.sub c f, 1, a - b), (.and c f, 1, a &&& b), (.or c f, 1, a ||| b), (.xor c f, 1, a ^^^ b),
          (.shl c f, 1, a <<< n), (.shr c f, 1, a >>> n), (.sar c f, 1, a.sshiftRight n),
          (.slt c f, 1, if a.toInt < b.toInt then 1 else 0), (.sltu c f, 1, if a.toNat < b.toNat then 1 else 0),
          (.mul c f, 3, a * b), (.mulh c f, 3, BitVec.ofInt 64 (a.toInt * b.toInt / 2 ^ 64)),
          (.mulhu c f, 3, BitVec.ofNat 64 (a.toNat * b.toNat / 2 ^ 64)),
          (.div c f, 34, if b = 0 then -1 else if a = 0x8000000000000000 ∧ b = -1 then a else BitVec.ofInt 64 (a.toInt.tdiv b.toInt)),
          (.divu c f, 34, if b = 0 then -1 else a / b),
          (.rem c f, 34, if b = 0 then a else if a = 0x8000000000000000 ∧ b = -1 then 0 else BitVec.ofInt 64 (a.toInt.tmod b.toInt)),
          (.remu c f, 34, if b = 0 then a else a % b),
          (.min c f, 1, if a.toInt ≤ b.toInt then a else b), (.max c f, 1, if b.toInt ≤ a.toInt then a else b)]
          : List (Instr × Nat × Word)),
        CoreReady s c e.1 e.2.1 → Completes e.1 s fun t =>
          CoreStep s t c ((s.core c.key).setG f.d.toNat e.2.2) (seqPc s c) e.2.1) ∧
      (f.b = 0 →
        (CoreReady s c (.clz c f) 1 → Completes (.clz c f) s fun t => ∃ v : Word, CoreStep s t c ((s.core c.key).setG f.d.toNat v) (seqPc s c) 1 ∧
          v.toNat ≤ 64 ∧ a.toNat < 2 ^ (64 - v.toNat) ∧ (v.toNat < 64 → 2 ^ (63 - v.toNat) ≤ a.toNat)) ∧
        (CoreReady s c (.popc c f) 1 → Completes (.popc c f) s fun t => CoreStep s t c
          ((s.core c.key).setG f.d.toNat (BitVec.ofNat 64 ((List.range 64).filter fun i => a.getLsbD i).length)) (seqPc s c) 1))) ∧
  (∀ (s : State) (c : CoreId) (f : FmtI),
      let a := (s.core c.key).greg f.a.toNat
      let sx := f.imm.signExtend 64
      let zx := f.imm.zeroExtend 64
      let gives (i : Instr) (v : Word) : Prop := CoreReady s c i 1 → Completes i s fun t =>
        CoreStep s t c ((s.core c.key).setG f.d.toNat v) (seqPc s c) 1
      gives (.addi c f) (a + sx) ∧ gives (.slti c f) (if a.toInt < sx.toInt then 1 else 0) ∧ gives (.andi c f) (a &&& zx) ∧
      gives (.ori c f) (a ||| zx) ∧ gives (.xori c f) (a ^^^ zx) ∧
      (f.imm.toNat < 64 → gives (.shli c f) (a <<< f.imm.toNat) ∧ gives (.shri c f) (a >>> f.imm.toNat) ∧
        gives (.sari c f) (a.sshiftRight f.imm.toNat)) ∧
      (f.a = 0 → gives (.lui c f) (sx <<< 16)))

/-- R113, R115: branches count words from the branch and cost 2 beats taken, 1 not; CALL links g31, JR links D. -/
def Obligations.BranchesAndJumps : Prop :=
  ∀ (s : State) (c : CoreId),
    let x := s.core c.key
    (∀ f : FmtB,
      let a := x.greg f.a.toNat
      let b := x.greg f.b.toNat
      ∀ e ∈ ([(.beq c f, decide (a = b)), (.bne c f, decide (a ≠ b)), (.blt c f, decide (a.toInt < b.toInt)),
          (.bge c f, decide (b.toInt ≤ a.toInt)), (.bltu c f, decide (a.toNat < b.toNat)),
          (.bgeu c f, decide (b.toNat ≤ a.toNat))] : List (Instr × Bool)),
        CoreReady s c e.1 2 → Completes e.1 s fun t => if e.2 = true then CoreStep s t c x (x.pc + f.off.signExtend 64 * 4).toNat 2
          else CoreStep s t c x (seqPc s c) 1) ∧
    (∀ off : BitVec 26,
      (CoreReady s c (.jmp c off) 2 → Completes (.jmp c off) s fun t => CoreStep s t c x (x.pc + off.signExtend 64 * 4).toNat 2) ∧
      (CoreReady s c (.call c off) 2 → Completes (.call c off) s fun t => CoreStep s t c (x.setG 31 (x.pc + 4)) (x.pc + off.signExtend 64 * 4).toNat 2)) ∧
    (∀ f : FmtA, f.b = 0 → CoreReady s c (.jr c f) 2 →
      Completes (.jr c f) s fun t => CoreStep s t c (x.setG f.d.toNat (x.pc + 4)) (x.greg f.a.toNat).toNat 2)

/-- R107, R108, R112, R115: lane-wise vector instructions. An unmasked lane takes its result, a masked lane keeps its value; VSEL chooses
in every lane. Shifts take integer lanes; VABS and VNEG name no VB. -/
def Obligations.VectorLaneResults : Prop :=
  ∀ (s : State) (c : CoreId) (f : FmtV), f.etype ≠ 7 →
    let x := s.core c.key
    let et := f.etype.toNat
    let w := laneBits et
    let gives (i : Instr) (beats : Nat) (op : Nat → Nat → Nat → Nat) : Prop :=
      CoreReady s c i beats → Completes i s fun t => ∃ v : BitVec 512,
        CoreStep s t c (x.setV f.vd.toNat v) (seqPc s c) beats ∧ ∀ l, l < 512 / w →
          vlane v w l = (if bit (x.preg f.p.toNat).toNat l
            then op (vlane (x.vreg f.vd.toNat) w l) (vlane (x.vreg f.va.toNat) w l) (vlane (x.vreg f.vb.toNat) w l)
            else vlane (x.vreg f.vd.toNat) w l) % 2 ^ w
    let fb := if 4 ≤ et then 4 else 1
    gives (.vadd c f) fb (fun _ a b => laneAddOp et a b) ∧ gives (.vsub c f) fb (fun _ a b => laneSubOp et a b) ∧
    gives (.vmul c f) fb (fun _ a b => laneMulOp et a b) ∧ gives (.vfma c f) 4 (fun d a b => laneFmaOp et d a b) ∧
    gives (.vmin c f) fb (fun _ a b => laneMinOp et a b) ∧ gives (.vmax c f) fb (fun _ a b => laneMaxOp et a b) ∧
    gives (.vand c f) 1 (fun _ a b => a &&& b) ∧ gives (.vor c f) 1 (fun _ a b => a ||| b) ∧
    gives (.vxor c f) 1 (fun _ a b => a ^^^ b) ∧
    (et < 4 → gives (.vshl c f) 1 (fun _ a b => a <<< (b % w)) ∧ gives (.vshr c f) 1 (fun _ a b => a >>> (b % w)) ∧
      gives (.vsar c f) 1 (fun _ a b => ofInt w (toInt w a / 2 ^ (b % w)))) ∧
    (f.vb = 0 → gives (.vabs c f) 1 (fun _ a _ => laneAbs et a) ∧ gives (.vneg c f) 1 (fun _ a _ => laneNegate et a)) ∧
    (CoreReady s c (.vsel c f) 1 → Completes (.vsel c f) s fun t => ∃ v : BitVec 512, CoreStep s t c (x.setV f.vd.toNat v) (seqPc s c) 1 ∧
      ∀ l, l < 512 / w → vlane v w l = if bit (x.preg f.p.toNat).toNat l then vlane (x.vreg f.va.toNat) w l
        else vlane (x.vreg f.vb.toNat) w l)

/-- R110: the reductions combine the unmasked lanes in ascending order; the result is in lane 0 and every other lane is 0. With every lane
masked the rules state no result: lane 0 is then a free value (log 47).
R112, R115: a comparison writes to predicate P(VD) bit i for each unmasked lane i whose lanes are in the order asked for, and 0
elsewhere; −0 equals +0 (log 42). The rules state no order of a NaN: the statement is about lanes without one. -/
def Obligations.VectorReductionsAndComparisons : Prop :=
  (∀ (s : State) (c : CoreId) (f : FmtV), f.vb = 0 → f.etype ≠ 7 →
      let x := s.core c.key
      let et := f.etype.toNat
      let w := laneBits et
      let vs := ((List.range (512 / w)).filter (bit (x.preg f.p.toNat).toNat)).map (vlane (x.vreg f.va.toNat) w)
      ∀ e ∈ ([(.vredsum c f, sumLanes et), (.vredmin c f, reduceLanes et laneMinOp), (.vredmax c f, reduceLanes et laneMaxOp)]
          : List (Instr × (List Nat → Nat))),
        CoreReady s c e.1 12 → Completes e.1 s fun t => ∃ v : BitVec 512, (∀ l, 0 < l → l < 512 / w → vlane v w l = 0) ∧
          (vs ≠ [] → vlane v w 0 = e.2 vs % 2 ^ w) ∧
          CoreStep { s with free := t.free } t c (x.setV f.vd.toNat v) (seqPc s c) 12 ∧ (vs ≠ [] → t.free = s.free)) ∧
  (∀ (s : State) (c : CoreId) (f : FmtV), f.etype ≠ 7 → f.vd.toNat ≠ 0 → f.vd.toNat < 8 →
      let x := s.core c.key
      let et := f.etype.toNat
      let w := laneBits et
      let va := vlane (x.vreg f.va.toNat) w
      let vb := vlane (x.vreg f.vb.toNat) w
      let gives (i : Instr) (test : Nat → Nat → Bool) : Prop := CoreReady s c i 1 → Completes i s fun t => ∃ v : Word,
        CoreStep { s with free := t.free } t c (x.setP f.vd.toNat v) (seqPc s c) 1 ∧
        (∀ l, l < 64 → (512 / w ≤ l ∨ bit (x.preg f.p.toNat).toNat l = false) → bit v.toNat l = false) ∧
        (∀ l, l < 512 / w → bit (x.preg f.p.toNat).toNat l = true → laneNan et (va l) = false → laneNan et (vb l) = false →
          bit v.toNat l = test (va l) (vb l))
      gives (.vcmpEq c f) (fun a b => decide (compareKey et a = compareKey et b)) ∧
      gives (.vcmpNe c f) (fun a b => decide (compareKey et a ≠ compareKey et b)) ∧
      gives (.vcmpLt c f) (fun a b => decide (compareKey et a < compareKey et b)) ∧
      gives (.vcmpLe c f) (fun a b => decide (compareKey et a ≤ compareKey et b)) ∧
      (et < 4 → gives (.vcmpLtu c f) (fun a b => decide (a < b))))

/-- R85, R109, R115: VGATE applies a gate function to FP32 lanes with its parameters in g31, VCVT converts between formats, and BCAST,
INSERT, EXTRACT, PSET and PGET move between register files. -/
def Obligations.VectorConversionsAndMoves : Prop :=
  ∀ (s : State) (c : CoreId),
    let x := s.core c.key
    (∀ (fn : Byte) (f : FmtV) (g : GateFn), GateFn.ofCode fn.toNat = some g → f.etype = 4 → f.vb = 0 → CoreReady s c (.vgate c fn f) 8 →
      Completes (.vgate c fn f) s fun t => CoreStep s t c (x.setV f.vd.toNat (vecMap x f fun _ a _ =>
        gateApply g false ((x.greg 31).toNat % 2 ^ 32) ((x.greg 31).toNat / 2 ^ 32) a)) (seqPc s c) 8) ∧
    (∀ (fn : Byte) (f : FmtV) (src dst : Fmt), Fmt.ofCode f.vb.toNat = some src → Fmt.ofCode (fn.toNat % 128) = some dst →
      src ≠ .int32 → dst ≠ .int32 → f.etype = 0 → CoreReady s c (.vcvt c fn f) 2 →
      Completes (.vcvt c fn f) s fun t => CoreStep s t c (x.setV f.vd.toNat (convertLanes x f src dst (bit fn.toNat 7))) (seqPc s c) 2) ∧
    (∀ f : FmtX, f.etype ≠ 7 →
      let w := laneBits f.etype.toNat
      let n := 512 / w
      (f.lane = 0 → CoreReady s c (.bcast c f) 2 → Completes (.bcast c f) s fun t => ∃ v : BitVec 512, CoreStep s t c (x.setV f.vd.toNat v) (seqPc s c) 2 ∧
        ∀ l, l < n → vlane v w l = (x.greg f.g.toNat).toNat % 2 ^ w) ∧
      (f.lane.toNat < n → (CoreReady s c (.insert c f) 2 → Completes (.insert c f) s fun t => ∃ v : BitVec 512,
          CoreStep s t c (x.setV f.vd.toNat v) (seqPc s c) 2 ∧
          ∀ l, l < n → vlane v w l = if l = f.lane.toNat then (x.greg f.g.toNat).toNat % 2 ^ w else vlane (x.vreg f.vd.toNat) w l) ∧
        (CoreReady s c (.extract c f) 2 → Completes (.extract c f) s fun t => CoreStep s t c (x.setG f.g.toNat (if f.etype.toNat < 4
          then BitVec.ofInt 64 (toInt w (vlane (x.vreg f.vd.toNat) w f.lane.toNat))
          else BitVec.ofNat 64 (vlane (x.vreg f.vd.toNat) w f.lane.toNat))) (seqPc s c) 2))) ∧
    (∀ f : FmtX, f.etype = 0 → f.lane = 0 → f.vd.toNat < 8 →
      (CoreReady s c (.pset c f) 2 → Completes (.pset c f) s fun t =>
        CoreStep s t c (x.setP f.vd.toNat (x.greg f.g.toNat)) (seqPc s c) 2) ∧
      (CoreReady s c (.pget c f) 2 → Completes (.pget c f) s fun t => CoreStep s t c (x.setG f.g.toNat (x.preg f.vd.toNat)) (seqPc s c) 2))

/-- R100, R112, R115: accesses to a core's own data store. A load changes one register and no memory; a store changes the bytes it names
and no register; a misaligned address, or one in the keeper region in kernel mode, is no such form. -/
def Obligations.LocalLoadsAndStores : Prop :=
  ∀ (s : State) (c : CoreId),
    let x := s.core c.key
    let top := if x.kernel then 0x2F000 else 0x30000
    (∀ f : FmtM,
      let n := 2 ^ f.size.toNat
      let a := (x.greg f.a.toNat + f.imm.signExtend 64).toNat
      let m := coreAddr c.key (0x10000 + a)
      a % n = 0 → a + n ≤ top →
      (CoreReady s c (.ldl c f) 2 → s.badIn m n = none → Completes (.ldl c f) s fun t => CoreStep s t c (x.setG f.d.toNat
        (if f.sx then BitVec.ofInt 64 (toInt (8 * n) (s.mem.readLe m n)) else BitVec.ofNat 64 (s.mem.readLe m n))) (seqPc s c) 2) ∧
      (CoreReady s c (.stl c f) 1 → f.sx = false → Completes (.stl c f) s fun t =>
        t.mem.readLe m n = (x.greg f.d.toNat).toNat % 2 ^ (8 * n) ∧ SameMemBut s t m n ∧
        CoreStep { s with mem := t.mem, bad := t.bad } t c x (seqPc s c) 1)) ∧
    (∀ f : FmtVM, f.etype ≠ 7 →
      let z := laneBits f.etype.toNat / 8
      let a := (x.greg f.a.toNat + f.imm.signExtend 64 * 64).toNat
      let m := coreAddr c.key (0x10000 + a)
      let open_ (l : Nat) : Prop := bit (x.preg f.p.toNat).toNat l = true
      a % 64 = 0 → a + 64 ≤ top →
      (CoreReady s c (.vldl c f) 2 → (∀ l, l < 64 / z → ¬open_ l) → Completes (.vldl c f) s fun t => CoreStep s t c x (seqPc s c) 2) ∧
      (CoreReady s c (.vldl c f) 2 → s.badIn m 64 = none → (∃ l, l < 64 / z ∧ open_ l) → Completes (.vldl c f) s fun t => ∃ v : BitVec 512,
        CoreStep s t c (x.setV f.vd.toNat v) (seqPc s c) 2 ∧
        ∀ l, l < 64 / z → (open_ l → vlane v (8 * z) l = s.mem.readLe (m + l * z) z) ∧
          (¬open_ l → vlane v (8 * z) l = vlane (x.vreg f.vd.toNat) (8 * z) l)) ∧
      (CoreReady s c (.vstl c f) 1 → Completes (.vstl c f) s fun t =>
        (∀ l, l < 64 / z → (open_ l → t.mem.readLe (m + l * z) z = vlane (x.vreg f.vd.toNat) (8 * z) l) ∧
          (¬open_ l → t.mem.readLe (m + l * z) z = s.mem.readLe (m + l * z) z)) ∧
        SameMemBut s t m 64 ∧ CoreStep { s with mem := t.mem, bad := t.bad } t c x (seqPc s c) 1))

/-- R99, R100, R102, R115, R153, R141: global accesses of a core to its own unit. An aligned access that the core may make counts as
outstanding and against the HBM budget; the load writes D, the store changes the bytes it names, and no other byte changes. -/
def Obligations.GlobalLoadsAndStores : Prop :=
  ∀ (s : State) (c : CoreId),
    let x := s.core c.key
    (∀ (a al n : Nat) (kind : TxKind) (fault : Nat → Option AccessFault), a % al = 0 → unitOf a = s.unitNo →
      s.mayAccess x (localOf a) = true → fault (localOf a) = none →
      (classOf (localOf a) < 2 → x.kernel = true → x.hbmOn = true ∧ n ≤ x.hbmLeft) → x.accesses.length < 8 →
      s.inject.armed = false →
      s.access c.key x a al n kind fault = .here (s.updCore c.key fun y => { y with
          outstanding := y.outstanding ++
            [⟨if isleOf (localOf a) = c.key / 16 then 1 else 2, decide (classOf (localOf a) < 2)⟩]
          hbmLeft := if classOf (localOf a) < 2 && x.kernel then y.hbmLeft - n else y.hbmLeft })
        (localOf a) (48 * (hops (s.jobTable x) (c.key / 16) (isleOf (localOf a))).getD 0)) ∧
    (∀ (f : FmtM) (u : State) (l b : Nat),
      let n := 2 ^ f.size.toNat
      let a := (x.greg f.a.toNat + f.imm.signExtend 64).toNat
      (∀ found : ReadFinding, CoreReady s c (.ldg c ⟨f, .intact⟩) (24 + b) →
        s.access c.key x a n n .read (s.foundFault · n found) = .here u l b → Completes (.ldg c ⟨f, found⟩) s fun t =>
          t.core c.key = retired x.kernel ((u.core c.key).setG f.d.toNat
            (if f.sx then BitVec.ofInt 64 (toInt (8 * n) (u.mem.readLe l n)) else BitVec.ofNat 64 (u.mem.readLe l n)))
            (seqPc s c) (24 + b) ∧
          ((rsRead found).1 ≠ .corrected → (∀ j, j ≠ c.key → t.core j = u.core j) ∧
            t = { u with cores := t.cores, caches := t.caches })) ∧
      (CoreReady s c (.stg c f) (24 + b) → f.sx = false → s.access c.key x a n n .write (s.writeFault · n) = .here u l b →
        Completes (.stg c f) s fun t => t.mem.readLe l n = (x.greg f.d.toNat).toNat % 2 ^ (8 * n) ∧ SameMemBut u t l n ∧
        CoreStepFrom x { u with mem := t.mem, bad := t.bad } t c (u.core c.key) (seqPc s c) (24 + b))) ∧
    (∀ (f : FmtVM) (u : State) (l b : Nat), f.etype ≠ 7 →
      let z := laneBits f.etype.toNat / 8
      let a := (x.greg f.a.toNat + f.imm.signExtend 64 * 64).toNat
      let open_ (i : Nat) : Prop := bit (x.preg f.p.toNat).toNat i = true
      let n := ((List.range (512 / (8 * z))).filter (bit (x.preg f.p.toNat).toNat)).length * z
      (∃ i, i < 64 / z ∧ open_ i) →
      (∀ (found : ReadFinding) fault, CoreReady s c (.vldg c ⟨f, .intact⟩) (24 + b) → s.readFault l 64 = none →
        s.foundFault l 64 found = none → fault l = none →
        s.access c.key x a 64 n .read fault = .here u l b → Completes (.vldg c ⟨f, found⟩) s fun t => ∃ v : BitVec 512,
        t.core c.key = retired x.kernel ((u.core c.key).setV f.vd.toNat v) (seqPc s c) (24 + b) ∧
        ((rsRead found).1 ≠ .corrected → (∀ j, j ≠ c.key → t.core j = u.core j) ∧ t = { u with cores := t.cores, caches := t.caches }) ∧
        ∀ i, i < 64 / z → (open_ i → vlane v (8 * z) i = u.mem.readLe (l + i * z) z) ∧
          (¬open_ i → vlane v (8 * z) i = vlane (x.vreg f.vd.toNat) (8 * z) i)) ∧
      (∀ fault, CoreReady s c (.vstg c f) (24 + b) → s.writeFault l 64 = none → s.badIn l 64 = none → fault l = none →
        s.access c.key x a 64 n .write fault = .here u l b → Completes (.vstg c f) s fun t =>
          (∀ i, i < 64 / z → (open_ i → t.mem.readLe (l + i * z) z = vlane (x.vreg f.vd.toNat) (8 * z) i) ∧
            (¬open_ i → t.mem.readLe (l + i * z) z = u.mem.readLe (l + i * z) z)) ∧
          SameMemBut u t l 64 ∧ CoreStepFrom x { u with mem := t.mem, bad := t.bad } t c (u.core c.key) (seqPc s c) (24 + b)))

/-- R105, R161, R111: an atomic on an isle store returns the old value in D and stores its result, and where no reduce line is
open on its line no adder changes; FADD32 in a kernel also makes the kernel's run non-reproducible. The old value of 4 bytes is zero-extended (the model's choice, log 41). -/
def Obligations.AtomicsOnIsleStores : Prop :=
  ∀ (s u : State) (c : CoreId) (f : FmtA) (l b : Nat) (wide : Bool),
    let x := s.core c.key
    let n := if wide then 8 else 4
    let a := (x.greg f.a.toNat).toNat
    let w := 2 ^ (8 * n)
    let old := u.mem.readLe l n
    let vb := (x.greg f.b.toNat).toNat % w
    let vd := (x.greg f.d.toNat).toNat % w
    unitOf a = s.unitNo → classOf a = 2 → a % n = 0 →
    s.access c.key x a n n .write (fun l => (s.readFault l n).orElse fun _ => s.writeFault l n) = .here u l b →
    let gives (i : Instr) (v : Nat) : Prop := CoreReady s c i (24 + b) → Completes i s fun t =>
      t.mem.readLe l n = v ∧ SameMemBut u t l n ∧
      t.core c.key = retired x.kernel ((u.core c.key).setG f.d.toNat (BitVec.ofNat 64 old)) (seqPc s c) (24 + b) ∧
      t = { u with mem := t.mem, bad := t.bad, cores := t.cores, ctxs := t.ctxs, adders := t.adders } ∧
      ((u.adder (adderKey (isleOf l) 2)).lines.find? (offOf l / 64 * 64) = none → t.adders = u.adders) ∧ ((∀ g, i ≠ .amoFadd32 c g) → t.ctxs = u.ctxs)
    gives (.amoAdd c wide f) ((old + vb) % w) ∧ gives (.amoMin c wide f) (if toInt (8 * n) vb < toInt (8 * n) old then vb else old) ∧
    gives (.amoMax c wide f) (if toInt (8 * n) old < toInt (8 * n) vb then vb else old) ∧ gives (.amoSwap c wide f) vb ∧
    gives (.amoCas c wide f) (if old = vd then vb else old) ∧
    (wide = false → gives (.amoFadd32 c f) (f32Add old vb % w) ∧ ∀ ctx r, x.job = some ctx → x.kernel = true →
      (u.ctx ctx).run = some r → CoreReady s c (.amoFadd32 c f) (24 + b) → Completes (.amoFadd32 c f) s fun t =>
        ∃ r', (t.ctx ctx).run = some r' ∧ r'.nonRepro = true)

/-- R104, R106, R103: token instructions on a counter that the core may name, and fences that need not wait. A signal to a counter of
another isle leaves as a token message; TWAIT retires once the counter has reached B, and until then waits where it is; TREAD writes the
counter to D. -/
def Obligations.TokenInstructionsAndFences : Prop :=
  ∀ (s : State) (c : CoreId) (isle counter : Nat),
    let x := s.core c.key
    let far := 48 * (hops (s.jobTable x) (c.key / 16) isle).getD 0
    (∀ (f : FmtA) (ok : Bool), s.tokenPlace x (x.greg f.a.toNat) ok = .ok (isle, counter) →
      let inc := (x.greg f.b.toNat).toNat
      (f.d = 0 → 1 ≤ inc → inc ≤ 1023 → (∀ o ∈ x.accesses, 2 < o.scope) → CoreReady s c (.tsig c f) (4 + far) →
        (x.job = none → Completes (.tsig c f) s fun t => t.token isle counter = Nat.min (s.token isle counter + inc) 65535 ∧
          (t.core c.key).pc = BitVec.ofNat 64 (seqPc s c) ∧ t = { s with tokens := t.tokens, cores := t.cores }) ∧
        (∀ ctx r, x.job = some ctx → s.activeRun ctx = some r → isle ≠ c.isle.val → Completes (.tsig c f) s fun t =>
          CoreStep { s with flying := s.flying ++ [⟨ctx, r.number, c.isle.val, isle, counter, inc⟩] } t c x (seqPc s c) (4 + far)) ∧
        (∀ ctx r, x.job = some ctx → s.activeRun ctx = some r → isle = c.isle.val → s.token isle counter + inc ≤ 65535 →
          Completes (.tsig c f) s fun t => t.token isle counter = s.token isle counter + inc ∧
            (t.core c.key).pc = BitVec.ofNat 64 (seqPc s c) ∧ t = { s with tokens := t.tokens, cores := t.cores })) ∧
      (f.d = 0 → inc ≤ s.token isle counter → inc ≤ 65535 → s.jobHalted x = false → CoreReady s c (.twait c f) (4 + far) →
        Completes (.twait c f) s fun t => CoreStep s t c x (seqPc s c) (4 + far)) ∧
      (f.d = 0 → s.token isle counter < inc → inc ≤ 65535 → s.jobHalted x = false → CoreReady s c (.twait c f) 0 → Completes (.twait c f) s fun t =>
        t.core c.key = { x with twait := some (isle * 4096 + counter, inc) } ∧ t = { s with cores := t.cores }) ∧
      (f.b = 0 → CoreReady s c (.tread c f) (8 + far) → Completes (.tread c f) s fun t =>
        CoreStep s t c (x.setG f.d.toNat (BitVec.ofNat 64 (s.token isle counter))) (seqPc s c) (8 + far))) ∧
    (∀ f : FmtI, f.a = 0 → f.d = 0 → CoreReady s c (.fence c f) 1 →
      (f.imm.toNat ≤ 2 → (∀ o ∈ x.accesses, f.imm.toNat < o.scope) → Completes (.fence c f) s fun t => CoreStep s t c x (seqPc s c) 1) ∧
      (f.imm.toNat = 3 → (∀ o ∈ x.accesses, 2 < o.scope) → (∀ ctx r, x.job = some ctx → (s.ctx ctx).run = some r →
        s.postedOpen ctx r.number = false ∧ r.poisoned = false) → Completes (.fence c f) s fun t => CoreStep s t c x (seqPc s c) 1) ∧
      (f.imm.toNat = 4 → x.kernel = false → Completes (.fence c f) s fun t => CoreStep s t c x (seqPc s c) 1))

/-- R95, R98, R116, R117; 05, Tables 12 and 14 to 17: HALT ends a kernel and opens its implicit fence; BRK takes a breakpoint trap in
keeper mode; RESUME restores the saved status; RING sets a doorbell; CSRR and CSRW move control registers in keeper mode; WAIT with a
pending wake source completes at once and otherwise puts the core to sleep. -/
def Obligations.ModesTrapsAndControlRegisters : Prop :=
  ∀ (s : State) (c : CoreId),
    let x := s.core c.key
    (∀ f : FmtA, f.d = 0 → f.a = 0 → f.b = 0 →
      (CoreReady s c (.halt c f) 0 → x.kernel = true →
        (∀ ctx r, x.job = some ctx → (s.ctx ctx).run = some r → s.postedOpen ctx r.number = false) →
        Completes (.halt c f) s fun t => t.core c.key = { x with
          beats := x.beats + 1, status := x.status &&& ~~~1, pc := x.idlePc, waiting := false, outstanding := [],
          draining := x.draining ++ x.job.toList.map fun ctx => ⟨ctx, x.pc.toNat, x.outstanding⟩, job := none } ∧
          t = { s with cores := t.cores }) ∧
      (CoreReady s c (.brk c f) 0 → x.kernel = false → bit x.status.toNat 2 = false →
        let entry := s.mem.readLe (coreAddr c.key (0x10000 + x.trapTab.toNat + 32)) 4
        entry % 4 = 0 → entry ≤ 0xFFC → Completes (.brk c f) s fun t =>
          (t.core c.key).cause = 8 ∧ (t.core c.key).epc = x.pc ∧ (t.core c.key).trapAddr = x.pc ∧ (t.core c.key).saved = x.status ∧
          (t.core c.key).status = (x.status &&& ~~~2 ||| 4) ∧ (t.core c.key).pc = BitVec.ofNat 64 entry ∧
          t = { s with cores := t.cores }) ∧
      (CoreReady s c (.resume c f) 2 → x.kernel = false →
        Completes (.resume c f) s fun t => CoreStep s t c { x with status := x.saved } x.epc.toNat 2) ∧
      (CoreReady s c (.wait c f) 0 → x.kernel = false → x.wakeMask &&& x.wakeCause ≠ 0 → Completes (.wait c f) s fun t => CoreStep s t c x (seqPc s c) 0) ∧
      (CoreReady s c (.wait c f) 0 → x.kernel = false → x.wakeMask &&& x.wakeCause = 0 → x.pmode &&& 7 = 0 → Completes (.wait c f) s fun t =>
        t.core c.key = { x with pc := x.pc + 4, power := .nap } ∧ t = { s with cores := t.cores })) ∧
    (∀ f : FmtA, f.d = 0 → f.b = 0 → x.kernel = false → CoreReady s c (.ring c f) 2 → Completes (.ring c f) s fun t =>
      let k := c.isle.val * 16 + (x.greg f.a.toNat).toNat % 16
      (t.core k).wakeCause = ((s.core k).wakeCause ||| 4) ∧ t = { s with cores := t.cores }) ∧
    (∀ (f : FmtI) (v : Word), s.csr c x f.imm.toNat = some v → f.a = 0 → CoreReady s c (.csrr c f) 2 →
      (x.kernel = true → f.imm.toNat = 0 ∨ 0x14 < f.imm.toNat) →
      Completes (.csrr c f) s fun t => CoreStep s t c (x.setG f.d.toNat v) (seqPc s c) 2) ∧
    (∀ f : FmtI, f.d = 0 → x.kernel = false → CoreReady s c (.csrw c f) 2 →
      let v := x.greg f.a.toNat
      let sets (y : CoreSt) : Prop := Completes (.csrw c f) s fun t => CoreStep s t c y (seqPc s c) 2
      (f.imm = 0x001 → sets { x with cause := v }) ∧ (f.imm = 0x002 → sets { x with epc := v }) ∧
      (f.imm = 0x005 → sets { x with idlePc := v }) ∧ (f.imm = 0x006 → sets { x with saved := v &&& 7 }) ∧
      (f.imm = 0x013 → sets { x with timecmp := v }) ∧ (f.imm = 0x011 → sets { x with wakeMask := v &&& 0x1F }) ∧
      (f.imm = 0x012 → sets { x with wakeCause := x.wakeCause &&& ~~~(v &&& 0x1F) }) ∧
      (f.imm = 0x000 → sets { x with status := (x.status &&& ~~~6) ||| (v &&& 6) }))

/-- R97, R98, R102, R117, R118, R121, R124: a KERNEL starts with its arguments in g1 and g2 and every other register 0; its command
completes once its fence has; the core's outside events; a stalled kernel halts its job and its core is disabled. -/
def Obligations.KernelsAndCoreEvents : Prop :=
  ∀ (s : State) (c : CoreId),
    let x := s.core c.key
    (∀ (ctx : Ctx) (o : KernelOps), kernelValid o = true → kernelReserved o = true → kernelFits o = true →
      (s.activeRun ctx.val).isSome = true → (s.engineOp ctx.val 2 c.isle.val c.core.val (.kernel o)).isSome = true →
      x.kernel = false → x.disabled = false → (x.power = .run ∨ x.power = .nap) →
      Completes (.kernel ctx c o) s fun t =>
        let y := t.core c.key
        (∀ r, y.greg r = if r = 1 ∧ o.args = true then o.arg.zeroExtend 64 else
          if r = 2 ∧ o.args = true then o.argLen.zeroExtend 64 else 0) ∧
        (∀ r, y.vreg r = 0) ∧ (∀ r, y.preg r = if r = 0 then BitVec.allOnes 64 else 0) ∧ y.pc = o.entry.zeroExtend 64 ∧
        y.kernel = true ∧ y.beats = 0 ∧ y.budget = o.budget.toNat ∧ y.job = some ctx.val ∧
        y.hbmLeft = (if o.hbm then o.hbmKib.toNat * 1024 else 0) ∧ y.straitLeft = (if o.strait then o.straitKib.toNat * 1024 else 0) ∧
        t = { s with cores := t.cores }) ∧
    (∀ (ctx pc n : Nat) (rest : List Draining) (r : Run) (p : Plan) (st : Strand) (cmd : Cmd), x.draining = ⟨ctx, pc, []⟩ :: rest →
      (s.ctx ctx).run = some r → (s.ctx ctx).plan = some p → s.postedOpen ctx r.number = false → r.poisoned = false →
      p.coreStrand c.key = some n → p.strands[n]? = some st → (r.strand n).completed < (r.strand n).started →
      st.cmds[(r.strand n).completed]? = some cmd → cmd.sigMode = 0 → Completes (.kernelComplete c) s fun t =>
        (t.core c.key).draining = rest ∧ (t.bant (c.key / 16)).kernels = satAdd 64 (s.bant (c.key / 16)).kernels 1 ∧
        (∃ r', (t.ctx ctx).run = some r' ∧ (r'.strand n).completed = (r.strand n).completed + 1) ∧
        t = { s with cores := t.cores, bantam := t.bantam, ctxs := t.ctxs }) ∧
    Completes (.globalAccessComplete c) s (fun t => t.core c.key = x.accessDone (·.scope != 3) ∧
      (x.draining = [] → t.core c.key = { x with outstanding := x.outstanding.eraseP (·.scope != 3) }) ∧
      t = { s with cores := t.cores }) ∧
    Completes (.timecmpReached c) s (fun t => t.core c.key = { x with wakeCause := x.wakeCause ||| 8 } ∧ t = { s with cores := t.cores }) ∧
    (x.power ≠ .run → x.wakeMask &&& x.wakeCause ≠ 0 → s.power.isle.get .i3 c.isle.val = .i0 → Completes (.coreWake c) s fun t =>
      (t.core c.key).power = .run ∧ (x.power ≠ .off → (t.core c.key).pc = x.pc) ∧
      (x.power = .off → (t.core c.key).pc = 0 ∧ (t.core c.key).cause = 0x0C) ∧ t = { s with cores := t.cores }) ∧
    (∀ ctx, x.job = some ctx → x.kernel = true → x.runs = true → s.atTwait x = false → Completes (.bantamStall c) s fun t =>
      (t.core c.key).disabled = true ∧ bit (t.isle (c.key / 16)).bantam.toNat (c.key % 16) = false ∧ (t.core c.key).kernel = false ∧
      (∀ r, s.activeRun ctx = some r → ∃ r', (t.ctx ctx).run = some r' ∧ r'.halted = some 0x252) ∧ t.mem = s.mem) ∧
    (∀ i : Isle, s.power.isle.get .i3 i.val = .i0 → Completes (.housekeepingReport i) s fun t =>
      (t.bg.get {} (bgKey 15 i.val 0)).cycles = satAdd 32 (s.bg.get {} (bgKey 15 i.val 0)).cycles 1 ∧ t = { s with bg := t.bg })

/-- R31, R32, R33, R136, R177, R203, R305: how a command of a strand starts and completes. It starts only with its wait met, a place free,
its stint granted and its engine outside a BG_WINDOW, and a grant is then used. A command in flight that completes in order counts once, as
soon as all that its completion waits for is done; its header signal goes to a counter of its own isle at once; NOP only waits and signals;
BG_WINDOW frees the strand's engine for DURATION. (What a strand of a Strait port sends as it completes is in another statement.) -/
def Obligations.StrandsStartAndComplete : Prop :=
  ∀ (s : State) (ctx : Ctx) (n : Nat) (st : Strand) (r : Run) (cmd : Cmd), s.activeRun ctx.val = some r →
    s.strandOf ctx.val n = some st →
    (st.cmds[(r.strand n).started]? = some cmd → s.waitMet st cmd = true → s.granted ctx.val r st (r.strand n).started cmd = true →
      s.strandIdle st = false → s.placeFree st cmd = true → (r.strand n).started - (r.strand n).completed < queueDepth st.cls → Completes (.commandWaitMet ctx n) s fun t =>
        (∃ r', (t.ctx ctx.val).run = some r' ∧ r'.strand n = { (r.strand n) with started := (r.strand n).started + 1 } ∧
          ∀ m, m ≠ n → r'.strand m = r.strand m) ∧ t = { s with ctxs := t.ctxs, cores := t.cores, grants := t.grants } ∧
        (∀ k, (t.grant k).holder = (s.grant k).holder ∧ (t.grant k).served = (s.grant k).served) ∧
        (∀ k ∈ st.stintKeys (r.strand n).started cmd, (s.grant k).holder = some ctx.val → (t.grant k).due = none) ∧
        (st.cls ≠ 2 → t.cores = s.cores)) ∧
    (st.cmds[(r.strand n).started]? = some cmd → (s.granted ctx.val r st (r.strand n).started cmd = false ∨ s.waitMet st cmd = false ∨
      s.strandIdle st = true ∨ queueDepth st.cls ≤ (r.strand n).started - (r.strand n).completed ∨ s.placeFree st cmd = false) →
      exec (.commandWaitMet ctx n) s = .next s) ∧
    (st.cmds[(r.strand n).completed]? = some cmd → (r.strand n).completed < (r.strand n).started → cmd.cls ≠ 2 →
      s.doneWaiting ctx.val r st cmd = true → st.cls ≠ 5 →
      let done (t : State) : Prop := ∃ r', (t.ctx ctx.val).run = some r' ∧ (r'.strand n).completed = (r.strand n).completed + 1
      (cmd.sigMode = 0 → Completes (.commandComplete ctx n) s fun t => done t ∧ t = { s with ctxs := t.ctxs }) ∧
      (cmd.sigMode ≠ 0 → cmd.sigIsle = st.isle → s.token cmd.sigIsle cmd.sigCounter + cmd.sigInc ≤ 65535 →
        Completes (.commandComplete ctx n) s fun t => done t ∧
          t.token cmd.sigIsle cmd.sigCounter = s.token cmd.sigIsle cmd.sigCounter + cmd.sigInc ∧
          t = { s with ctxs := t.ctxs, tokens := t.tokens, cores := t.cores }) ∧
      (cmd.sigMode ≠ 0 → cmd.sigIsle ≠ st.isle → Completes (.commandComplete ctx n) s fun t => done t ∧
          t = { s with ctxs := t.ctxs, flying := s.flying ++ [⟨ctx.val, r.number, st.isle, cmd.sigIsle, cmd.sigCounter, cmd.sigInc⟩] })) ∧
    (st.cmds[(r.strand n).completed]? = some cmd → cmd.cls ≠ 2 → s.doneWaiting ctx.val r st cmd = false →
      exec (.commandComplete ctx n) s = .next s) ∧
    exec (.nop ctx n) s = .next s ∧
    (∀ d : BitVec 32, 20000 ≤ d.toNat → d.toNat ≤ 500000 → st.cls ≠ 5 →
      (∃ k ∈ r.inFlight n st, k.op = some (.bgWindow d.toNat)) → Completes (.bgWindow ctx n d) s fun t =>
      t = { s with windows := s.windows.put (windowKey st.isle st.cls st.inst) (s.clock.ticks + d.toNat / 4) })

/-- R46, R44, R45, R57, R68: a token message in flight always arrives or is lost, and no memory and no other counter changes. One of the
active run adds INC to its counter, saturating at 65,535 and then halting the job; one of a run that is no longer active is discarded and
counted as stale; one that meets a Sound with an uncorrectable error on its route is lost, and the job halts.
R23, R24: every pace window of a powered isle closes: PACE_NOW is its exact average, and one below the floor in force counts as low and
marks the runs of the isle's plans. A window of pace 0 fails the isle, whose jobs halt (R480; that it counts in no PACE_LOW_WINDOWS is the
model's choice, log 161). -/
def Obligations.TokenMessagesAndPaceWindows : Prop :=
  (∀ (s : State) (ctx : Ctx) (run : BitVec 16) (isle : Isle) (counter : BitVec 12) (inc : BitVec 10) (m : TokenMsg)
      (err : Option SoundId), s.messageOf ctx.val run.toNat isle.val counter.toNat inc.toNat = some m →
      let old := s.token isle.val counter.toNat
      let key := isle.val * 4096 + counter.toNat
      let i : Instr := .tokenMessage ctx run isle counter inc err
      Completes i s (fun t => t.mem = s.mem ∧ t.flying = s.flying.erase m ∧ ∀ k, k ≠ key → t.tokens.get 0 k = s.tokens.get 0 k) ∧
      (∀ r, s.activeRun ctx.val = some r → r.number = run.toNat → s.inject.armed = false → (m.src = isle.val ∨ err = none) →
        (old + inc.toNat ≤ 65535 → Completes i s fun t => t.token isle.val counter.toNat = old + inc.toNat ∧
          t = { s with flying := s.flying.erase m, tokens := t.tokens, cores := t.cores }) ∧
        (65535 < old + inc.toNat → Completes i s fun t =>
          t.token isle.val counter.toNat = 65535 ∧ ∃ r', (t.ctx ctx.val).run = some r' ∧ r'.halted = some 0x620)) ∧
      (∀ r p n, s.activeRun ctx.val = some r → r.number = run.toNat → s.inject.armed = false → m.src ≠ isle.val → err = some n →
        (s.ctx ctx.val).plan = some p → (∃ d, (n.val, d) ∈ placeSounds (s.tableOf p.header.epoch) m.src isle.val) →
        Completes i s fun t => t.tokens = s.tokens ∧ ∃ r', (t.ctx ctx.val).run = some r' ∧ r'.halted = some 0x223) ∧
      ((∀ r, s.activeRun ctx.val = some r → r.number ≠ run.toNat) → Completes i s fun t =>
          (t.isle isle.val).stale = satAdd 32 (s.isle isle.val).stale 1 ∧
          t = { s with flying := s.flying.erase m, isles := t.isles })) ∧
  (∀ (s : State) (isle : Isle) (num den : Nat), den ≠ 0 → s.power.isle.get .i3 isle.val = .i0 →
      let p := (s.isle isle.val).pace
      let floor := if p.window = 0 then s.floor else Nat.min p.window s.floor
      Completes (.paceWindowClose isle num den) s fun t =>
        let q := (t.isle isle.val).pace
        q.now = num / den ∧ q.window = 0 ∧
        (num ≠ 0 → q.minSeen = Nat.min p.minSeen (num / den) ∧ t.mem = s.mem ∧ t.tokens = s.tokens) ∧
        (num ≠ 0 → floor * den ≤ num → q.lowWindows = p.lowWindows ∧ (p.below = false → t = { s with isles := t.isles, ctxs := t.ctxs })) ∧
        (num ≠ 0 → num < floor * den → q.lowWindows = satAdd 32 p.lowWindows 1 ∧ q.below = true ∧
          ∀ (c : Ctx) (k : Plan) (r : Run), (s.ctx c.val).plan = some k → k.names isle.val = true → (s.ctx c.val).run = some r →
            r.accepted = true → ∃ r', (t.ctx c.val).run = some r' ∧ r'.boundVoid = true) ∧
        (num = 0 → (s.isle isle.val).state = .serving → (t.isle isle.val).state = .failed ∧
          ∀ (c : Ctx) (k : Plan) (r : Run), (s.ctx c.val).plan = some k → k.names isle.val = true → s.activeRun c.val = some r →
            ∃ r', (t.ctx c.val).run = some r' ∧ r'.halted = some 0x221))

/-- R47, R49, R265, R284, R140: the Holm halts a deadlocked job; a halted job whose commands have completed ends with its lease returned; a
finished run ends with its context LOADED, each once the pace windows that hold its last command have closed (R48). The entry is consumed. -/
def Obligations.RunsEndAndLeasesReturn : Prop :=
  ∀ (s : State) (ctx : Ctx) (r : Run) (p : Plan), (s.ctx ctx.val).run = some r → (s.ctx ctx.val).plan = some p →
    (s.boot.restarting = false → s.activeRun ctx.val = some r → s.deadlocked ctx.val p r = true →
      Completes .tokenDeadlockCheck s fun t => ∃ r', (t.ctx ctx.val).run = some r' ∧ r'.halted = some 0x622) ∧
    (∀ code, r.halted = some code → s.quiet ctx.val = true → s.windowsClosed r = true → Completes (.jobHaltComplete ctx) s fun t =>
      let x := t.ctx ctx.val
      x.run = none ∧ x.plan = none ∧ x.clearing = (s.ctx ctx.val).clearing ++ [p] ∧ x.cons = (s.ctx ctx.val).cons + 1 ∧
      x.entry = none ∧ ((s.ctx ctx.val).state ≠ .haltedLink → x.state = .empty) ∧ t.mem = s.mem) ∧
    (s.activeRun ctx.val = some r → r.finished p = true → s.postedOpen ctx.val r.number = false → s.windowsClosed r = true → Completes (.runEnd ctx) s fun t =>
      let x := t.ctx ctx.val
      x.run = none ∧ x.plan = some p ∧ x.state = .loaded ∧ x.cons = (s.ctx ctx.val).cons + 1 ∧ x.entry = none ∧
      x.account.runs = satAdd 64 (s.ctx ctx.val).account.runs 1 ∧ t.mem = s.mem ∧ ∀ k, t.pages.get 64 k ≠ ctx.val)

/-- R6, R7, R43, R90, R137 to R139, R258: a plan command with operands that the loader refuses is no command of a loaded plan. Where one is
given, the model stops on it by name and does nothing (safe). -/
def Obligations.OperandsRefusedAtLoadStop : Prop :=
  ∀ (s : State) (ctx : Ctx) (e : EngineId) (i : Isle) (c : CoreId) (p : Port) (n : Nat),
    let stops (k : Instr) : Prop := exec k s = .refused .operandRefusedAtLoad
    (∀ o : KernelOps, (kernelValid o && kernelReserved o && kernelFits o) = false → stops (.kernel ctx c o)) ∧
    (∀ d : BitVec 32, (d.toNat < 20000 ∨ 500000 < d.toNat) → stops (.bgWindow ctx n d)) ∧
    (∀ o : ForkOps, (o.children = 0 ∨ 4096 < o.children.toNat) → stops (.fork ctx o)) ∧
    (∀ (o : SplitOps) err, o.count = 0 → stops (.split ctx ⟨o, err⟩)) ∧
    (∀ o : ReleaseOps, (o.lists = 0 ∨ 1048576 < o.lists.toNat) → stops (.release ctx o)) ∧
    (∀ (o : CopyOps) err found, (o.count = 0 ∨ o.axis = true ∨ o.run ≠ 0 ∨ o.first ≠ 0) → stops (.copy ctx i o ⟨err, found⟩)) ∧
    (∀ (o : CopyOps) err, (o.count = 0 ∨ o.run.toNat < 2 ∨ 8 < o.run.toNat) → stops (.mcast ctx i o err)) ∧
    (∀ o : WloadOps, (wloadValid o && wloadFits o) = false → stops (.wload ctx e o)) ∧
    (∀ o : AccloadOps, (accloadValid o && accloadFits o) = false → stops (.accload ctx e o)) ∧
    (∀ o : MasksetOps, (masksetValid o && masksetFits o) = false → stops (.maskset ctx e o)) ∧
    (∀ o : MatmulOps, (matmulValid o && matmulFits o) = false → stops (.matmul ctx e o)) ∧
    (∀ o : DrainOps, (drainValid o && drainFits o && drainInside o) = false → stops (.drain ctx e o)) ∧
    (∀ o : LgeomOps, lgeomValid o = false → stops (.lgeom ctx i o)) ∧
    (∀ o : LwloadOps, (lwloadValid o && lwloadFits o) = false → stops (.lwload ctx i o)) ∧
    ((s.lamb i.val).dst = none → (∀ o, stops (.patch ctx i o)) ∧ (∀ o, stops (.lconv ctx i o)) ∧ (∀ o, stops (.pool ctx i o)) ∧
      (∀ o, stops (.resample ctx i o)) ∧ (∀ o, stops (.regroup ctx i o))) ∧
    (∀ (g : TargetId) (k : Contribution), (k.offset.toNat % 64 ≠ 0 ∨ classLimit g.cls.val ≤ k.offset.toNat) →
      stops (.reduceContribution ctx g k)) ∧
    (∀ o : WindowOps, windowValid s.unitNo o = false → stops (.window ctx p o)) ∧
    (∀ o : RemoteOps, remoteValid s.unitNo o = false → stops (.rget ctx p o) ∧ stops (.rput ctx p o) ∧ stops (.rreduce ctx p o)) ∧
    (∀ o : RsignalOps, rsignalValid s.unitNo o = false → stops (.rsignal ctx p o))

/-! ### Page lists and the page mover (06) -/

/-- R137, R139: FORK copies the parent's entries into each child list and adds CHILDREN to the COUNT of each frame named; RELEASE takes
one from the COUNT of every frame named, where no stack is away, and sets the lists' entries to null. Memory is unchanged.
R138: SPLIT of one page. A page whose frame is shared is copied into the first page of the reserve list, which takes its place, and
one is taken from the shared frame's COUNT; an unshared one stays, and the reserve page is dropped. -/
def Obligations.FrameCountsFollowForkSplitAndRelease : Prop :=
  (∀ (s : State) (ctx : Ctx) (r : Run) (st : Strand),
      (∀ o : ForkOps, s.controlOf ctx.val (.fork o) = some (r, st) → 1 ≤ o.children.toNat → o.children.toNat ≤ 4096 →
        let parent := r.lists.get {} o.parent.toNat
        let frames := parent.rows.map fun e => frameKey e.2
        s.overCount o.children.toNat frames = none → parent.keys.Nodup → Completes (.fork ctx o) s fun t =>
          (∀ k, (t.frame k).count = (s.frame k).count + o.children.toNat * frames.count k) ∧
          (∃ r', (t.ctx ctx.val).run = some r' ∧
            ∀ j i a, j < o.children.toNat → r.entry o.parent.toNat i = some a → r'.entry (o.firstChild.toNat + j) i = some a) ∧
          (t.isle (s.listIsle ctx.val o.parent.toNat)).forks = satAdd 64 (s.isle (s.listIsle ctx.val o.parent.toNat)).forks 1 ∧
          t = { s with frames := t.frames, isles := t.isles, ctxs := t.ctxs }) ∧
      (∀ o : ReleaseOps, s.controlOf ctx.val (.release o) = some (r, st) → 1 ≤ o.lists.toNat → o.lists.toNat ≤ 1048576 →
        (∀ k, s.stackRefuses (frameAddr k) = false) →
        let named := (List.range o.lists.toNat).map (o.first.toNat + ·)
        let frames := (named.flatMap fun l => (r.lists.get {} l).values).map frameKey
        Completes (.release ctx o) s fun t =>
          (∀ k, (t.frame k).count = (s.frame k).count - frames.count k) ∧
          (∃ r', (t.ctx ctx.val).run = some r' ∧ ∀ l i, r'.entry l i = if l ∈ named then none else r.entry l i) ∧
          t = { s with frames := t.frames, ctxs := t.ctxs })) ∧
  (∀ (s : State) (ctx : Ctx) (o : SplitOps) (r : Run) (st : Strand) (a ra ri : Nat), MemSafe s →
      s.controlOf ctx.val (.split o) = some (r, st) → s.inWindow (windowKey st.isle 4 0) = false → o.count = 1 →
      r.entry o.list.toNat o.first.toNat = some a → (r.lists.get {} o.reserve.toNat).rows.head? = some (ri, ra) →
      o.list ≠ o.reserve →
      let i := st.isle
      ((s.frame (frameKey a)).count ≤ 1 → ∀ err, Completes (.split ctx ⟨o, err⟩) s fun t =>
        (∃ r', (t.ctx ctx.val).run = some r' ∧ r'.entry o.list.toNat o.first.toNat = some a ∧ r'.entry o.reserve.toNat ri = none) ∧
        (t.frame (frameKey ra)).count = 0 ∧ (t.isle i).splitKept = satAdd 64 (s.isle i).splitKept 1 ∧
        t = { s with frames := t.frames, isles := t.isles, ctxs := t.ctxs }) ∧
      (1 < (s.frame (frameKey a)).count → s.readFault a 65536 = none → s.writeFault ra 65536 = none → copySkip a ra = 0 →
        frameKey a ≠ frameKey ra → (a + 65536 ≤ ra ∨ ra + 65536 ≤ a) → (isleOf a = isleOf ra ∨ s.inject.armed = false) →
        Completes (.split ctx ⟨o, none⟩) s fun t =>
          (∃ r', (t.ctx ctx.val).run = some r' ∧ r'.entry o.list.toNat o.first.toNat = some ra ∧ r'.entry o.reserve.toNat ri = none) ∧
          (t.frame (frameKey a)).count = (s.frame (frameKey a)).count - 1 ∧
          (∀ b, b < 65536 → t.mem.read (ra + b) = s.mem.read (a + b)) ∧ SameMemBut s t ra 65536 ∧
          (t.isle i).splitCopied = satAdd 64 (s.isle i).splitCopied 1))

/-- R131 to R134: COPY moves COUNT pages, each from its source to its destination, and MCAST moves each page to the same position in
every isle of its run. Every byte outside the destination pages is unchanged. (Pages of HBM, isle and operand or data stores that are
whole and unshared, apart from each other; no injection armed.) -/
def Obligations.PageMoverMovesPages : Prop :=
  ∀ (s : State) (ctx : Ctx) (isle : Isle) (o : CopyOps) (r : Run) (src : Nat → Nat), MemSafe s →
    s.inject.armed = false → s.bad.rows = [] → (∀ a, s.stackRefuses a = false) → 1 ≤ o.count.toNat →
    (∀ k, k < o.count.toNat → r.sidePage o.srcList o.src.toNat k = some (src k)) →
    (∀ dst : Nat → Nat, s.moverRuns ctx.val isle.val (.copy o) = some r → o.axis = false → o.run = 0 → o.first = 0 →
      (∀ k, k < o.count.toNat → r.sidePage o.dstList o.dst.toNat k = some (dst k) ∧ s.sharedIn (dst k) 65536 = none ∧
        copySkip (src k) (dst k) = 0) →
      (∀ j k, j < o.count.toNat → k < o.count.toNat → src j + 65536 ≤ dst k ∨ dst k + 65536 ≤ src j) →
      (∀ j k, j < o.count.toNat → k < o.count.toNat → j ≠ k → dst j + 65536 ≤ dst k ∨ dst k + 65536 ≤ dst j) →
      Completes (.copy ctx isle o ⟨none, none⟩) s fun t =>
        (∀ k b, k < o.count.toNat → b < 65536 → t.mem.read (dst k + b) = s.mem.read (src k + b)) ∧
        (∀ a, (∀ k, k < o.count.toNat → a < dst k ∨ dst k + 65536 ≤ a) → t.mem.read a = s.mem.read a) ∧
        t = { s with mem := t.mem }) ∧
    (∀ dst : Nat → Nat → Nat, s.moverRuns ctx.val isle.val (.mcast o) = some r → 2 ≤ o.run.toNat → o.run.toNat ≤ 8 →
      (∀ k, k < o.count.toNat → ∃ i, i < o.run.toNat ∧ isleOf (src k) = runIsle o i) →
      (∀ i k, i < o.run.toNat → k < o.count.toNat → r.mcastPage o i k = some (dst i k) ∧ s.sharedIn (dst i k) 65536 = none ∧
        copySkip (src k) (dst i k) = 0) →
      (∀ i j k, i < o.run.toNat → j < o.count.toNat → k < o.count.toNat → src j + 65536 ≤ dst i k ∨ dst i k + 65536 ≤ src j) →
      (∀ i i' k k', i < o.run.toNat → i' < o.run.toNat → k < o.count.toNat → k' < o.count.toNat → (i, k) ≠ (i', k') →
        dst i k + 65536 ≤ dst i' k' ∨ dst i' k' + 65536 ≤ dst i k) →
      Completes (.mcast ctx isle o none) s fun t =>
        (∀ i k b, i < o.run.toNat → k < o.count.toNat → b < 65536 → t.mem.read (dst i k + b) = s.mem.read (src k + b)) ∧
        (∀ a, (∀ i k, i < o.run.toNat → k < o.count.toNat → a < dst i k ∨ dst i k + 65536 ≤ a) → t.mem.read a = s.mem.read a) ∧
        t = { s with mem := t.mem })

/-! ### Ox engines (04) -/

/-- R75, R78, R79: WLOAD fills the shadow registers, ACCLOAD accumulator rows and MASKSET mask table entries from the engine's operand
store, and nothing else changes. -/
def Obligations.OxLoadsFillTheEngine : Prop :=
  ∀ (s : State) (ctx : Ctx) (e : EngineId), s.bad.rows = [] →
    let x := s.engine e.key
    (∀ o : WloadOps, s.engineRuns ctx.val e.key (.wload o) = true → wloadValid o = true → wloadFits o = true → Completes (.wload ctx e o) s fun t =>
      t.engine e.key = { x with shadow := ⟨o.wfmt.toNat, o.rows.toNat, (List.range o.rows.toNat).map fun i =>
        (List.range 128).map fun n => s.mem.readLe
          (operandAddr e.key (o.src.toNat + i * o.srcStride.toNat) + n * fmtSize o.wfmt.toNat) (fmtSize o.wfmt.toNat)⟩ } ∧
      OnlyEngine s t e.key) ∧
    (∀ o : AccloadOps, s.engineRuns ctx.val e.key (.accload o) = true → accloadValid o = true → accloadFits o = true → Completes (.accload ctx e o) s fun t =>
      let y := t.engine e.key
      (∀ i n, i < o.rows.toNat → n < 128 → (y.acc.get {} (o.accRow.toNat + i)).isInt = (o.sfmt == 7) ∧
        (y.acc.get {} (o.accRow.toNat + i)).lanes.getD n 0 = (if o.sfmt = 2 then 65536 else 1) * s.mem.readLe
          (operandAddr e.key (o.src.toNat + i * o.srcStride.toNat) + n * fmtSize o.sfmt.toNat) (fmtSize o.sfmt.toNat)) ∧
      (∀ q, (q < o.accRow.toNat ∨ o.accRow.toNat + o.rows.toNat ≤ q) → y.acc.get {} q = x.acc.get {} q) ∧
      y = { x with acc := y.acc } ∧ OnlyEngine s t e.key) ∧
    (∀ o : MasksetOps, s.engineRuns ctx.val e.key (.maskset o) = true → masksetValid o = true → masksetFits o = true → Completes (.maskset ctx e o) s fun t =>
      let y := t.engine e.key
      let a := operandAddr e.key o.src.toNat
      (∀ i, i < o.count.toNat → y.mask (o.first.toNat + i) = ⟨s.mem.readLe (a + 32 * i) 16, s.mem.readLe (a + 32 * i + 16) 16⟩) ∧
      (∀ q, (q < o.first.toNat ∨ o.first.toNat + o.count.toNat ≤ q) → y.mask q = x.mask q) ∧
      y = { x with masks := y.masks } ∧ OnlyEngine s t e.key)

/-- R71, R72, R76, R80, R91: a MATMUL first swaps the tiles where SWAP is 1, then each input row gives one accumulator row, which adds to
the row's value where ACC is 1; the engine's other rows and everything else of the machine are unchanged. -/
def Obligations.OxMatmulAccumulates : Prop :=
  ∀ (s : State) (ctx : Ctx) (e : EngineId) (o : MatmulOps), matmulValid o = true → matmulFits o = true →
    s.engineRuns ctx.val e.key (.matmul o) = true → s.bad.rows = [] →
    let x := s.engine e.key
    let t0 := if o.swap then x.shadow else x.active
    let m := x.mask o.mask.toNat
    fmtPair o.ifmt.toNat t0.fmt = true →
    x.accTyped o = true → Completes (.matmul ctx e o) s fun t =>
      let y := t.engine e.key
      y.active = t0 ∧ y.shadow = (if o.swap then x.active else x.shadow) ∧
      (∀ r, r < o.m.toNat → y.acc.get {} (o.accRow.toNat + r) =
        (matmulRow o.ifmt.toNat t0 m o.acc (x.acc.get {} (o.accRow.toNat + r)) (s.readVals
          (operandAddr e.key (o.inAddr.toNat + r * o.inStride.toNat)) (tileRows o.ifmt.toNat) (fmtSize o.ifmt.toNat))).1) ∧
      (∀ q, (q < o.accRow.toNat ∨ o.accRow.toNat + o.m.toNat ≤ q) → y.acc.get {} q = x.acc.get {} q) ∧
      y = { x with active := y.active, shadow := y.shadow, acc := y.acc, wraps := y.wraps } ∧
      OnlyEngine s t e.key

/-- R77, R84: a direct DRAIN without an auxiliary block writes each unmasked lane of each row, through the gate pipeline, at its place in
the destination. No other byte changes, and the engine keeps its rows. Rows that a later row overlaps are not stated. -/
def Obligations.OxDrainWritesRows : Prop :=
  ∀ (s : State) (ctx : Ctx) (e : EngineId) (o : DrainOps), drainValid o = true → drainFits o = true →
    drainInside o = true → drainAux o = false → o.dstMode = 0 → s.engineRuns ctx.val e.key (.drain o) = true →
    s.bad.rows = [] → (∀ a, s.stackRefuses a = false) →
    let x := s.engine e.key
    let m := x.mask o.mask.toNat
    let z := fmtSize o.ofmt.toNat
    let place (r : Nat) : Nat := gaddr (e.key / 4) o.dstClass.toNat (o.dst.toNat * 64 + r * o.dstStride.toNat)
    (∀ a, s.sharedAt a = false) → (∀ r, r < o.rows.toNat → o.ofmt = 7 → (x.acc.get {} (o.accRow.toNat + r)).isInt = true) →
    Completes (.drain ctx e o) s fun t =>
      (∀ r n, r < o.rows.toNat → n < 128 → bit m.col n = true → (128 * z ≤ o.dstStride.toNat ∨ r + 1 = o.rows.toNat) →
        let row := x.acc.get {} (o.accRow.toNat + r)
        t.mem.readLe (place r + n * z) z = gateLane o {} row.isInt (row.lanes.getD n 0) n 0 % 2 ^ (8 * z)) ∧
      (∀ a, (∀ r n, r < o.rows.toNat → n < 128 → bit m.col n = true → a < place r + n * z ∨ place r + n * z + z ≤ a) →
        t.mem.read a = s.mem.read a) ∧ t = { s with mem := t.mem }

/-- R92, R93, R393: one patrol vector of an Ox engine that is in a window or unheld, and a stalled engine, whose job halts and which
leaves the healthy mask.
R224, R225, R393: one patrol vector of a Lamb engine that is in a window or unheld; a second miscompare of one unit disables it, and
so does a stall, which halts the job. -/
def Obligations.PatrolsAndStalls : Prop :=
  (∀ (s : State) (e : EngineId),
      let x := s.engine e.key
      (x.state ≠ .disabled → (s.inWindow (windowKey e.isle.val 1 e.engine.val) = true ∨ s.oxUnheld e.key = true) →
        Completes (.oxPatrolVector e none false) s (fun t =>
          (t.engine e.key).vector = (x.vector + 1) % 2112 ∨ 2112 ≤ x.vector) ∧
        (x.vector + 1 ≠ 2112 → Completes (.oxPatrolVector e none true) s fun t => (t.engine e.key).skipped = satAdd 32 x.skipped 1 ∧
          (t.engine e.key).state = .healthy) ∧
        ∀ col : Fin 132, Completes (.oxPatrolVector e (some col) false) s fun t =>
          (x.suspect ≠ some col.val → (t.engine e.key).suspect = some col.val ∧ (t.engine e.key).spares = x.spares) ∧
          (x.suspect = some col.val → x.spares < 4 → (t.engine e.key).spares = x.spares + 1 ∧ (t.engine e.key).suspect = none) ∧
          (x.suspect = some col.val → 4 ≤ x.spares → (t.engine e.key).state = .disabled ∧
            bit (t.isle (e.key / 4)).ox.toNat (e.key % 4) = false)) ∧
      (∀ (opcode : Byte) (ctx : Nat), s.inFlightOn e.isle.val 1 e.engine.val (fun c => c.opcode == opcode.toNat) = some ctx →
        Completes (.oxStall e opcode) s fun t => (t.engine e.key).state = .disabled ∧
          bit (t.isle (e.key / 4)).ox.toNat (e.key % 4) = false ∧
          (∃ r', (t.ctx ctx).run = some r' ∧ r'.halted = some 0x241) ∧ t.mem = s.mem)) ∧
  (∀ (s : State) (isle : Isle),
      let l := s.lamb isle.val
      (l.state ≠ .disabled → (s.inWindow (windowKey isle.val 3 0) = true ∨ ∀ cp ∈ s.loaded, cp.2.hasLamb isle.val = false) →
        Completes (.lambPatrolVector isle none false) s (fun t => (t.lamb isle.val).vector = (l.vector + 1) % 1024 ∨ 1024 ≤ l.vector) ∧
        Completes (.lambPatrolVector isle none true) s (fun t => (t.lamb isle.val).skipped = satAdd 32 l.skipped 1 ∧
          (t.lamb isle.val).state = .healthy) ∧
        ∀ u : Fin 2, Completes (.lambPatrolVector isle (some u) false) s fun t =>
          (l.suspect ≠ some u.val → (t.lamb isle.val).suspect = some u.val) ∧
          (l.suspect = some u.val → (t.lamb isle.val).state = .disabled ∧ (t.isle isle.val).lamb = false)) ∧
      (∀ ctx : Nat, s.inFlightOn isle.val 3 0 (fun _ => true) = some ctx → Completes (.lambStall isle) s fun t =>
        (t.lamb isle.val).state = .disabled ∧ (t.isle isle.val).lamb = false ∧
        (∃ r', (t.ctx ctx).run = some r' ∧ r'.halted = some 0x261) ∧ t.mem = s.mem))

/-! ### Lamb engines (10) -/

/-- R208, R210: LGEOM sets one group and leaves the others; LWLOAD copies LEN bytes to the start of the parameter buffer. -/
def Obligations.LambSetsGeometryAndParameters : Prop :=
  ∀ (s : State) (ctx : Ctx) (isle : Isle),
    let l := s.lamb isle.val
    let done := satAdd 32 l.completed 1
    (∀ o : LgeomOps, lgeomValid o = true → s.lambRuns ctx.val isle.val (.lgeom o) = true → Completes (.lgeom ctx isle o) s fun t => OnlyLamb s t isle.val ∧ t.mem = s.mem ∧
      match o with
      | .src cls fmt off w h c rs ps => t.lamb isle.val =
          { l with completed := done, src := some ⟨cls.toNat, fmt.toNat, off.toNat, w.toNat, h.toNat, c.toNat, rs.toNat, ps.toNat⟩ }
      | .win kw kh sx sy dx dy => t.lamb isle.val =
          { l with completed := done, win := some ⟨kw.toNat, kh.toNat, sx.toNat, sy.toNat, dx.toNat, dy.toNat⟩ }
      | .pad pl pr pt pb => t.lamb isle.val =
          { l with completed := done, pad := some ⟨pl.toNat, pr.toNat, pt.toNat, pb.toNat⟩ }
      | .dst cls fmt off c rs ps => t.lamb isle.val =
          { l with completed := done, dst := some ⟨cls.toNat, fmt.toNat, off.toNat, 0, 0, c.toNat, rs.toNat, ps.toNat⟩ }) ∧
    (∀ o : LwloadOps, lwloadValid o = true → lwloadFits o = true → s.lambRuns ctx.val isle.val (.lwload o) = true →
      s.readFault (gaddr isle.val o.cls.toNat (o.src.toNat * 64)) o.len.toNat = none → Completes (.lwload ctx isle o) s fun t =>
        OnlyLamb s t isle.val ∧ t.mem = s.mem ∧ t.lamb isle.val = { l with completed := done, buf := (t.lamb isle.val).buf } ∧
        (∀ n, n < o.len.toNat → (t.lamb isle.val).buf[n]? = some (s.mem.read (gaddr isle.val o.cls.toNat (o.src.toNat * 64) + n))) ∧
        (∀ n, o.len.toNat ≤ n → (t.lamb isle.val).buf[n]? = l.buf[n]?))

/-- R209, R212, R214, R216: PATCH, POOL and REGROUP write each element of each output row at its place in the destination, from the
elements of the source as it was; the command counts as completed, and nothing but memory changes. -/
def Obligations.LambRearrangesAndPools : Prop :=
  ∀ (s : State) (ctx : Ctx) (isle : Isle) (g d : LambImage), s.bad.rows = [] → (∀ a, s.stackRefuses a = false) →
    (∀ a, s.sharedAt a = false) →
    let i := isle.val
    let l := s.lamb i
    l.src = some g → l.dst = some d →
    let z := pixelSize d.fmt
    let gives (c : Instr) (op : PlanOp) (ow rows channels : Nat) (elem : Nat → Nat → Nat → Nat) : Prop :=
      s.lambRuns ctx.val i op = true → Completes c s fun t =>
      OnlyLamb s t i ∧ t.lamb i = { l with completed := satAdd 32 l.completed 1 } ∧
      ∀ r x k, r < rows → x < ow → k < channels →
        t.mem.readLe (d.rowAddr i r + x * d.pixStride + k * z) z = elem r x k % 2 ^ (8 * z)
    (∀ w p, l.win = some w → l.pad = some p →
      (∀ o : PatchOps, lambCommon g d (lambOw g w p) (lambOh g w p) o.oy (!l.buf.isEmpty) = true → patchFmts g.fmt d.fmt = true →
        d.c = o.tapCount.toNat * o.cCount.toNat → o.tapCount ≠ 0 → o.cCount ≠ 0 →
        o.tapFirst.toNat + o.tapCount.toNat ≤ w.kw * w.kh → o.cFirst.toNat + o.cCount.toNat ≤ g.c →
        gives (.patch ctx isle o) (.patch o) (lambOw g w p) o.oy.count.toNat d.c fun r x k =>
          match tapAt g w p x (o.oy.first.toNat + r) (o.tapFirst.toNat + k / o.cCount.toNat) with
          | some (sx, sy) => s.lambElem i g sx sy (o.cFirst.toNat + k % o.cCount.toNat)
          | none => 0) ∧
      (∀ o : PoolOps, lambCommon g d (lambOw g w p) (lambOh g w p) o.oy true = true → floatFmts g.fmt d.fmt = true →
        o.mode.toNat ≤ 2 → d.c = g.c → gives (.pool ctx isle o) (.pool o) (lambOw g w p) o.oy.count.toNat d.c fun r x k =>
          convertF32 d.fmt (s.poolElem i g w p o.mode.toNat x (o.oy.first.toNat + r) k))) ∧
    (∀ (o : RegroupOps) (ow oh oc : Nat), regroupShape g o.dir.toNat o.f.toNat = some (ow, oh, oc) →
      lambCommon g d ow oh o.oy (!l.buf.isEmpty) = true → patchFmts g.fmt d.fmt = true → d.c = oc →
      gives (.regroup ctx isle o) (.regroup o) ow o.oy.count.toNat oc fun r x k =>
        let q := regroupFrom g o.dir.toNat o.f.toNat x (o.oy.first.toNat + r) k
        s.lambElem i g q.1 q.2.1 q.2.2)

/-- R213, R215: LCONV (to a destination that is no YC420 image) and RESAMPLE write each element of each output row, as the rules compute
it from the source as it was; the command counts as completed, and nothing but memory changes. -/
def Obligations.LambConvolvesAndResamples : Prop :=
  ∀ (s : State) (ctx : Ctx) (isle : Isle) (g d : LambImage), s.bad.rows = [] → (∀ a, s.stackRefuses a = false) →
    (∀ a, s.sharedAt a = false) →
    let i := isle.val
    let l := s.lamb i
    l.src = some g → l.dst = some d →
    let z := pixelSize d.fmt
    let gives (c : Instr) (op : PlanOp) (ow rows channels : Nat) (elem : Nat → Nat → Nat → Nat) : Prop :=
      s.lambRuns ctx.val i op = true → Completes c s fun t =>
      OnlyLamb s t i ∧ t.lamb i = { l with completed := satAdd 32 l.completed 1 } ∧
      ∀ r x k, r < rows → x < ow → k < channels →
        t.mem.readLe (d.rowAddr i r + x * d.pixStride + k * z) z = elem r x k % 2 ^ (8 * z)
    (∀ w p (o : LconvOps), l.win = some w → l.pad = some p →
      lambCommon g d (lambOw g w p) (lambOh g w p) o.oy (!l.buf.isEmpty) = true → lconvFmts g.fmt d.fmt = true → d.fmt ≠ 0x11 →
      w.kw ≤ 11 → w.kh ≤ 11 → (g.c ≤ 16 ∨ d.c ≤ 16) → o.func.toNat ≤ 0x0B →
      lambWoff d.c + 2 * w.kw * w.kh * g.c * d.c ≤ l.buf.length →
      gives (.lconv ctx isle o) (.lconv o) (lambOw g w p) o.oy.count.toNat d.c fun r x k =>
        let v := s.lconvElem i g w p o d.c x (o.oy.first.toNat + r) k
        if isPixel d.fmt then l.pixelOut v k else convertF32 d.fmt v) ∧
    (∀ o : ResampleOps,
      let fx := o.fx.toNat
      let fy := o.fy.toNat
      lambCommon g d (fx * g.w) (fy * g.h) o.oy true = true → floatFmts g.fmt d.fmt = true → fx * g.w ≤ 65535 → fy * g.h ≤ 65535 →
      d.c = g.c →
      (o.mode = 0 → 1 ≤ fx → fx ≤ 16 → 1 ≤ fy → fy ≤ 16 → gives (.resample ctx isle o) (.resample o) (fx * g.w) o.oy.count.toNat d.c fun r x k =>
        if g.fmt = d.fmt then s.lambElem i g (x / fx) ((o.oy.first.toNat + r) / fy) k
        else convertF32 d.fmt (s.lambF32 i g (x / fx) ((o.oy.first.toNat + r) / fy) k)) ∧
      (o.mode = 1 → fx = 2 → fy = 2 → gives (.resample ctx isle o) (.resample o) (fx * g.w) o.oy.count.toNat d.c fun r x k =>
        convertF32 d.fmt (s.bilinear i g x (o.oy.first.toNat + r) k)))

/-! ### Memory-side adders, stacks, isle stores, Sounds and the shape (03, 07) -/

/-- R157, R158, R160: a contribution with the one slot of its line adds each named lane to the stored value, is converted once and written,
and the line closes; an ordered contribution ahead of its turn is parked; a returned contribution is sent again and does the same. -/
def Obligations.ReductionsAddOrPark : Prop :=
  ∀ (s : State) (ctx : Ctx) (tg : TargetId) (c : Contribution),
    let k := adderKey tg.isle.val tg.cls.val
    let addr := adderAddr k c.offset.toNat
    let z := laneSize c.fmt.toNat
    let sums (i : Instr) : Prop := Completes i s fun t =>
      (∀ n, n < 64 / z → t.mem.readLe (addr + n * z) z = if n ∈ laneNames c then
          laneWrite c.fmt.toNat (laneAdd c.fmt.toNat (laneWiden c.fmt.toNat (s.mem.readLe (addr + n * z) z))
            ((c.data.getD n 0).toNat % 2 ^ (8 * z))) % 2 ^ (8 * z)
        else s.mem.readLe (addr + n * z) z) ∧
      SameMemBut s t addr 64 ∧ (t.adder k).lines.find? c.offset.toNat = none ∧ t.tokens = s.tokens
    c.offset.toNat % 64 = 0 → c.offset.toNat < classLimit tg.cls.val → (s.activeRun ctx.val).isSome = true → s.sharedAt addr = false →
    s.bad.rows = [] → s.stackRefuses addr = false →
    (c.slots = 1 → c.slot = 0 → (s.adder k).lines.find? c.offset.toNat = none → (s.adder k).lines.rows.length < 256 →
      ((s.adder k).park.all fun q => q.c.offset != c.offset) = true →
      sums (.reduceContribution ctx tg c) ∧
      (∀ src rest, (s.adder k).returned = ⟨ctx.val, src, c⟩ :: rest → sums (.reduceResend tg))) ∧
    (∀ l : OpenLine, (s.adder k).lines.find? c.offset.toNat = some l → c.slots.toNat = l.slots → c.fmt.toNat = l.fmt →
      c.unordered = l.unordered → l.ordered = true → c.slot.toNat < l.slots → l.added.contains c.slot.toNat = false →
      c.slot.toNat ≠ l.next → (s.adder k).park.length < 64 →
      ((s.adder k).park.all fun q => !(q.c.offset == c.offset && q.c.slot == c.slot)) = true →
      Completes (.reduceContribution ctx tg c) s fun t => (t.adder k).park = (s.adder k).park ++ [⟨ctx.val, srcAdder k, c⟩] ∧
        t = { s with adders := t.adders })

/-- R151, R162, R163, R169; 07, Table 6: drift tracking, temperature readings and their steps, the return of a stack from thermal
protection, and the repair of a marked frame of COUNT 0. -/
def Obligations.StacksTrackHeatAndRepair : Prop :=
  ∀ (s : State) (k : StackId),
    let x := s.stack k.key
    (x.trained = true → x.selfRefresh = false → Completes (.hbmDriftTrack k) s fun t =>
      (t.stack k.key).drifts = satAdd 32 x.drifts 1 ∧ t = { s with hbm := t.hbm, bg := t.bg }) ∧
    (∀ temp : Int, x.trained = true → x.selfRefresh = false → Completes (.hbmTemperatureReading k temp) s fun t =>
      let y := t.stack k.key
      y.temp = temp ∧ y.doubleRefresh = decide (85 ≤ temp) ∧
      (temp < 85 → x.step = 0 → y.step = 0) ∧ (85 ≤ temp → temp < 95 → x.step = 0 → y.step = 1) ∧
      (95 ≤ temp → temp < 105 → x.step < 2 → y.step = 2) ∧
      (105 ≤ temp → x.step < 3 → y.step = 3 ∧ y.selfRefresh = true ∧
        bits (t.isle (k.key / 2)).pc.toNat (k.key % 2 * 32 + 31) (k.key % 2 * 32) = 0) ∧
      t.mem = s.mem) ∧
    (∀ (failed : BitVec 32) (temp : Int), x.selfRefresh = true → x.step = 3 → x.coolSince.isSome = true →
      Completes (.hbmStackReturn k failed false temp) s fun t =>
        (t.stack k.key).selfRefresh = false ∧ (t.stack k.key).trained = true ∧ (t.stack k.key).temp = temp ∧
        bits (t.isle (k.key / 2)).pc.toNat (k.key % 2 * 32 + 31) (k.key % 2 * 32) = 2 ^ 32 - 1 - failed.toNat ∧
        ∀ a, gaddr (k.key / 2) (k.key % 2) 0 ≤ a → a < gaddr (k.key / 2) (k.key % 2) 0 + classLimit 0 → t.mem.read a = 0) ∧
    (∀ (frame : BitVec 19) (repaired : Bool) (spares : List Nat),
      let key := (k.isle.val * 3 + k.stack.val) * 2 ^ 19 + frame.toNat
      x.marked.contains frame.toNat = true → x.marked.Nodup → (s.frame key).count = 0 →
      Completes (.hbmRowRepair k frame repaired spares) s fun t =>
        (t.stack k.key).marked.contains frame.toNat = false ∧
        (repaired = true → (t.stack k.key).repaired = satAdd 32 x.repaired 1 ∧ t.frames = s.frames) ∧
        (repaired = false → (t.frame key).retired = true ∧ (t.stack k.key).repaired = x.repaired) ∧ t.mem = s.mem)

/-- R164, R165 to R168, R391: a scrub pass counts corrected words and marks uncorrectable units; a bank is migrated, tested out of the
map and left as the new spare. -/
def Obligations.ScrubsAndBankRotation : Prop :=
  ∀ (s : State) (cell : Fin 2 × Fin 256 × Fin 512) (found : ReadFinding),
    (∀ (k : StackId) (off : Nat), (s.stack k.key).serves = true → off < classLimit 0 →
      let a := gaddr (k.key / 2) (k.key % 2) (off / 64 * 64)
      (s.scrubRead a (rsRead found).1 = .corrected → Completes (.hbmScrubPass (.hbm k) off found cell false) s fun t =>
        (t.stack k.key).corrected = satAdd 64 (s.stack k.key).corrected 1 ∧ SameMemBut s t a 64 ∧
        t.mem.readBytes a 64 = flipBurst (rsRead found).2 (s.mem.readBytes a 64)) ∧
      (s.scrubRead a (rsRead found).1 = .uncorrectable → Completes (.hbmScrubPass (.hbm k) off found cell false) s fun t =>
        (t.stack k.key).uncorrectable = satAdd 32 (s.stack k.key).uncorrectable 1 ∧ t.bad.find? a = some true ∧ t.mem = s.mem) ∧
      (s.scrubRead a (rsRead found).1 = .clean → exec (.hbmScrubPass (.hbm k) off found cell false) s = .next s)) ∧
    (∀ (i : Isle) (off : Nat), off < classLimit 2 →
      (s.scrubRead (gaddr i.val 2 off) (secDed found) = .corrected → Completes (.hbmScrubPass (.isleStore i) off found cell false) s fun t =>
        (t.isleStore i.val).corrected = satAdd 64 (s.isleStore i.val).corrected 1 ∧ t.mem = s.mem) ∧
      (s.scrubRead (gaddr i.val 2 off) (secDed found) = .uncorrectable →
        Completes (.hbmScrubPass (.isleStore i) off found cell false) s fun t =>
          (t.isleStore i.val).uncorrectable = satAdd 32 (s.isleStore i.val).uncorrectable 1 ∧ t.mem = s.mem)) ∧
    (∀ (e : EngineId) (off : Nat), off < 2 ^ 21 → (∀ cp ∈ s.loaded, cp.2.hasOx e.key = false) →
      s.scrubRead (operandAddr e.key off) (secDed found) = .corrected →
      Completes (.hbmScrubPass (.operandStore e) off found cell false) s fun t =>
        (t.engine e.key).corrected = satAdd 32 (s.engine e.key).corrected 1 ∧ t.mem = s.mem) ∧
    (∀ (c : CoreId) (off : Nat), off < 2 ^ 18 → s.coreFree c.key = true →
      s.scrubRead (coreAddr c.key off) (secDed found) = .corrected →
      Completes (.hbmScrubPass (.bantamStore c) off found cell false) s fun t =>
        (t.bant (c.key / 16)).corrected = satAdd 32 (s.bant (c.key / 16)).corrected 1 ∧ t.mem = s.mem) ∧
    (∀ (i : Isle) (b sp : Nat),
      let x := s.isleStore i.val
      (x.spare = some sp → x.migrating = none → x.testing = none → x.due = some b → Completes (.bankRotationStep i) s fun t =>
        (t.isleStore i.val).migrating = some b ∧ (t.isleStore i.val).head.contains b = false ∧ t = { s with stores := t.stores }) ∧
      (x.spare = some sp → x.migrating = some b → Completes (.bankMigrationDone i) s fun t =>
        let y := t.isleStore i.val
        y.spare = some b ∧ y.migrating = none ∧ y.testing = some b ∧
        (∀ l, l < 32 → x.place.get l l = b → (∀ m, m < l → x.place.get m m ≠ b) → y.place.get l l = sp) ∧
        t = { s with stores := t.stores }) ∧
      (x.testing = some b → Completes (.bankTestDone i []) s fun t =>
        t.isleStore i.val = { x with testing := none } ∧ t = { s with stores := t.stores, bg := t.bg }))

/-- R61, R66, R67, R68; 18, Table 6: a hard fault takes the isle out of the shape and empties it; a steered Sound leaves the state out of
service; the oldest waiting planned change proceeds when no run of an older epoch is active. -/
def Obligations.ShapeChangesTakeEffect : Prop :=
  ∀ s : State,
    (∀ (i : Isle) (block : Byte), (s.isle i.val).state ≠ .failed → (s.isle i.val).state ≠ .unlicensed →
      Completes (.isleHardFault i block) s fun t =>
        (t.isle i.val).state = .failed ∧ bit t.shape.cur.mask i.val = false ∧ t.power.isle.get .i3 i.val = .i3 ∧
        (∀ a, gaddr i.val 0 0 ≤ a → a < gaddr i.val 0 0 + 2 ^ 52 → t.mem.read a = 0) ∧
        (∀ a, (a < gaddr i.val 0 0 ∨ gaddr i.val 0 0 + 2 ^ 52 ≤ a) → t.mem.read a = s.mem.read a)) ∧
    (∀ (n : SoundId) (lane spare : Nat), (s.sound n.val).state = .out → (s.sound n.val).fused = false →
      spareServes lane spare = true → (s.sound n.val).spareFailed.contains spare = false → ((s.sound n.val).steered.any (·.2 == spare)) = false → Completes (.soundLaneSteering n lane spare true) s fun t =>
        (t.sound n.val).steered = (s.sound n.val).steered ++ [(lane, spare)] ∧ (t.sound n.val).state ≠ .out ∧ t.mem = s.mem) ∧
    (s.boot.restarting = false → s.olderRun = none →
      (∀ (n : Nat) (rest : List ShapeChange), n < 144 → s.shape.waiting = .soundReturn n :: rest → Completes .shapeChangeProceed s fun t =>
        (t.sound n).state = .inService ∧ t.shape.cur.out.contains n = false ∧ rest <+: t.shape.waiting) ∧
      (∀ (i : Nat) (rest : List ShapeChange), i < 64 → s.shape.waiting = .drain i :: rest → Completes .shapeChangeProceed s fun t =>
        (t.isle i).state = .draining ∧ (t.repairOf i).phase = 2 ∧ bit t.shape.cur.mask i = false ∧ t.mem = s.mem))

/-! ### Strait optics (11) -/

/-- A link command of this end for the lane waits for its codeword at the peer and here (R257). -/
def Announces (t : State) (p : Port) (cmd lane channel : Nat) : Prop :=
  ∃ c ∈ (t.port p.val).linkCmds, c.cmd = cmd ∧ c.lane = lane ∧ c.channel = channel ∧ c.mine = true

/-- Nothing changes but the Straits, what the ports send, and the count of free values drawn. -/
def OnlyStraits (s t : State) : Prop := t = { s with strait := t.strait, out := t.out, free := t.free }

/-- R234 to R238, R228: locks, searches, trims and hops of rings, and the feed forward of a site's temperature. -/
def Obligations.RingsLockAndFollow : Prop :=
  ∀ (s : State) (p : Port),
    let x := s.port p.val
    (∀ (ring : Ring) (shift : Nat), (x.ring ring.val).state ≠ .locked → (x.ring ring.val).state ≠ .failed →
      (x.ring ring.val).mayLockAt shift = true → (32 ≤ ring.val → x.optic ≠ .loss) → s.siteOn (p.val / 4) = true →
      Completes (.ringLockAcquired p ring shift) s fun t =>
        let y := (t.port p.val).ring ring.val
        y.state = .locked ∧ y.shift = shift ∧ y.err = 0 ∧ y.fails = 0 ∧ OnlyStraits s t ∧
        (x.link ≠ .up → t = { s with strait := t.strait })) ∧
    (∀ (ring : Ring) (err : Int), (x.ring ring.val).state = .locked → 20 < err.natAbs → Completes (.ringUnlocked p ring err) s fun t =>
        ((t.port p.val).ring ring.val).state = .held ∧ (t.port p.val).lanes.contains (ring.val % 32) = false ∧ t.mem = s.mem) ∧
    (∀ ring : Ring, x.optic ≠ .dark → (32 ≤ ring.val → x.optic ≠ .loss) → s.siteOn (p.val / 4) = true →
      let y := x.ring ring.val
      (y.state = .held → Completes (.ringRelockTimeout p ring) s fun t =>
        ((t.port p.val).ring ring.val).state = .acquiring ∧ t = { s with strait := t.strait }) ∧
      (y.state = .acquiring → y.fails = 0 → Completes (.ringRelockTimeout p ring) s fun t =>
        (t.port p.val).ring ring.val = { y with fails := 1 } ∧ t = { s with strait := t.strait }) ∧
      (y.state = .acquiring → y.fails ≠ 0 → Completes (.ringRelockTimeout p ring) s fun t =>
        ((t.port p.val).ring ring.val).state = .failed ∧ (t.port p.val).lanes.contains (ring.val % 32) = false ∧ t.mem = s.mem)) ∧
    (∀ ring : Ring, x.hopDue ring.val = true → x.peerMove = none → (∀ b, x.subst = some b → b.out = false) →
      (∀ q, q < 64 → q % 32 < ring.val % 32 → x.hopDue q = false) → Completes (.ringHop p ring) s fun t =>
        ((t.port p.val).ring ring.val).shift = (if (x.ring ring.val).shift < 108000 then (x.ring ring.val).shift + 720000
          else (x.ring ring.val).shift - 720000) ∧ (t.port p.val).hops = satAdd 32 x.hops 1 ∧ t.mem = s.mem) ∧
    (∀ (lane : Lane) (step : Int), x.lanes.contains lane.val = true → (x.ring lane.val).state = .locked → step.natAbs ≤ 50 →
      (∀ b, x.subst = some b → b.lane ≠ lane.val) → Completes (.setPointTrim p lane step) s fun t =>
        ((t.port p.val).ring lane.val).setPoint = (x.ring lane.val).setPoint + step ∧ (t.port p.val).lanes = x.lanes ∧
        t = { s with strait := t.strait, bg := t.bg }) ∧
    (∀ (site : Site) (temp old : Int), s.siteOn site.val = true → s.strait.siteTemp.find? site.val = some old → temp ≠ old →
      (∀ k, k < 4 → (s.port (site.val * 4 + k)).rings.keys.Nodup) → Completes (.ringFeedForward site temp) s fun t =>
        t.strait.siteTemp.find? site.val = some temp ∧
        ∀ k r, k < 4 →
          let y := (s.port (site.val * 4 + k)).ring r
          let v := (y.shift : Int) - 14 * (temp - old)
          y.state = .locked → 0 < v → v < 1080000 → ((t.port (site.val * 4 + k)).ring r).shift = v.toNat)

/-- R240 to R247, R257: samples of laser bias, substitution of a laser by a spare, whose LANE_MOVE goes to the peer, tests of spares in turn,
light lost and restored, a dark lane, whose LANE_DROP goes to the peer, and cassettes. -/
def Obligations.LasersLanesAndCassettes : Prop :=
  ∀ (s : State) (p : Port),
    let x := s.port p.val
    (∀ (n : Laser) (b : BitVec 16), (x.laser n.val).lit = true → s.siteOn (p.val / 4) = true →
      Completes (.laserBiasSample p n (some b)) s fun t => ((t.port p.val).laser n.val).bias = some b.toNat ∧ t.mem = s.mem ∧
        ∀ lane, x.laneOf n.val = some lane → (x.laser n.val).state = .carrying → 5 * initialBias p.val n.val ≤ 4 * b.toNat →
          ((t.port p.val).laser n.val).state = .failed ∧ (t.port p.val).lanes.contains lane = false) ∧
    (∀ (lane : Lane) (n : Nat), (x.subst = none ∧ x.spare = some n ∧ x.due.head? = some lane.val ∨
        x.subst = some ⟨lane.val, n, false⟩ ∧ x.due.contains lane.val = true) → x.peerMove = none → x.optic ≠ .loss →
      x.optic ≠ .down → s.siteOn (p.val / 4) = true → (x.linkCmds.any fun c => c.mine && c.cmd == 1) = false →
      Completes (.laserSubstitution p lane) s fun t =>
        (t.port p.val).subst = some ⟨lane.val, n, false⟩ ∧ ((t.port p.val).laser n).lit = true ∧ OnlyStraits s t ∧
        (x.link = .up → Announces t p 1 lane.val n)) ∧
    (∀ (lane : Lane) (b : Substitution), x.subst = some b → b.lane = lane.val → b.out = true → x.optic ≠ .loss →
      x.sends lane.val ≠ b.spare → Completes (.laneReturned p lane) s fun t =>
        let y := t.port p.val
        y.sends lane.val = b.spare ∧ (y.laser b.spare).state = .carrying ∧ (y.laser (x.sends lane.val)).lit = false ∧
        y.lanes.contains lane.val = true ∧ y.subst = none ∧ y.due.contains lane.val = false ∧
        y.substitutions = satAdd 32 x.substitutions 1 ∧ t.mem = s.mem) ∧
    (∀ (lane : Lane) (b : Substitution), x.subst = some b → b.lane = lane.val → b.out = true → x.optic ≠ .loss →
      Completes (.substitutionTimeout p lane) s fun t => t.mem = s.mem ∧
        (x.tries.get (0, 0) lane.val ≠ (b.spare, 1) → (t.port p.val).subst = some { b with out := false } ∧
          (t.port p.val).tries.get (0, 0) lane.val = (b.spare, 1)) ∧
        (x.tries.get (0, 0) lane.val = (b.spare, 1) → (t.port p.val).subst = none ∧
          ((t.port p.val).laser b.spare).state = .failedSpare ∧ (t.port p.val).tries.get (0, 0) lane.val = (0, 0))) ∧
    (∀ (n : Laser) (b : BitVec 16), x.dueSpare = some n.val → x.subst = none → s.siteOn (p.val / 4) = true →
      Completes (.spareLaserTest p n b) s fun t => ((t.port p.val).laser n.val).bias = some b.toNat ∧ t.mem = s.mem ∧
        ((t.port p.val).laser n.val).state = if 10 * b.toNat ≤ 11 * initialBias p.val n.val then .spare else .failedSpare) ∧
    (∀ bright : Int, x.lanes ≠ [] → (x.optic = .acquiring ∨ x.optic = .locked) → Completes (.lossOfLight p bright) s fun t =>
      (t.port p.val).optic = .loss ∧ (t.port p.val).losses = satAdd 32 x.losses 1 ∧
      (∀ l, l < 32 → (x.ring (32 + l)).state ≠ .failed → ((t.port p.val).ring (32 + l)).state = .held) ∧
      (∀ r, r < 32 → (t.port p.val).ring r = x.ring r) ∧
      (x.link = .up → (t.port p.val).link = .retraining ∧ (t.port p.val).retrainStart = some s.clock.ticks) ∧ t.mem = s.mem) ∧
    (x.optic = .loss → Completes (.lightRestored p) s fun t => (t.port p.val).optic = .acquiring ∧ (t.port p.val).peerMove = none ∧
      (∀ b, (t.port p.val).subst = some b → b.out = false) ∧
      (∀ l ∈ (t.port p.val).lanes, (t.port p.val).laneLocked l = true) ∧ t.mem = s.mem) ∧
    (∀ lane : Lane, x.lanes.contains lane.val = true → 2 ≤ x.lanes.length → x.optic ≠ .loss →
      (∀ m, x.peerMove = some m → m.1 ≠ lane.val) → Completes (.laneDark p lane) s fun t => t.mem = s.mem ∧
        (x.link = .up → Announces t p 2 lane.val 0 ∧ (t.port p.val).lanes = x.lanes) ∧
        (x.link ≠ .up → (t.port p.val).lanes.contains lane.val = false)) ∧
    (∀ c : Fin 8, (s.cassette c.val).present = true → Completes (.cassetteRemoved c) s fun t =>
      (t.cassette c.val).present = false ∧ (t.cassette c.val).changed = s.clock.base ∧ t.strait.ports = s.strait.ports) ∧
    (∀ (c : Fin 8) (serial : List Byte) (loss : List Nat), (s.cassette c.val).present = false →
      Completes (.cassetteInserted c ⟨serial, loss⟩) s fun t =>
        (t.cassette c.val).present = true ∧ (t.cassette c.val).serial = serial ∧ (t.cassette c.val).loss = loss ∧
        (t.cassette c.val).insertions = satAdd 32 (s.cassette c.val).insertions 1 ∧ t.strait.ports = s.strait.ports)

/-! ### Strait links and transactions (12) -/

/-- R248, R249, R250, R254 to R257, R271, R272: a link comes up on the lanes both ends agree, takes flits in order, replays and retrains, and
its lanes move, leave and join at the codewords agreed. -/
def Obligations.LinksComeUpAndKeepOrder : Prop :=
  ∀ (s : State) (p : Port),
    let x := s.port p.val
    (∀ (peer : PeerId) (lanes : BitVec 32) (skew : Nat), x.optic ≠ .loss → 16 ≤ (x.agreedLanes lanes.toNat).length →
      skew ≤ 80 → s.siteOpen (p.val / 4) = true → s.straitLoop p.val ≠ 1 →
      ((x.link = .down ∨ x.link = .training) → Completes (.linkBringUp p peer ⟨lanes, skew⟩) s fun t =>
        let y := t.port p.val
        y.peer = some peer ∧ y.lanes = x.agreedLanes lanes.toNat ∧ y.optic = .locked ∧ t.mem = s.mem ∧
        t.out.identity = s.out.identity ++ [(p.val, s.identity p.val)] ∧
        y.link = if s.podConflict p.val peer then .fenced else .up) ∧
      (∀ q, x.link = .retraining → x.peer = some q → Completes (.linkBringUp p peer ⟨lanes, skew⟩) s fun t =>
        let y := t.port p.val
        (q.serial = peer.serial → q.port = peer.port → y.peer = some peer ∧ y.lanes = x.agreedLanes lanes.toNat ∧
          y.link = if s.podConflict p.val peer then .fenced else .up) ∧
        ((q.serial ≠ peer.serial ∨ q.port ≠ peer.port) → y.link = .training ∧ y.peer = none ∧ y.open_ = []) ∧ t.mem = s.mem)) ∧
    (x.link = .up → s.inject.armed = false → ∀ f : FlitIn,
      let h := readLink f.bytes
      h.kind = 0 → h.seq = x.rxSeq → h.nak = false → Completes (.flitReceive p f) s fun t =>
        let intact := flitIntact f.bytes = true ∧ f.symbols ≤ 15 ∧ flitReserved f.bytes = false
        (intact → (t.port p.val).rxSeq = (x.rxSeq + 1) % 65536 ∧ (t.port p.val).nakReq = false) ∧
        (¬intact → (t.port p.val).rxSeq = x.rxSeq ∧ (t.port p.val).nakReq = true) ∧ t.mem = s.mem) ∧
    (x.link = .up → x.replayBuf ≠ [] → Completes (.replayTimeout p) s fun t =>
      (x.replays < 8 → (t.port p.val).replays = x.replays + 1 ∧ (t.port p.val).replayed = satAdd 64 x.replayed x.replayBuf.length ∧
        t.out.strait = s.out.strait ++ x.replayBuf.map fun f => (p.val, f.bytes ((x.rxSeq + 65535) % 65536) x.nakReq)) ∧
      (8 ≤ x.replays → (t.port p.val).link = .retraining) ∧ t.mem = s.mem) ∧
    (x.link = .retraining → Completes (.retrainTimerExpiry p) s fun t => (t.port p.val).link = .training ∧ (t.port p.val).open_ = [] ∧
      (t.port p.val).replayBuf = [] ∧ (t.port p.val).resets = satAdd 32 x.resets 1 ∧ (t.port p.val).refused = x.refused ∧
      t.mem = s.mem) ∧
    (∀ (lane : Lane) (ch : Laser) (at_ : BitVec 32) (c : LinkCmd), x.agreed 1 lane.val at_.toNat = some c → c.channel = ch.val →
      x.peerMove = none →
      (∀ b : Substitution, c.mine = true → x.subst = some b → b.lane = lane.val → b.spare = ch.val → b.out = false →
        Completes (.laneMove p lane ch at_) s fun t =>
          (t.port p.val).subst = some { b with out := true } ∧ (t.port p.val).lanes.contains lane.val = false ∧
          ((t.port p.val).ring lane.val).shift = moveShift (x.ring lane.val).shift ((b.spare : Int) - x.sends lane.val) ∧
          t.mem = s.mem) ∧
      (c.mine = false → x.subst.any (·.out) = false → (∀ k, k < 32 → k ≠ lane.val → x.receives k ≠ ch.val) →
        Completes (.laneMove p lane ch at_) s fun t =>
          (t.port p.val).peerMove = some (lane.val, x.receives lane.val) ∧ (t.port p.val).receives lane.val = ch.val ∧
          (t.port p.val).lanes.contains lane.val = false ∧ ((t.port p.val).ring (32 + lane.val)).shift =
            moveShift (x.ring (32 + lane.val)).shift ((ch.val : Int) - x.receives lane.val) ∧ t.mem = s.mem)) ∧
    (∀ (lane : Lane) (at_ : BitVec 32) (c : LinkCmd),
      (x.agreed 2 lane.val at_.toNat = some c →
        Completes (.laneDrop p lane at_) s fun t => (t.port p.val).lanes.contains lane.val = false ∧ t.mem = s.mem) ∧
      (x.agreed 3 lane.val at_.toNat = some c → x.laneLocked lane.val = true → (x.laser (x.sends lane.val)).state = .carrying →
        (x.subst.any fun b => b.out && b.lane == lane.val) = false → Completes (.laneAdd p lane at_) s fun t =>
          (t.port p.val).lanes.contains lane.val = true ∧
          (∀ l, x.lanes.contains l = true → (t.port p.val).lanes.contains l = true) ∧ t = { s with strait := t.strait })) ∧
    (∀ lane : Lane, x.lanes.contains lane.val = true → Completes (.laneErrors p lane) s fun t => t.mem = s.mem ∧
      (x.link = .up → Announces t p 2 lane.val 0 ∧ (t.port p.val).lanes = x.lanes) ∧
      (x.link ≠ .up → (t.port p.val).lanes.contains lane.val = false))

/-- A completion waits for the response channel, or its slots follow one another in the flits that are not acknowledged yet. -/
def Answered (t : State) (p : Port) (m : Tx) : Prop :=
  m ∈ (t.port p.val).answers ∨ ∃ pre post, (t.port p.val).replayBuf.flatMap (·.slots) = pre ++ m.slotBytes ++ post

/-- R261 to R263, R267, R268: the request at the front of its buffer that its export window admits is performed: a READ is answered with the
bytes, a WRITE changes the bytes its mask names, a REDUCE of one slot adds to every lane of its lines, a TOKEN adds INC, a FENCE clears its
epoch's mark and is answered. (Link up, no injection armed, no REDUCE held, frames unshared and readable.) -/
def Obligations.RemoteRequestsArePerformed : Prop :=
  ∀ (s : State) (p : Port), (s.port p.val).link = .up → s.inject.armed = false → s.bad.rows = [] → (∀ a, s.sharedAt a = false) →
    (∀ a, s.stackRefuses a = false) → s.holds p.val = false → (s.port p.val).held = none →
    let x := s.port p.val
    let front (t : Tx) (c : Nat) : Prop := x.reqs.head? = some t ∧ x.silent.contains t.epoch = false ∧ s.checkRequest p.val t = .ok c
    (∀ (h : ReqHeader) (c : Nat),
      let a := localOf h.addr.toNat
      (front (reqTx h .read) c → Completes (.straitRead p h) s fun t => t.mem = s.mem ∧
        Answered t p { kind := .data, epoch := h.epoch, tag := h.tag.toNat, len := h.len.toNat, data := s.mem.readBytes a h.len.toNat }) ∧
      (∀ (mask : BitVec 64) (data : List Byte), data.length = h.len.toNat →
        front { reqTx h .write with operand := mask.toNat, data := data } c → Completes (.straitWrite p h mask data) s fun t =>
          (∀ j, j < h.len.toNat → t.mem.read (a + j) =
            if 64 < h.len.toNat ∨ bit mask.toNat j = true then data.getD j 0 else s.mem.read (a + j)) ∧
          SameMemBut s t a h.len.toNat ∧ (x.toAck < 63 → (t.port p.val).toAck = x.toAck + 1 ∧ (t.port p.val).lastTag = h.tag.toNat)) ∧
      (∀ (slots : BitVec 12) (fmt : BitVec 2) (data : List Byte), data.length = h.len.toNat →
        h.addr.toNat % 64 = 0 → h.len.toNat % 64 = 0 → slots = 1 → (s.activeRun c).isSome = true →
        s.adder (adderKey (isleOf h.addr.toNat) (classOf h.addr.toNat)) = {} →
        front { reqTx h .reduce with operand := reduceField 0 slots fmt false, data := data } c →
        Completes (.straitReduce p h 0 slots fmt false data) s fun t =>
          let z := laneSize fmt.toNat
          (∀ j, j < h.len.toNat / z → t.mem.readLe (a + j * z) z = laneWrite fmt.toNat (laneAdd fmt.toNat
            (laneWiden fmt.toNat (s.mem.readLe (a + j * z) z)) (fieldAt data (j * z) z)) % 2 ^ (8 * z)) ∧
          SameMemBut s t a h.len.toNat) ∧
      (∀ inc : BitVec 14, 1 ≤ inc.toNat → inc.toNat ≤ 1023 → h.addr.toNat < 2 ^ 18 →
        front { reqTx h .token with addr := h.addr.toNat + inc.toNat * 2 ^ 18 } c → (s.activeRun c).isSome = true →
        s.token (bits h.addr.toNat 17 12) (bits h.addr.toNat 11 0) + inc.toNat ≤ 65535 →
        Completes (.straitToken p h inc false) s fun t => t.mem = s.mem ∧
          t.token (bits h.addr.toNat 17 12) (bits h.addr.toNat 11 0) =
            s.token (bits h.addr.toNat 17 12) (bits h.addr.toNat 11 0) + inc.toNat)) ∧
    (∀ (e : Epoch) (tag : BitVec 32) (m : Tx), x.reqs.head? = some m → m.kind = .fence → m.epoch = e → m.tag = tag.toNat →
      Completes (.straitFence p e tag) s fun t => t.mem = s.mem ∧
        (t.port p.val).refused.contains e = false ∧ (t.port p.val).silent.contains e = false ∧ Answered t p
          { kind := .fenceDone, epoch := e, tag := tag.toNat, cause := if x.refused.contains e || x.silent.contains e then 6 else 0 })

/-- R260, R263 to R266: completions, at the front of the response buffer, of outstanding requests. Read data lands once and its request is no
longer outstanding; an acknowledgement covers the posted requests up to its TAG; a NAK, or 2 ms without an acknowledgement, fails a posted
request and poisons its epoch; a READ that fails halts its job; a performed request is acknowledged. (Link up, no injection armed, nothing
waiting to be sent.) -/
def Obligations.RemoteCompletionsSettleRequests : Prop :=
  ∀ (s : State) (p : Port), (s.port p.val).link = .up → s.inject.armed = false → (s.port p.val).queue = [] → (s.port p.val).answers = [] →
    let x := s.port p.val
    (∀ (tag : BitVec 32) (q : Request), x.findTag tag.toNat (· == .read) = some q → s.isRun q.ctx q.run = true →
      (∀ (data : List Byte) (a list index : Nat), data.length = q.tx.len → q.land = .mem a list index →
        s.writeFault a data.length = none → x.completes .data tag.toNat 0 data = true →
        Completes (.completionReadData p tag data) s fun t => t.mem.readBytes a data.length = data ∧ SameMemBut s t a data.length ∧
          (t.port p.val).open_ = x.open_.erase q) ∧
      (∀ (data : List Byte) (k d n : Nat) (sx : Bool), data.length = q.tx.len → q.land = .reg k d n sx →
        x.completes .data tag.toNat 0 data = true → Completes (.completionReadData p tag data) s fun t => t.mem = s.mem ∧
          (t.core k).waiting = false ∧
          (t.core k).greg d = (if d = 0 then 0 else if sx then BitVec.ofInt 64 (toInt (8 * n) (ofBytes data)) else BitVec.ofNat 64 (ofBytes data)) ∧
          (t.port p.val).open_ = x.open_.erase q) ∧
      Completes (.remoteReadTimeout p tag) s (fun t => t.mem = s.mem ∧ (t.port p.val).open_ = x.open_.erase q ∧
        ∀ r, s.activeRun q.ctx = some r → ∃ r', (t.ctx q.ctx).run = some r' ∧ r'.halted = some 0x42A)) ∧
    (∀ tag : BitVec 32, x.completes .ack tag.toNat 0 [] = true → Completes (.completionAck p tag) s fun t => t.mem = s.mem ∧
      (x.open_.Nodup → ∀ q, q ∈ (t.port p.val).open_ ↔ q ∈ x.open_ ∧ ¬(isPosted q.tx.kind = true ∧ tagCovers tag.toNat q.tx.tag = true))) ∧
    (∀ (tag : BitVec 32) (q : Request) (r : Run), x.findTag tag.toNat isPosted = some q → (s.ctx q.ctx).run = some r → r.number = q.run →
      let fails (t : State) : Prop := t.mem = s.mem ∧ (t.port p.val).open_ = x.open_.erase q ∧
        (t.ctx q.ctx).postedFailed = satAdd 32 (s.ctx q.ctx).postedFailed 1 ∧ ∃ r', (t.ctx q.ctx).run = some r' ∧ r'.poisoned = true
      Completes (.postedRequestTimeout p tag) s fails ∧
      (∀ cause : BitVec 4, 1 ≤ cause.toNat → cause.toNat ≤ 6 → x.findTag tag.toNat (· != .fence) = some q →
        x.completes .nak tag.toNat cause.toNat [] = true →
        Completes (.completionNak p tag cause) s fun t => fails t ∧ (t.port p.val).naksIn = satAdd 32 x.naksIn 1)) ∧
    (∀ (tag : BitVec 32) (cause : BitVec 4) (q : Request), x.findTag tag.toNat (· == .fence) = some q → cause.toNat ≤ 6 →
      x.completes .fenceDone tag.toNat cause.toNat [] = true →
      Completes (.completionFenceDone p tag cause) s fun t => t.mem = s.mem ∧ (t.port p.val).open_ = x.open_.erase q) ∧
    (x.toAck ≠ 0 → x.held = none → Completes (.ackSend p) s fun t => t.mem = s.mem ∧ (t.port p.val).toAck = 0 ∧
      Answered t p { kind := .ack, epoch := ⟨0, 0, 0⟩, tag := x.lastTag })

/-- R258 to R260, R263, R267, R268: the Strait commands that a plan's strand of the port performs. WINDOW waits and signals only; RGET, RPUT
and RREDUCE queue sixteen requests for each page, in order, and RSIGNAL a token, with the key of their import window; RFENCE a fence on each
port with posted requests. (Stated for a port whose link is not up, where what is queued stays queued.) -/
def Obligations.StraitCommandsQueueRequests : Prop :=
  ∀ (s : State) (ctx : Ctx) (p : Port) (r : Run), (s.port p.val).link ≠ .up →
    let x := s.port p.val
    let runs (op : PlanOp) : Prop := s.portRuns ctx.val p.val op = some r
    (∀ o : WindowOps, windowValid s.unitNo o = true → exec (.window ctx p o) s = .next s) ∧
    (∀ (o : RemoteOps) (w : WindowOps) (page : Nat → Nat), remoteValid s.unitNo o = true →
      (∀ k, k < o.count.toNat → r.sidePage o.localList (localSide o) k = some (page k)) →
      let base (k j : Nat) : Nat := o.remote.toNat * 65536 + k * 65536 + j * 4096
      let queued (i : Instr) (mk : Nat → Nat → Tx × Landing) : Prop := Completes i s fun t => t.mem = s.mem ∧
        (t.port p.val).queue = x.queue ++ (List.range o.count.toNat).flatMap fun k => (List.range 16).map fun j =>
          ⟨{ (mk k j).1 with epoch := s.epochOf ctx.val r.number, key := w.key.toNat, addr := base k j }, ctx.val, r.number,
            unitOf (base k j), (mk k j).2⟩
      let e := s.epochOf 0 0
      (s.remoteWindow ctx.val p.val .read o = some w → runs (.rget o) →
        queued (.rget ctx p o) fun k j => ({ kind := .read, len := 4096, epoch := e, tag := 0 }, .mem (page k + j * 4096)
          (sideList o.localList (localSide o)) (sideIndex o.localList (localSide o) k))) ∧
      (s.bad.rows = [] → (∀ a, s.stackRefuses a = false) → s.remoteWindow ctx.val p.val .write o = some w → runs (.rput o) →
        queued (.rput ctx p o) fun k j =>
          ({ kind := .write, len := 4096, epoch := e, tag := 0, data := s.mem.readBytes (page k + j * 4096) 4096 }, .nowhere)) ∧
      (s.bad.rows = [] → (∀ a, s.stackRefuses a = false) → o.slots ≠ 0 → s.remoteWindow ctx.val p.val .reduce o = some w →
        runs (.rreduce o) → queued (.rreduce ctx p o) fun k j =>
          ({ (⟨.reduce, 4096, e, 0, 0, 0, 0, 0, s.mem.readBytes (page k + j * 4096) 4096⟩ : Tx) with operand := reduceOperand o },
            .nowhere))) ∧
    (∀ (o : RsignalOps) (pl : Plan) (w : WindowOps), rsignalValid s.unitNo o = true → (s.ctx ctx.val).plan = some pl →
      pl.tokenImport p.val o.unit.toNat o.isle.toNat o.counter.toNat = some w → runs (.rsignal o) →
      Completes (.rsignal ctx p o) s fun t =>
        t = { s with strait := t.strait } ∧ (t.port p.val).queue = x.queue ++ [⟨
          { kind := .token, epoch := s.epochOf ctx.val r.number, tag := 0, key := w.key.toNat,
            addr := o.counter.toNat + o.isle.toNat * 2 ^ 12 + o.inc.toNat * 2 ^ 18 }, ctx.val, r.number, o.unit.toNat, .nowhere⟩]) ∧
    (runs .rfence →
      (s.postedOpen ctx.val r.number = false → exec (.rfence ctx p) s = .next s) ∧
      (x.postedOpen ctx.val r.number = true → x.fencing ctx.val r.number = false → Completes (.rfence ctx p) s fun t =>
        t.mem = s.mem ∧ (t.port p.val).queue = x.queue ++ [⟨{ kind := .fence, epoch := s.epochOf ctx.val r.number, tag := 0 },
          ctx.val, r.number, x.peerPod, .nowhere⟩]))

/-! ### The bridge (13) and weaving (14) -/

/-- R277, R281, R293: the doorbell of a ring takes the producer index, and one more than SIZE entries ahead of the consumer index stops the
ring; ENABLE, STOP and CTX_STATUS of a context the function owns; CTX_OWNER moves an idle context and, on a change, resets its account. -/
def Obligations.ContextRegistersControlRings : Prop :=
  ∀ (s : State) (fn : FnId) (k : Fin 16),
    let c := fn.card.val * 16 + k.val
    let x := s.ctx c
    (∀ v : BitVec 32, fn.fn = 0 → (s.card fn.card.val).present = true →
      (x.state = .empty → x.enable = false → Completes (.ctxOwner fn k v) s fun t => (t.ctx c).owner = v.toNat % 16 ∧
        (v.toNat % 16 ≠ x.owner → (t.ctx c).account = {}) ∧ t = { s with ctxs := t.ctxs }) ∧
      ((x.state ≠ .empty ∨ x.enable = true) → Completes (.ctxOwner fn k v) s fun t =>
        (t.fn fn.key).configError = true ∧ t = { s with fns := t.fns })) ∧
    (s.ownedCtx fn k.val = some c →
    (∀ v : BitVec 32,
      ((v - x.cons).toNat ≤ x.ringSize.toNat → Completes (.ctxDoorbell fn k v) s fun t =>
        t.ctx c = { x with doorbell := v } ∧ t = { s with ctxs := t.ctxs }) ∧
      (x.ringSize.toNat < (v - x.cons).toNat → Completes (.ctxDoorbell fn k v) s fun t =>
        t.ctx c = { x with doorbell := v, ringError := true } ∧ (t.fn (s.ownerFn c)).ringError = true ∧ t.mem = s.mem)) ∧
    (∀ e : Bool, Completes (.ctxEnable fn k e) s fun t => t.ctx c = { x with enable := e } ∧ t = { s with ctxs := t.ctxs }) ∧
    Completes (.ctxStatusClear fn k) s (fun t => t.ctx c = { x with ringError := false } ∧ t = { s with ctxs := t.ctxs }) ∧
    (∀ r, x.state = .running → s.activeRun c = some r → Completes (.ctxStop fn k) s fun t =>
      (t.ctx c).run = some { r with halted := some 0x642 } ∧ t = { s with ctxs := t.ctxs, adders := t.adders }) ∧
    (x.state ≠ .running → exec (.ctxStop fn k) s = .next s))

/-- R281, R282, R300, R311: a fetched entry is under way or refused and consumed; a LOAD that passes validation and admission makes its
context LOADED, one that fails makes it EMPTY, one whose resources are being cleared waits; UNLOAD returns the lease. -/
def Obligations.EntriesLoadAndUnloadPlans : Prop :=
  ∀ (s : State) (ctx : Ctx),
    let c := ctx.val
    let x := s.ctx c
    let consumed (t : State) : Prop := (t.ctx c).cons = x.cons + 1 ∧ (t.ctx c).entry = none ∧ t.mem = s.mem
    (s.mayFetch c = true →
      let read := s.out.reads ++ [(x.slotAddr, 64)]
      Completes (.entryFetch ctx .failed) s (fun t => (t.ctx c).ringError = true ∧ (t.ctx c).entry = none ∧ t.out.reads = read ∧
        t.mem = s.mem) ∧
      ∀ b : List Byte, b.length = 64 →
        let e := parseEntry b
        (e.valid = true → e.accepted x = true → Completes (.entryFetch ctx (.data b)) s fun t => (t.ctx c).entry = some e ∧
          (t.ctx c).state = (if e.op = 1 then .loading else x.state) ∧
          (t.card (c / 16)).stagingQueue = (s.card (c / 16)).stagingQueue ++ (if e.hasIn then [c] else []) ∧
          t = { s with ctxs := t.ctxs, cards := t.cards, out := { s.out with reads := read } }) ∧
        ((e.valid = false ∨ e.accepted x = false) → Completes (.entryFetch ctx (.data b)) s fun t =>
          consumed t ∧ (t.ctx c).state = x.state)) ∧
    (∀ (e : Entry) (b : List Byte), x.entry = some e → e.op = 1 → x.state = .loading → x.waiting = none → s.boot.restarting = false →
      s.linkUp (c / 16) = true → b.length = e.imageLength →
      let p := parsePlan b
      (validate s b p = none → s.loadWaits p = false → s.recheck p = none → s.admission c p = none →
        Completes (.load ctx (.data b)) s fun t => (t.ctx c).state = .loaded ∧ (t.ctx c).plan = some p ∧ consumed t) ∧
      (validate s b p = none → s.loadWaits p = true → Completes (.load ctx (.data b)) s fun t =>
        t.ctx c = { x with waiting := some p } ∧
        t = { s with ctxs := t.ctxs, out := { s.out with reads := s.out.reads ++ [(e.imageAddr, e.imageLength)] } }) ∧
      ((validate s b p).isSome = true → Completes (.load ctx (.data b)) s fun t =>
        (t.ctx c).state = .empty ∧ (t.ctx c).plan = none ∧ consumed t)) ∧
    (∀ (e : Entry) (p : Plan), x.entry = some e → x.plan = some p → e.op = 3 → x.state = .loaded → Completes (.unload ctx) s fun t =>
      (t.ctx c).state = .empty ∧ (t.ctx c).plan = none ∧ (t.ctx c).clearing = x.clearing ++ [p] ∧ consumed t)

/-- R284, R130, R34, R40: before acceptance a launch reads its tables and reserves staging in turn; accepted, its run begins with its lists,
its counters at INITIAL and the owners of its operand-store pages. -/
def Obligations.LaunchesReserveAndBegin : Prop :=
  ∀ (s : State) (ctx : Ctx) (p : Plan), (s.ctx ctx.val).plan = some p → (s.ctx ctx.val).state = .loaded →
    s.linkUp (ctx.val / 16) = true →
    let c := ctx.val
    let x := s.ctx c
    let card := s.card (c / 16)
    (∀ (e : Entry) (inTable outTable : HostRead) (ib ob buf : List Byte), x.entry = some e → e.op = 2 → x.run = none →
      tableBytes e.hasIn e.inCount inTable = some (some ib) → tableBytes e.hasOut e.outCount outTable = some (some ob) →
      badCopy p true ib e.inCount = none → badCopy p false ob e.outCount = none →
      let ins := copiesOf ib e.inCount
      let need := (ins.map (·.count)).sum
      need ≤ card.stagingFree → card.stagingFree ≤ 131072 → (ins = [] ∨ card.stagingQueue.head? = some c) → buf.length = need * 65536 →
      Completes (.launch ctx inTable outTable (.data buf)) s fun t =>
        (∃ r, (t.ctx c).run = some r ∧ r.accepted = false ∧ r.halted = none ∧ r.tag = e.tag ∧ r.ins = ins ∧
          r.outs = copiesOf ob e.outCount ∧ r.staged = splitStaged ins buf) ∧
        (t.card (c / 16)).stagingFree = card.stagingFree - need ∧
        (t.card (c / 16)).stagingQueue = card.stagingQueue.filter (· != c) ∧
        t = { s with ctxs := t.ctxs, cards := t.cards, out := { s.out with reads := t.out.reads } } ∧
        t.out.reads = s.out.reads ++ (if e.hasIn then [(e.inTable, e.inCount * 32)] else []) ++
          (if e.hasOut then [(e.outTable, e.outCount * 32)] else []) ++ ins.map fun d => (d.host, d.count * 65536)) ∧
    (∀ (r : Run) (u : State) (lists : Table (Table Nat)), x.run = some r → r.accepted = false → s.rateWaits p = false → s.renumbering p = false →
      (s.fn (s.ownerFn c)).pend.length + (s.fn (s.ownerFn c)).reserved + 2 ≤ 1024 → (s.fn (s.ownerFn c)).holm = [] →
      s.launchShape p = none → (leaseUnhealthy s p).any (·.1) = false → s.peersFit p = true → s.fillLists c p = .ok (u, lists) →
      Completes (.launchAccept ctx) s fun t =>
        (t.ctx c).state = .running ∧ (t.ctx c).runNo = (x.runNo + 1) % 65536 ∧
        (∃ r', (t.ctx c).run = some r' ∧ r'.accepted = true ∧ r'.number = (x.runNo + 1) % 65536 ∧ r'.start = s.clock.base ∧
          r'.lists = lists ∧ r'.tag = r.tag ∧ r'.ins = r.ins ∧ r'.outs = r.outs) ∧
        ((p.tokens.map fun d => d.isle * 4096 + d.counter).Nodup → ∀ d ∈ p.tokens, t.token d.isle d.counter = d.initial) ∧
        (∀ k ∈ p.footprint, t.pages.get 64 k = c) ∧ t.frames = u.frames ∧ t.mem = s.mem)

/-- R284, R481: the IN copy under way lands page by page and signals its counter; an OUT copy starts when its counter has reached VALUE and
no earlier one is ready, and its pages go out as posted writes. A null page is not written, and reads as zeros (R142). (Pages readable,
unshared and apart.) -/
def Obligations.HostCopiesMoveStagedPages : Prop :=
  ∀ (s : State) (ctx : Ctx) (r : Run) (d : HostCopy), s.activeRun ctx.val = some r → s.linkUp (ctx.val / 16) = true → s.bad.rows = [] →
    (∀ a, s.stackRefuses a = false) →
    let c := ctx.val
    let page (i : Nat) : Option Nat := r.entry d.list (d.index + i)
    (∀ bytes : List Byte, r.ins[r.inDone]? = some d → r.staged[r.inDone]? = some bytes → bytes.length = d.count * 65536 →
      (∀ i a, i < d.count → page i = some a → s.sharedAt a = false) →
      (∀ i j a b, i < d.count → j < d.count → i ≠ j → page i = some a → page j = some b → a + 65536 ≤ b ∨ b + 65536 ≤ a) →
      s.token d.isle d.counter + d.value ≤ 65535 → Completes (.inCopyComplete ctx) s fun t =>
        (∀ i a o, i < d.count → page i = some a → o < 65536 → t.mem.read (a + o) = bytes.getD (i * 65536 + o) 0) ∧
        (∀ m, (∀ i a, i < d.count → page i = some a → m < a ∨ a + 65536 ≤ m) → t.mem.read m = s.mem.read m) ∧
        (∃ r', (t.ctx c).run = some r' ∧ r'.inDone = r.inDone + 1) ∧
        (t.card (c / 16)).stagingFree = (s.card (c / 16)).stagingFree + d.count ∧
        t.token d.isle d.counter = s.token d.isle d.counter + d.value) ∧
    (∀ n : Fin 256, r.outs[n.val]? = some d → r.outDone.get false n.val = false → d.value ≤ s.token d.isle d.counter →
      r.outStarted.rows = [] →
      (∀ m e, m < n.val → r.outs[m]? = some e → r.outDone.get false m = true ∨ s.token e.isle e.counter < e.value) →
      Completes (.outCopyStart ctx n) s fun t =>
        (∃ r', (t.ctx c).run = some r' ∧ r'.outStarted.rows.map (·.1) = [n.val]) ∧ t = { s with ctxs := t.ctxs, cards := t.cards }) ∧
    (∀ n hold : Nat, r.outStarted.rows = [(n, hold)] → r.outs[n]? = some d → Completes (.outCopyComplete ctx) s fun t =>
      t.out.host = s.out.host ++ (List.range d.count).map (fun i =>
        HostWrite.data (d.host + i * 65536) (match page i with
          | some a => s.mem.readBytes a 65536
          | none => List.replicate 65536 0)) ∧
      (∃ r', (t.ctx c).run = some r' ∧ r'.outStarted.rows = [] ∧ r'.outDone.get false n = true) ∧
      (t.card (c / 16)).stagingFree = (s.card (c / 16)).stagingFree + hold ∧ t.mem = s.mem)

/-- R306, R310, R311: a grant goes to the earliest ready stint of the lowest priority value among the contexts not yet served, all of them
once none is left, and an engine whose only ready stints are its holder's stays with it; a returned lease's memory and counters are zero
when its clearing is done. No grant is decided within a stint, nor while a granted stint has not started. -/
def Obligations.GrantsAndClearedLeases : Prop :=
  ∀ s : State,
    (∀ (e : SharedEngine) (ready : List ReadyStint), ready ≠ [] →
      ((s.midStint (sharedUnit e) = true ∨ s.grantDue (sharedUnit e) = true) → exec (.stintGrant e ready) s = .next s) ∧
      (s.midStint (sharedUnit e) = false → s.grantDue (sharedUnit e) = false →
      (∀ q ∈ ready, s.stintReady (sharedUnit e) q.ctx.val = true) →
      let g := s.grant (sharedUnit e)
      let unserved := ready.filter fun q => !(bit g.served.toNat q.ctx.val)
      let pool := if unserved = [] then ready else unserved
      ((∃ q ∈ ready, g.holder ≠ some q.ctx.val) → Completes (.stintGrant e ready) s fun t => ∃ r ∈ pool,
        (t.grant (sharedUnit e)).holder = some r.ctx.val ∧ bit (t.grant (sharedUnit e)).served.toNat r.ctx.val = true ∧
        (∀ q ∈ pool, s.before q r = false) ∧ (∃ r', s.activeRun r.ctx.val = some r' ∧ (t.grant (sharedUnit e)).due = some r'.number) ∧
        (t.ctx r.ctx.val).account.stints = satAdd 64 (s.ctx r.ctx.val).account.stints 1 ∧
        t = { s with grants := t.grants, ctxs := t.ctxs }) ∧
      ((∀ q ∈ ready, g.holder = some q.ctx.val) → Completes (.stintGrant e ready) s fun t =>
        (t.grant (sharedUnit e)).holder = g.holder ∧ (t.grant (sharedUnit e)).served = g.served ∧
        t = { s with grants := t.grants, ctxs := t.ctxs }))) ∧
    (∀ (ctx : Ctx) (p : Plan) (rest : List Plan), (s.ctx ctx.val).clearing = p :: rest → Completes (.leaseClearDone ctx []) s fun t =>
      (t.ctx ctx.val).clearing = rest ∧
      (∀ a, t.mem.read a = if p.clears p.footprint a then 0 else s.mem.read a) ∧
      (∀ i n, n < 4096 → t.token i n = if p.hasToken i n then 0 else s.token i n))

/-- R286, R287, R288, R291, R292: segments of BAR2 and the accesses through them; records go to the event queue in order with the producer
index after them, and vector 0 by moderation; the mailbox takes one request at a time. -/
def Obligations.EventQueuesSegmentsAndMailboxes : Prop :=
  ∀ (s : State) (fn : FnId), (s.card fn.card.val).present = true →
    let f := s.fn fn.key
    let raises (n : Nat) (t : State) : Prop := (f.masked n = false → t.out.msix = s.out.msix ++ [(fn.key, n)]) ∧
      (f.masked n = true → t.out.msix = s.out.msix ∧ bit (t.fn fn.key).msixPba n = true)
    (∀ v : BitVec 32, Completes (.evqCons fn v) s fun t => (t.fn fn.key).evqCons = v ∧
      (t.fn fn.key).modStart = (if f.prod = v then f.modStart else some s.clock.ticks) ∧ t = { s with fns := t.fns }) ∧
    (∀ (r : Rec) (rest : List Rec), f.pend = r :: rest → r.cls ≠ 1 → (∀ y, r.payload ≠ .completion y) → f.droppedSince.rows = [] →
      f.holm = [] → s.linkUp fn.card.val = true → (s.card fn.card.val).heldSerial = none → f.evqEnable = true → f.evqSize ≠ 0 →
      1 ≤ evqRoom f → Completes (.evqRecordWrite fn) s fun t =>
        t.out.host = s.out.host ++ [HostWrite.record (f.evqBase.toNat + f.prod.toNat % f.evqSize.toNat * 64) r,
          HostWrite.index f.evqProdAddr.toNat (f.prod + 1).toNat] ∧
        (t.fn fn.key).prod = f.prod + 1 ∧ (t.fn fn.key).pend = rest ∧
        ((f.urgent = true ∨ 3 ≤ r.severity ∨ f.modCount ≤ f.unsignalled + 1) → raises 0 t) ∧
        (¬(f.urgent = true ∨ 3 ≤ r.severity ∨ f.modCount ≤ f.unsignalled + 1) → t.out.msix = s.out.msix) ∧ t = { s with out := t.out, fns := t.fns }) ∧
    (f.modStart.isSome = true → Completes (.evqModTimeout fn) s fun t => raises 0 t ∧
      (t.fn fn.key).modStart = none ∧ (t.fn fn.key).unsignalled = 0 ∧ t = { s with out := t.out, fns := t.fns }) ∧
    (∀ (n : Fin 4096) (v : Word), Completes (.bar2SegmentWrite fn n v) s fun t =>
      let ok := unitOf v.toNat = s.unitNo ∧ classOf v.toNat < 2
      (ok → ((t.fn fn.key).segments.get 0 n.val).toNat = v.toNat / 2 ^ 26 * 2 ^ 26 + v.toNat % 2) ∧
      (¬ok → (t.fn fn.key).configError = true ∧ (t.fn fn.key).segments = f.segments) ∧ t = { s with fns := t.fns }) ∧
    (∀ (w : Fin 4) (g : Fin 1024) (o : BitVec 26), s.linkUp fn.card.val = true →
      let e := (f.segments.get 0 (w.val * 1024 + g.val)).toNat
      let a := localOf (e / 2 ^ 26 * 2 ^ 26) + o.toNat
      (∀ n, bit e 0 = false → Completes (.bar2Access fn w g o (.read n)) s fun t =>
        t.out.bar2 = s.out.bar2 ++ [(fn.key, List.replicate n.val 0xFF)] ∧ t = { s with out := t.out }) ∧
      (bit e 0 = true → s.isleServing (isleOf a) = true → s.power.isle.get .i3 (isleOf a) ≠ .i2 →
        s.power.hold.get .unpowered (holdIsle (isleOf a)) ≠ .held → offOf a < classLimit (classOf a) → s.bar2May fn a = true →
        s.stackRefuses a = false →
        (∀ n, s.badIn a n.val = none → Completes (.bar2Access fn w g o (.read n)) s fun t =>
          t.out.bar2 = s.out.bar2 ++ [(fn.key, s.mem.readBytes a n.val)] ∧ t = { s with out := t.out }) ∧
        (∀ b, s.sharedAt a = false → s.badMerge a b.length = none → Completes (.bar2Access fn w g o (.write b)) s fun t =>
          t.mem.readBytes a b.length = b ∧ SameMemBut s t a b.length ∧ t = { s with mem := t.mem, bad := t.bad }))) ∧
    (s.boot.holmReady = true → s.boot.restarting = false →
      let b := padTo 256 f.mbxReq
      let control := fieldAt b 0 1
      (f.mbxBusy = true → Completes (.mbxDoorbell fn 1) s fun t =>
        t.fn fn.key = { f with mbxOverrun := true } ∧ t = { s with fns := t.fns }) ∧
      (f.mbxBusy = false → bit control 5 = false → fieldAt b 1 1 ≤ 240 → frameError control (slice b 2 (fieldAt b 1 1)) = none →
        Completes (.mbxDoorbell fn 1) s fun t => t.fn fn.key = { f with mbxBusy := true } ∧ t = { s with fns := t.fns }) ∧
      (f.mbxBusy = false → bit control 5 = true → exec (.mbxDoorbell fn 1) s = .next s)) ∧
    ((s.boot.holmReady = false ∨ s.boot.restarting = true) → Completes (.mbxDoorbell fn 1) s fun t =>
      t.fn fn.key = { f with mbxNotReady := true } ∧ t = { s with fns := t.fns })

/-- R294, R295, R297, R298: resets of functions, the release of PERST#, and a card's coming and going. A card that is lost leaves its
contexts HALTED_LINK with their runs halted, until they are reattached or discarded; retraining voids the bound of its runs. -/
def Obligations.CardsComeAndGo : Prop :=
  ∀ (s : State) (card : Card),
    let b := card.val
    let x := s.card b
    let lost (t : State) : Prop := (t.card b).present = false ∧ (t.card b).link = .down ∧ (t.card b).heldSerial = some (x.heldSerial.getD x.serial) ∧
      (t.card b).removals = satAdd 32 x.removals 1 ∧ ∀ n, n < 16 → (t.ctx (b * 16 + n)).state = .haltedLink ∧
        ∀ r, s.activeRun (b * 16 + n) = some r → ∃ r', (t.ctx (b * 16 + n)).run = some r' ∧ r'.halted = some 0x502
    let freed (t : State) : Prop := (t.card b).heldSerial = none ∧ ∀ n, n < 16 → (s.ctx (b * 16 + n)).state = .haltedLink →
      (t.ctx (b * 16 + n)).state = .empty ∧ (t.ctx (b * 16 + n)).entry = none
    let reset (t : State) (k : Nat) : Prop := (t.fn k).evqEnable = false ∧ (t.fn k).segments = {} ∧ (t.fn k).mbxBusy = false ∧
      ∀ n, n < 16 → s.ownerFn (b * 16 + n) = k → (t.ctx (b * 16 + n)).state = .empty ∧ (t.ctx (b * 16 + n)).plan = none ∧
        (t.ctx (b * 16 + n)).enable = false
    (∀ f : FnId, f.card = card → x.present = true →
      (f.fn ≠ 0 → Completes (.functionReset f) s fun t => reset t f.key) ∧
      (f.fn = 0 → Completes (.functionReset f) s fun t => ∀ n, n < 16 → (t.ctx (b * 16 + n)).owner = 0 ∧ reset t (b * 16 + n))) ∧
    (∀ refclk : Bool, x.present = true → Completes (.perstRelease card refclk) s fun t =>
      t.card b = { x with crsUntil := s.clock.ticks + 125000000, sris := !refclk } ∧ t = { s with cards := t.cards }) ∧
    (x.present = true → Completes (.bridgeRemoved card) s lost) ∧
    (x.present = true → x.link = .retrying → Completes (.shoreLinkRetryExpiry card) s lost) ∧
    (∀ serial version : List Byte, x.present = false → Completes (.bridgeInserted card serial version) s fun t =>
      (t.card b).present = true ∧ (t.card b).serial = serial ∧ (t.card b).link = .training ∧
      (t.card b).heldSerial = x.heldSerial ∧ t.ctxs = s.ctxs ∧ t.mem = s.mem) ∧
    (x.present = true → x.link = .training → (x.heldSerial = none ∨ x.heldSerial = some x.serial) →
      Completes (.shoreLinkUp card) s fun t => t.card b = { x with link := .up, upSince := some s.clock.ticks, stagingReady := true } ∧
        t.ctxs = s.ctxs ∧ t.mem = s.mem) ∧
    (s.linkUp b = true → Completes (.shoreLinkRetrain card) s fun t =>
      (t.card b).link = .retrying ∧ (t.card b).retrains = satAdd 32 x.retrains 1 ∧ t.mem = s.mem ∧
      ∀ n r p, n < 16 → (s.ctx (b * 16 + n)).plan = some p → (s.ctx (b * 16 + n)).run = some r → r.accepted = true →
        (t.ctx (b * 16 + n)).run = some { r with boundVoid := true }) ∧
    (x.link = .retrying → Completes (.shoreLinkRetrained card) s fun t => (t.card b).link = .up ∧ t.ctxs = s.ctxs ∧ t.mem = s.mem) ∧
    (∀ f : FnId, f.card = card → f.fn = 0 → x.present = true →
      (x.heldSerial = some x.serial → Completes (.fnReattach f 0x5EA7) s freed) ∧
      (x.heldSerial.isSome = true → Completes (.fnDiscard f 0xD15C) s freed)) ∧
    (s.linkUp b = true → x.heldSerial.isSome = true → Completes (.contextDiscardTimeout card) s freed)

/-! ### The dictionary (15) -/

/-- R325, R327, R328, R330, R331, R332: a fresh request is performed and its reply stored, and a repeated one is answered from the stored
reply and performs nothing; READ gives type and value, READ_BLOCK pieces of a snapshot, WRITE and WRITE_BLOCK give an object its value,
NOTIFY gives the oldest records not yet taken. -/
def Obligations.WailestRequestsAreAnswered : Prop :=
  ∀ (s : State) (req : Req) (o : ObjName),
    let n := req.ch.num
    let idx := o.index.toNat
    let sub := o.sub.toNat
    (∀ q, req.broadcast = false → s.hears req.ch = true → s.carries req 1 idx sub [] = true → s.dict.ready = true → (s.chan n).stored = some q → q.seq = req.seq → q.fn = 1 →
      q.index = idx → q.sub = sub → Completes (.wailestRead req o) s fun t => (t.chan n).answer = some q.reply ∧
        (t.chan n).repeats = satAdd 32 (s.chan n).repeats 1 ∧ (t.chan n).stored = some q ∧ t = { s with dict := t.dict, fns := t.fns, out := t.out }) ∧
    (Fresh s req 1 idx sub [] →
      (∀ m, s.lookup req.ch idx sub = .ok m → s.readable idx m = true → idx ≠ 0x1010 → m.value.length ≤ 238 →
        Completes (.wailestRead req o) s fun t => Replied t req 1 idx sub ⟨false, rflags m ++ leBytes 1 m.typ ++ m.value⟩ ∧
          t = { s with dict := t.dict, fns := t.fns, out := t.out }) ∧
      (∀ e, s.lookup req.ch idx sub = .error e → Completes (.wailestRead req o) s fun t => Replied t req 1 idx sub (errorReply e idx sub))) ∧
    (s.boot.recovery = false → ∀ (m : Member) (offset : BitVec 32) (count : Byte),
      Fresh s req 3 idx sub (leBytes 4 offset.toNat ++ [count]) → s.lookup req.ch idx sub = .ok m → 1 ≤ count.toNat → count.toNat ≤ 232 →
      (offset = 0 → idx ≠ 0x1010 → s.readable idx m = true → Completes (.readBlock req o offset count) s fun t =>
        (t.chan n).snapshot = some ⟨idx, sub, m.value⟩ ∧ t = { s with dict := t.dict, fns := t.fns, out := t.out }) ∧
      (∀ data, offset ≠ 0 → (s.chan n).snapshot = some ⟨idx, sub, data⟩ → offset.toNat < data.length →
        Completes (.readBlock req o offset count) s fun t =>
          Replied t req 3 idx sub ⟨false, rflags m ++ leBytes 4 data.length ++ slice data offset.toNat count.toNat⟩)) ∧
    (∀ value, Accepted s req idx sub value → 1 ≤ value.length → value.length ≤ 237 →
      (idx = 0x1040 → Completes (.wailestWrite req o value) s fun t => Done t req idx sub ∧ t.notifyFilter n = ofBytes value) ∧
      (ownRow idx = false → idx ∉ [0x1040, 0x3140, 0x4280, 0x9001, 0x9005] → (idx < 0x3080 ∨ 0x30C0 ≤ idx) →
        Completes (.wailestWrite req o value) s fun t => Done t req idx sub ∧ t.obj idx sub = ofBytes value ∧ t.mem = s.mem)) ∧
    (s.mayWrite req.ch idx sub = none → ∀ data, Fresh s req 4 idx sub (leBytes 4 0 ++ [0] ++ data) → 1 ≤ data.length → data.length ≤ 232 →
      Completes (.writeBlock req o 0 0 data) s fun t => Replied t req 4 idx sub ⟨false, []⟩ ∧ (t.chan n).block = some ⟨idx, sub, data⟩) ∧
    (∀ taken : Byte, Fresh s req 5 0 0 [taken] → s.boot.recovery = false → taken.toNat ≤ (s.chan n).sent →
      let c := (s.chan n).take taken.toNat
      Completes (.notify req taken) s fun t => (t.chan n).queue = c.queue ∧
        (c.overflow = none → Replied t req 5 0 0 ⟨false, leBytes 2 (c.queue.length - (c.queue.take 3).length) ++
          (c.queue.take 3).flatMap Rec.bytes⟩ ∧ (t.chan n).sentAlive = (c.queue.take 3).map fun _ => true))

/-- R322, R336, R337: a challenge gives a nonce, the one right response to it opens the session, the fifth wrong one within 60 s locks the
channel; sessions close, expire and unlock; a frame in error is counted, and held snapshots and blocks expire. -/
def Obligations.SessionsOpenByChallenge : Prop :=
  ∀ (s : State) (req : Req),
    let n := req.ch.num
    let x := s.chan n
    (Fresh s req 6 0 0 [1] → mayOpen req.ch = true →
      (x.locked = false → Completes (.sessionChallenge req false) s fun t =>
        (t.chan n).session = .challenged ∧ (t.chan n).nonce.length = 32 ∧ Replied t req 6 0 0 ⟨false, (t.chan n).nonce⟩) ∧
      (x.locked = true → Completes (.sessionChallenge req false) s fun t =>
        Replied t req 6 0 0 (errorReply 0x0E 0 0) ∧ (t.chan n).session = x.session)) ∧
    (∀ h : List Byte, Fresh s req 6 0 0 ([2] ++ h) → h.length = 32 → mayOpen req.ch = true →
      (x.nonce ≠ [] → h = hmac256 s.custodianKey (sessionMessage req.ch x.nonce) → Completes (.sessionResponse req false h) s fun t =>
        (t.chan n).session = .custodian ∧ (t.chan n).nonce = [] ∧ (t.chan n).opened = x.nonce ∧ Replied t req 6 0 0 ⟨false, []⟩) ∧
      (h ≠ hmac256 s.custodianKey (sessionMessage req.ch x.nonce) → Completes (.sessionResponse req false h) s fun t =>
        let recent := (x.failures.filter fun f => decide (s.nsSince f < 60000000000)).length
        (t.chan n).session = (if x.session = .challenged then .none else x.session) ∧ (t.chan n).nonce = [] ∧
        (t.chan n).locked = (x.locked || decide (4 ≤ recent)) ∧ Replied t req 6 0 0 (errorReply 0x0D 0 0))) ∧
    (Fresh s req 6 0 0 [3] → Completes (.sessionClose req) s fun t =>
      (t.chan n).session = .none ∧ (t.chan n).opened = [] ∧ Replied t req 6 0 0 ⟨false, []⟩) ∧
    (Fresh s req 6 0 0 [4] → Completes (.sessionStateQuery req) s fun t =>
      Replied t req 6 0 0 ⟨false, leBytes 1 x.sessionState⟩ ∧ (t.chan n).session = x.session) ∧
    (x.session = .custodian → Completes (.sessionExpiry req.ch) s fun t => (t.chan n).session = .none ∧ t.mem = s.mem) ∧
    Completes (.sessionLockExpiry req.ch) s (fun t => t.chan n = { x with locked := false } ∧ t = { s with dict := t.dict }) ∧
    Completes (.snapshotTimeout req.ch) s (fun t => t.chan n = { x with snapshot := none } ∧ t = { s with dict := t.dict }) ∧
    Completes (.blockWriteTimeout req.ch) s (fun t => t.chan n = { x with block := none } ∧ t = { s with dict := t.dict }) ∧
    (∀ f : N0Frame, s.hears .n0 = true →
      let address := fieldAt f.bytes 0 1
      let control := fieldAt f.bytes 1 1
      let payload := slice f.bytes 3 (fieldAt f.bytes 2 1)
      (address ≠ 0 → address ≠ s.nodeAddr.1 → exec (.frameDiscard f) s = .next s) ∧
      ((address = 0 ∨ address = s.nodeAddr.1) →
        (frameDiscarded f = true → Completes (.frameDiscard f) s fun t =>
          t.dict = { s.dict with n0Discards := satAdd 32 s.dict.n0Discards 1 } ∧ t = { s with dict := t.dict }) ∧
        (frameDiscarded f = false → bit control 5 = true → exec (.frameDiscard f) s = .next s) ∧
        (∀ e, frameDiscarded f = false → bit control 5 = false → frameError control payload = some e → address ≠ 0 →
          s.dict.ready = true → (s.chan 0).stored = none → Completes (.frameDiscard f) s fun t =>
            (t.chan 0).answer = some (if control % 16 < 5 then errorReply e (fieldAt payload 0 2) (fieldAt payload 2 1)
              else errorReply e 0 0) ∧ t.mem = s.mem)))

/-- R334, R335, R338; 11, Table 6: SAVE writes the saved values into the copy whose turn it is; RESTORE_DEFAULTS erases both copies;
KEY_ROTATE with its proof installs the new key; LANE_MOVE_NOW makes a lane due for a substitution. -/
def Obligations.SettingsKeysAndLaneMoves : Prop :=
  ∀ (s : State) (req : Req),
    (∀ v, Accepted s req 0x1020 0 v → Completes (.save req v) s fun t => Done t req 0x1020 0 ∧ t.running 0x1020 0 = true ∧
      ∃ c, t.dict.saving = some c ∧ c.values = s.dict.values.keep fun k _ => isRwp k) ∧
    (∀ c, s.dict.saving = some c →
      Completes (.saveComplete true) s (fun t => t.dict.copies.find? s.dict.nextCopy = some c ∧ t.dict.nextCopy = 1 - s.dict.nextCopy ∧
        t.dict.saving = none ∧ t.running 0x1020 0 = false ∧ t.mem = s.mem) ∧
      Completes (.saveComplete false) s (fun t => t.dict.copies = s.dict.copies ∧ t.dict.saving = none ∧
        (t.dict.actions.get {} (objKey 0x1020 0)).state = 3 ∧ t.mem = s.mem)) ∧
    (∀ v, Accepted s req 0x1021 0 v → Completes (.restoreDefaults req v) s fun t => Done t req 0x1021 0 ∧ t.dict.copies = {} ∧
      t.dict.values = s.dict.values ∧ t.mem = s.mem) ∧
    (∀ (key nonce : List Byte), (s.chan req.ch.num).opened = nonce → nonce ≠ [] → key.length = 32 →
      let mask := hmac256 s.custodianKey (nonce ++ [0x4B])
      let v := (key.zip mask).map (fun p => p.1 ^^^ p.2) ++ hmac256 key nonce
      mask.length = 32 → Accepted s req 0x1012 0 v → Completes (.keyRotate req v) s fun t =>
        t.dict.key = some key ∧ Done t req 0x1012 0 ∧ t.mem = s.mem) ∧
    (∀ v : BitVec 16, Accepted s req 0x4190 0 (leBytes 2 v.toNat) → v.toNat = v.toNat % 128 + bits v.toNat 12 8 * 256 →
      (s.port (v.toNat % 128)).subst = none → Completes (.laneMoveNow req v) s fun t =>
        Done t req 0x4190 0 ∧ (t.port (v.toNat % 128)).due.contains (bits v.toNat 12 8) = true ∧ t.mem = s.mem)

/-! ### Narrows ports (16) -/

/-- R350 to R354, R356, R359, R365: a character or a break places an entry, is lost at 128 entries with OVERRUN set and its counter
advanced, the next entry placed then carrying OVERRUN_BEFORE (R352), or is discarded by a muted port; address
characters mute and unmute it; the timeout closes the open block. (Receive DMA off where entries are told.) -/
def Obligations.UartsReceiveCharacters : Prop :=
  ∀ (s : State) (port : Fin 2),
    let p := port.val
    let x := s.uart p
    x.ctl 0 = true → (p = 0 → x.shifter = none ∨ x.ctl 5 = true) → (p = 1 → s.uartOwner 1 ≠ 0) →
    let mark (e : Nat) : Nat := if x.lostOne then setBit e 13 else e
    (∀ c : RxChar,
      let data := c.data.toNat % 2 ^ x.width
      let e := data + (if c.framing then 2 ^ 9 else 0) + (if c.parityErr then 2 ^ 10 else 0) + (if c.idleBefore then 2 ^ 14 else 0)
      let addressed := x.ctl 2 = true ∧ bit data 8 = true
      (¬addressed → (x.muted = false ∨ bit data 8 = true) → x.rxEn = false → Completes (.rxCharacter port c) s fun t =>
        let y := t.uart p
        y.counts.get 0 1 = satAdd 32 (x.counts.get 0 1) 1 ∧ t.mem = s.mem ∧
        (x.rx.length < 128 → y.rx = x.rx ++ [mark e] ∧ y.lostOne = false ∧ (∀ n, n ≠ 4 → n ≠ 5 → bit y.flags n = bit x.flags n)) ∧
        (128 ≤ x.rx.length → y.rx = x.rx ∧ y.lostOne = true ∧ bit y.flags 7 = true ∧
          y.ev.get 0 7 = wrapAdd 16 (x.ev.get 0 7) 1)) ∧
      (¬addressed → x.muted = true → bit data 8 = false → Completes (.rxCharacter port c) s fun t =>
        (t.uart p).rx = x.rx ∧ (t.uart p).counts.get 0 7 = satAdd 32 (x.counts.get 0 7) 1 ∧ t = { s with uarts := t.uarts }) ∧
      (addressed → x.matches_ data = true → x.rxEn = false → x.rx.length < 128 → Completes (.rxCharacter port c) s fun t =>
        (t.uart p).muted = false ∧ (t.uart p).rx = x.rx ++ [mark (e + 2 ^ 12)] ∧ t.mem = s.mem) ∧
      (addressed → x.matches_ data = false → Completes (.rxCharacter port c) s fun t =>
        (t.uart p).muted = true ∧ (t.uart p).rx = x.rx ∧ t = { s with uarts := t.uarts })) ∧
    (x.muted = true → Completes (.rxBreak port) s fun t => (t.uart p).rx = x.rx ∧ t = { s with uarts := t.uarts }) ∧
    (x.muted = false → x.rxEn = false → x.rx.length < 128 → Completes (.rxBreak port) s fun t =>
      (t.uart p).rx = x.rx ++ [mark 0xA00] ∧ bit (t.uart p).flags 4 = true ∧ bit (t.uart p).flags 6 = true ∧ t.mem = s.mem) ∧
    (∀ b, x.rxEn = true → x.timeoutEn = true → x.rx = [] → x.block = some b → Completes (.rxTimeout port) s fun t =>
      (t.uart p).block = none ∧ (t.uart p).seq = x.seq + 1 ∧ bit (t.uart p).flags 9 = true ∧ bit (t.uart p).flags 10 = true ∧
      t = { s with uarts := t.uarts, holmMem := t.holmMem, out := t.out })

/-- R343, R354, R355, R357, R359 to R361, R366: the owner's reads pop entries and clear flags, a non-owner's only show values; what the owner
writes is shifted out in order; flushes, mute, and the two DMA channels. -/
def Obligations.UartRegistersAndDma : Prop :=
  ∀ (s : State) (port : Fin 2) (m : UartMaster),
    let p := port.val
    let x := s.uart p
    let only (t : State) (y : UartSt) : Prop := t.uart p = y ∧ t = { s with uarts := t.uarts }
    let v := if x.rxEn then 0x8000 else x.rx.headD 0x8000
    (s.ownsUart p m = false →
      exec (.uartDataRead port m) s = .next { s with out := { s.out with uart := s.out.uart ++ [(p, v)] } } ∧
      exec (.uartStatusRead port m) s = .next { s with out := { s.out with uart := s.out.uart ++ [(p, x.status p)] } }) ∧
    (s.ownsUart p m = true →
      Completes (.uartDataRead port m) s (fun t => t.out.uart = s.out.uart ++ [(p, v)] ∧ (t.uart p).mask = 0 ∧
        (t.uart p).rx = (if x.rxEn then x.rx else x.rx.tail) ∧ t = { s with out := t.out, uarts := t.uarts } ∧
        ∀ n, bit (t.uart p).flags n = (bit x.flags n && !(n ∈ [4, 5, 6, 7] && bit x.mask n))) ∧
      Completes (.uartStatusRead port m) s (fun t => t.out.uart = s.out.uart ++ [(p, x.status p)] ∧
        t.uart p = { x with mask := x.status p } ∧ t = { s with out := t.out, uarts := t.uarts }) ∧
      (∀ w : BitVec 32,
        let e := w.toNat % 512 + (if bit w.toNat 11 then 2048 else 0)
        (128 ≤ x.tx.length → Completes (.uartDataWrite port m w) s fun t => only t (x.flag 14)) ∧
        (x.tx.length < 128 → x.shifter.isSome = true → Completes (.uartDataWrite port m w) s fun t =>
          only t { x with tx := x.tx ++ [(e, false)] }) ∧
        (x.tx = [] → x.txLeft = [] → x.shifter = none → x.ctl 1 = true → (p = 1 → x.ctl 6 = true → x.cts = true) →
          Completes (.uartDataWrite port m w) s fun t => only t { x with shifter := some (e, false) })) ∧
      Completes (.muteNow port m) s (fun t => only t { x with muted := true }) ∧
      Completes (.rxFlush port m) s (fun t => only t { x with rx := [] }) ∧
      (x.txLeft = [] → Completes (.txFlush port m) s fun t => only t { x with tx := [] }) ∧
      (x.shifter.isSome = true → Completes (.txFlush port m) s fun t =>
        only t { x with tx := (x.txLeft.take 128).map (·, true), txLeft := x.txLeft.drop 128 }) ∧
      (x.rxEn = false → x.rx = [] → Completes (.rxdmaEnable port m true) s fun t =>
        only t { x with rxEn := true, wptr := 0, seq := 0, block := none }) ∧
      (∀ b, x.rxEn = true → x.block = some b →
        let header := leBytes 2 b.count ++ leBytes 1 (16 + (if b.errors then 32 else 0) + (if b.overrun then 64 else 0)) ++ leBytes 1 0 ++
          leBytes 4 x.seq ++ leBytes 8 b.first
        let closed (t : State) (en : Bool) : Prop :=
          (t.uart p).block = none ∧ (t.uart p).seq = x.seq + 1 ∧ (t.uart p).rxEn = en ∧ bit (t.uart p).flags 10 = true ∧
          (t.uart p).wptr = ceilDiv (b.place + 16 + b.used) 16 * 16 ∧
          (s.uartOwner p = 0 → t.holmMem.readBytes (x.rxBase + b.place) 16 = header ∧ t.out = s.out) ∧
          (s.uartOwner p ≠ 0 → t.out.host = s.out.host ++ [.data (x.rxBase + b.place) header] ∧ t.holmMem = s.holmMem)
        Completes (.rxdmaClose port m) s (fun t => closed t true) ∧ Completes (.rxdmaEnable port m false) s (fun t => closed t false)) ∧
      (∀ bytes, Completes (.txdmaEnable port m false bytes) s fun t => only t { x with txEn := false, txLeft := [] }) ∧
      (∀ bytes : List Byte, x.txEn = false → x.txCount ≠ 0 → (x.txTagged = true → x.txBase % 2 = 0) → x.shifter.isSome = true →
        x.tx.length ≤ 128 → bytes.length = x.txCount * (if x.txTagged || decide (8 < x.width) then 2 else 1) →
        Completes (.txdmaEnable port m true bytes) s fun t => (t.uart p).txEn = true ∧ (t.uart p).txSent = 0 ∧
          (t.uart p).tx.length = Nat.min 128 (x.tx.length + x.txCount) ∧
          (t.uart p).tx.length + (t.uart p).txLeft.length = x.tx.length + x.txCount ∧ t = { s with uarts := t.uarts })) ∧
    (∀ e, x.shifter = some (e, false) →
      let y := x.count 2
      let sent (t : State) (y : UartSt) : Prop :=
        t.uart p = y ∧ t.out.line = s.out.line ++ [(p, e)] ∧ t = { s with uarts := t.uarts, out := { s.out with line := t.out.line } }
      (x.tx = [] → Completes (.txCharacterSent port false) s fun t => sent t { y with shifter := none }) ∧
      (∀ q r, x.tx = q :: r → x.txLeft = [] → x.ctl 1 = true → (p = 1 → x.ctl 6 = true → x.cts = true) →
        Completes (.txCharacterSent port false) s fun t => sent t { y with shifter := some q, tx := r }) ∧
      (p = 0 → x.ctl 5 = false → Completes (.txCharacterSent port true) s fun t => (t.uart p).shifter = none ∧ (t.uart p).tx = [] ∧
        (t.uart p).txEn = false ∧ bit (t.uart p).flags 13 = true ∧ t.mem = s.mem))

/-- R279, R281, R288, R343 to R345, R348, R355, R362 to R364: a port changes owner and is reset; N0_BAUD and the address switches reach N0;
registers of BAR0 and of the ports take legal values, and an illegal one changes nothing but an error flag. -/
def Obligations.OwnersBaudsAndRegisterWrites : Prop :=
  ∀ (s : State) (req : Req),
    (∀ (port : Fin 2) (value : List Byte),
      let p := port.val
      let v := ofBytes value
      Accepted s req 0x9000 (p + 1) value → (v = 0 ∨ (s.card (v - 1)).present = true) → Completes (.narrowsOwner req port value) s fun t =>
        t.uartOwner p = v ∧ (p = 1 → Done t req 0x9000 2) ∧ t.mem = s.mem ∧
        (v ≠ s.uartOwner p → (t.uart p).rx = [] ∧ (t.uart p).tx = [] ∧ (t.uart p).shifter = none ∧ (t.uart p).flags = 0)) ∧
    (∀ value : List Byte, Accepted s req 0x9003 0 value → Completes (.n0Baud req value) s fun t =>
      Done t req 0x9003 0 ∧ t.obj 0x9003 0 = ofBytes value ∧ t.mem = s.mem ∧
      (s.uartOwner 0 = 0 → (t.uart 0).baud = baudOf (ofBytes value))) ∧
    (∀ value : Byte, Completes (.dipSwitchChange value) s fun t => t.rack.dip = value.toNat ∧ t.mem = s.mem ∧
      (s.boot.holmUp = true → s.uartOwner 0 = 0 → 1 ≤ value.toNat → value.toNat ≤ 247 → (t.uart 0).node = value.toNat)) ∧
    (∀ active : Bool, ((s.uart 1).tx = [] ∨ (s.uart 1).shifter.isSome = true) → Completes (.ctsChange active) s fun t =>
      t.uart 1 = { s.uart 1 with cts := active } ∧ t = { s with uarts := t.uarts }) ∧
    (∀ (port : Fin 2) (m : UartMaster) (value : Word), s.ownsUart port.val m = true →
      let x := s.uart port.val
      let w := value.toNat % 2 ^ 32
      Completes (.registerWrite (.uart port m 0x010 value)) s (fun t => t = { s with uarts := t.uarts } ∧ t.uart port.val =
        if bits w 21 6 = 0 ∨ 40000 < bits w 21 6 ∨ (bits w 21 6 = 40000 ∧ w % 64 ≠ 0) then x.flag 14 else { x with baud := w % 2 ^ 22 }) ∧
      Completes (.registerWrite (.uart port m 0x00C value)) s (fun t => t = { s with uarts := t.uarts } ∧ t.uart port.val =
        if w % 16 < 5 ∨ 9 < w % 16 ∨ 4 < bits w 6 4 ∨ bits w 8 7 = 3 then x.flag 14
        else { x with format := w % 128 + bits w 8 7 * 128 })) ∧
    (∀ (fn : FnId) (value : Word), (s.card fn.card.val).present = true →
      let f := s.fn fn.key
      Completes (.registerWrite (.bar0 fn 0x1000 value)) s (fun t => t = { s with fns := t.fns } ∧ t.fn fn.key =
        if f.evqEnable = false ∧ value.toNat % 64 = 0 then { f with evqBase := value } else { f with configError := true }) ∧
      Completes (.registerWrite (.bar0 fn 0x101C value)) s (fun t => t = { s with fns := t.fns } ∧
        t.fn fn.key = { f with evqEnable := bit value.toNat 0 }) ∧
      (s.ownedCtx fn 0 = some (fn.card.val * 16) → Completes (.registerWrite (.bar0 fn 0x10000 value)) s fun t =>
        let x := s.ctx (fn.card.val * 16)
        (x.enable = false ∧ value.toNat % 64 = 0 → t.ctx (fn.card.val * 16) = { x with ringBase := value } ∧
          t = { s with ctxs := t.ctxs }) ∧
        (¬(x.enable = false ∧ value.toNat % 64 = 0) → t = { s with fns := t.fns } ∧ (t.fn fn.key).configError = true)))

/-! ### Time and records (17) -/

/-- R367, R368, R372 to R375: each tick adds INCREMENT; Sync messages step an acquiring timebase, lock it after 16 in range and lose the lock
after 16 out of range; a master is selected or lost, with holdover after a lock; time and OPERATING_SECONDS are counted and stored.
(How the servo sets INCREMENT within its limits is a free value, log 82.) -/
def Obligations.TheTimebaseFollowsItsMaster : Prop :=
  ∀ s : State,
    let x := s.clock
    let lost (t : State) : Prop := t.mem = s.mem ∧ (x.state = .locked → t.clock.state = .holdover ∧ t.clock.holdStart = x.ticks) ∧
      (x.state = .acquiring → x.fromHoldover = false → t.clock.state = .free)
    (s.pending = [] → s.boot.holmUp = true → s.boot.recovery = false → ∃ t, step s = .next t ∧ t = { s with clock := t.clock } ∧
      t.clock.ticks = x.ticks + 1 ∧ (x.base * 2 ^ 32 + x.frac + x.incr < 2 ^ 96 → x.frac < 2 ^ 32 →
        t.clock.base * 2 ^ 32 + t.clock.frac = x.base * 2 ^ 32 + x.frac + x.incr)) ∧
    (∀ offset delay : Int,
      let after (P : Clock → Prop) : Prop := Completes (.ptpSync offset delay) s fun t => P t.clock ∧ t.clock.offset = offset ∧
        t.clock.pathDelay = delay ∧ t.mem = s.mem
      let steered (c : Clock) : Prop := c.base = x.base ∧ 4 * 2 ^ 32 - 206158 ≤ c.incr ∧ c.incr ≤ 4 * 2 ^ 32 + 206158
      (x.state = .free ∨ x.state = .holdover → exec (.ptpSync offset delay) s = .next s) ∧
      (x.state = .acquiring →
        (1000000 < offset.natAbs → after fun c => c.base = ((x.base : Int) - offset).toNat % 2 ^ 64 ∧ c.inRange = 0 ∧ c.state = .acquiring) ∧
        (offset.natAbs ≤ 1000000 → 1000 < offset.natAbs → after fun c => steered c ∧ c.inRange = 0 ∧ c.state = .acquiring) ∧
        (offset.natAbs ≤ 1000 → after fun c => steered c ∧ (x.inRange < 15 → c.inRange = x.inRange + 1 ∧ c.state = .acquiring) ∧
          (15 ≤ x.inRange → c.state = .locked))) ∧
      (x.state = .locked →
        (offset.natAbs ≤ 10000 → after fun c => steered c ∧ c.outRange = 0 ∧ c.state = .locked) ∧
        (10000 < offset.natAbs → after fun c => steered c ∧ (x.outRange < 15 → c.outRange = x.outRange + 1 ∧ c.state = .locked) ∧
          (15 ≤ x.outRange → c.state = .acquiring)))) ∧
    (∀ a : Announce, a.best = true → s.boot.holmUp = true → s.boot.bcUp = true → Completes (.ptpAnnounce a) s fun t =>
      t.clock.master = a.clock.toNat ∧ t.clock.linkUp = true ∧ t.clock.base = x.base ∧ t.mem = s.mem ∧
      t.clock.state = (if x.state = .locked ∧ x.master = a.clock.toNat then .locked else .acquiring) ∧
      (x.state = .holdover → t.clock.fromHoldover = true)) ∧
    Completes .announceTimeout s lost ∧
    (x.linkUp = true → Completes .ptpLinkDown s fun t => lost t ∧ t.clock.linkUp = false) ∧
    (x.state = .holdover → x.lostRaised = false → s.obj 0x1107 0 * 1000 < s.errorBound → Completes .timeValidLost s fun t =>
      t.clock = { x with lostRaised := true } ∧ t.mem = s.mem) ∧
    (s.boot.holmUp = true → Completes .timebaseStateSave s (fun t => t.recd.store.kept.timebase = x.base ∧
        t.recd.store.kept.hasTimebase = true ∧ t.recd.store.kept.opSeconds = x.opSeconds ∧ t = { s with recd := t.recd }) ∧
      Completes .operatingSecond s fun t => t.clock = { x with opSeconds := satAdd 40 x.opSeconds 1 } ∧
        t = { s with clock := t.clock, strait := t.strait })

/-- R377 to R384: a coalescing window that closes delivers its follow-up and opens the next; caps are counted by the second; queued records
are programmed in order into the store's sectors, which are reclaimed, erased, tired and retired. -/
def Obligations.RecordsAreStored : Prop :=
  ∀ s : State,
    let x := s.recd.store
    (∀ (code : BitVec 16) (src : Source) (w : Coalesce), s.boot.holmUp = true → s.boot.restarting = false →
      let key := coalesceKey code.toNat s.unitNo src
      s.recd.windows.find? key = some w → Completes (.coalesceWindowClose code src) s fun t => t.mem = s.mem ∧
        (w.follow = none → t.recd.windows.find? key = none ∧ t = { s with recd := t.recd }) ∧
        (w.follow.isSome = true → t.recd.windows.find? key = some ⟨s.obj 0x1200 0, s.clock.ticks, none⟩)) ∧
    (s.boot.holmUp = true → s.boot.restarting = false → Completes .capSecondEnd s fun t => t.recd.caps.rows = [] ∧ t.mem = s.mem ∧
      ((∀ c ∈ s.recd.caps.values, c.suppressed = 0) → t = { s with recd := t.recd } ∧ t.recd.store = x)) ∧
    (∀ (r : Rec) (n : Nat) (u : Store), x.isVolatile = false → s.nextStored = some r → x.open_ = some (n, u) →
      (∀ k, k ≤ 2 → Completes (.recordStoreProgram k) s fun t => t = { s with recd := t.recd } ∧
        let y := t.recd.store
        (y.sector n).slots = (u.sector n).slots ++ [.event x.nextSeq r] ∧ y.nextSeq = x.nextSeq + 1 ∧ y.stored = satAdd 64 x.stored 1 ∧
        y.lostNow = 0 ∧ (x.lostNow = 0 → x.held = [] → y.queue = x.queue.drop 1) ∧ (0 < x.lostNow → y.queue = x.queue)) ∧
      (∀ k, 8 < k → Completes (.recordStoreProgram k) s fun t => (t.recd.store.sector n).retired = true ∧ t.mem = s.mem)) ∧
    (∀ n, x.erasedSectors.length < 4 → x.oldestSector = some n → Completes .rsReclaim s fun t =>
      (t.recd.store.sector n).slots = [] ∧ (t.recd.store.sector n).erasing = (!(x.sector n).retired) ∧
      (t.bg.get {} (bgKey 16 0xFF 0)).cycles = satAdd 32 (s.bg.get {} (bgKey 16 0xFF 0)).cycles 1 ∧ t = { s with recd := t.recd, bg := t.bg }) ∧
    (∀ (n : Fin 1024) (ms : Nat), (x.sector n.val).erasing = true →
      let y := { x.sector n.val with erasing := false, erased := true, erases := (x.sector n.val).erases + 1, closed := false }
      (ms ≤ 400 → Completes (.rsEraseComplete n ms) s fun t => t.recd.store.sector n.val = y ∧ t = { s with recd := t.recd }) ∧
      (400 < ms → ms ≤ 1000 → Completes (.rsEraseComplete n ms) s fun t => (t.recd.store.sector n.val).tired = y.tired + 1 ∧
        (t.recd.store.sector n.val).erased = true ∧ (2 ≤ y.tired → (t.recd.store.sector n.val).retired = true) ∧ t.mem = s.mem) ∧
      (1000 < ms → Completes (.rsEraseComplete n ms) s fun t => (t.recd.store.sector n.val).retired = true ∧ t.mem = s.mem))

/-! ### Background work and live repair (18) -/

/-- R389, R394, R395, R398 to R402, R406; 18, Tables 5 to 7: overdue activities and spares are reported; a drain takes an isle out of the
shape at once or waits, can be aborted while it waits, is forced at its timeout, and ends with the isle off and empty; a retest powers the
isle on and ends in phase 5 or FAILED. -/
def Obligations.IslesDrainAndRetest : Prop :=
  ∀ (s : State) (req : Req) (isle : Isle),
    let i := isle.val
    let r := s.repairOf i
    let off (t : State) : Prop := (t.isle i).state = .off ∧ (t.repairOf i).phase = 3 ∧ t.power.isle.get .i3 i = .i3 ∧
      t.running 0x7010 (i + 1) = false ∧ t.mem = s.mem.clear (gaddr i 0 0) (2 ^ 52)
    let testing (t : State) : Prop := (t.isle i).state = .testing ∧ (t.repairOf i).phase = 4 ∧ t.power.isle.get .i3 i = .i0 ∧
      t.holdOf (holdIsle i) = .held ∧ t.mem = s.mem
    (∀ (a : Fin 17) (iu n : Byte) (age limit : Nat), overdueAfter a.val = some limit → limit < age →
      (s.bg.get {} (bgKey a.val iu.toNat n.toNat)).overdue = false → Completes (.backgroundOverdue a iu n age) s fun t =>
        (t.bg.get {} (bgKey a.val iu.toNat n.toNat)).overdue = true ∧ t.mem = s.mem) ∧
    (∀ (n : SoundId) (failed : List Nat), s.soundPowered n.val = true → Completes (.soundSpareLaneTest n failed) s fun t => t.mem = s.mem ∧
      ∀ l ∈ failed, ((s.sound n.val).steered.any (·.2 == l)) = false → (t.sound n.val).spareFailed.contains l = true) ∧
    (∀ (k : StackId) (bank failed : Nat), (s.stack k.key).serves = true → Completes (.hbmSpareRowTest k bank failed) s fun t =>
      (t.stack k.key).sparesFailed.get 0 bank =
        (s.stack k.key).sparesFailed.get 0 bank + Nat.min failed ((s.stack k.key).sparesLeft bank) ∧
      (t.stack k.key).spareBank = some bank ∧ t.mem = s.mem) ∧
    (Accepted s req 0x7010 (i + 1) [1] → (s.isle i).state = .serving → r.phase = 0 →
      (s.olderRun = none → s.shape.waiting = [] → s.boot.restarting = false → Completes (.isleDrain req isle) s fun t =>
        Done t req 0x7010 (i + 1) ∧ (t.isle i).state = .draining ∧ (t.repairOf i).phase = 2 ∧ bit t.shape.cur.mask i = false ∧
        t.running 0x7010 (i + 1) = true ∧ t.mem = s.mem) ∧
      (s.olderRun.isSome = true → Completes (.isleDrain req isle) s fun t =>
        Done t req 0x7010 (i + 1) ∧ (t.isle i).state = .serving ∧ (t.repairOf i).phase = 1 ∧
        t.shape.waiting = s.shape.waiting ++ [.drain i] ∧ t.mem = s.mem)) ∧
    (s.drainDone i = true → Completes (.isleDrainComplete isle) s off ∧ Completes (.drainTimeoutExpiry isle) s off) ∧
    (s.drainDone i = false → (r.phase = 1 ∨ r.phase = 2) → Completes (.drainTimeoutExpiry isle) s fun t =>
      ∀ c p q, c < 64 → (s.ctx c).plan = some p → p.names i = true → s.activeRun c = some q →
        (t.ctx c).run = some { q with halted := some 0x702 }) ∧
    (∀ value, Accepted s req 0x7016 (i + 1) value → r.phase = 1 → Completes (.isleServiceAbort req isle value) s fun t =>
      Done t req 0x7016 (i + 1) ∧ (t.repairOf i).phase = 0 ∧ t.shape.waiting = s.shape.waiting.filter (· != .drain i) ∧ t.mem = s.mem) ∧
    (Accepted s req 0x7010 (i + 1) [2] → s.power.wafer = .w0 → (r.phase = 3 ∨ (s.isle i).state = .failed) →
      Completes (.isleRetest req isle) s fun t => Done t req 0x7010 (i + 1) ∧ testing t) ∧
    ((s.isle i).state = .failed → s.power.wafer = .w0 → s.obj 0x7013 0 = 1 → r.autoDone = false → r.failedBefore = none →
      Completes (.autoRetest isle) s fun t => testing t ∧ (t.repairOf i).autoDone = true) ∧
    (∀ o : RetestOutcome, r.phase = 4 →
      let u := (s.loadMicrocode i r.image o.microcodeOk).takeOutcome i o
      (u.failingRow i o ≠ 0 → Completes (.isleRetestComplete isle o) s fun t => (t.isle i).state = .failed ∧ (t.repairOf i).phase = 0 ∧
        (t.repairOf i).retest.result = 3 ∧ (t.repairOf i).retest.failing = u.failingRow i o ∧ t.power.isle.get .i3 i = .i3) ∧
      (u.failingRow i o = 0 → s.obj 0x7014 0 = 0 → Completes (.isleRetestComplete isle o) s fun t => (t.repairOf i).phase = 5 ∧
        (t.repairOf i).retest.result = (if isleWhole u i then 1 else 2) ∧ t.holdOf (holdIsle i) = .held ∧
        t.power.ready.get false (holdIsle i) = true ∧ (t.isle i).ox = BitVec.ofNat 4 (r.keep 0 4 o.ox.toNat)))

/-- R403, R404, R422: a held boundary is released where its hold is ready; a retested isle whose Sounds pass rejoins the shape, and one left
in phase 5 or 6 is drained. -/
def Obligations.IslesAreReleasedAndRejoin : Prop :=
  ∀ (s : State) (req : Req) (isle : Isle),
    let i := isle.val
    let r := s.repairOf i
    (∀ (sub : Byte) (value : List Byte), Accepted s req 0x2300 sub.toNat value →
      (s.holdOf sub.toNat = .held → s.power.ready.get false sub.toNat = true → Completes (.holdRelease req sub value) s fun t =>
        Done t req 0x2300 sub.toNat ∧ t.holdOf sub.toNat = .released ∧ t.mem = s.mem ∧
        (sub.toNat ≤ 64 → (s.repairOf (sub.toNat - 1)).phase = 5 → (t.repairOf (sub.toNat - 1)).phase = 6)) ∧
      (s.holdOf sub.toNat = .unpowered → Completes (.holdRelease req sub value) s fun t =>
        Replied t req 2 0x2300 sub.toNat (errorReply 8 0x2300 sub.toNat) ∧ t = { s with dict := t.dict, fns := t.fns, out := t.out })) ∧
    (r.phase = 6 → r.soundsPassed = false →
      (s.canJoin i s.outSounds = true → s.obj 0x7014 0 = 0 → Completes (.soundTestComplete isle []) s fun t =>
        (t.repairOf i).soundsPassed = true ∧ (t.repairOf i).phase = 6 ∧ t = { s with repair := t.repair, dict := t.dict }) ∧
      (s.canJoin i s.outSounds = false → Completes (.soundTestComplete isle []) s fun t =>
        (t.repairOf i).phase = 5 ∧ t.holdOf (holdIsle i) = .held ∧
        t = { s with repair := t.repair, dict := t.dict, power := t.power })) ∧
    (Accepted s req 0x7010 (i + 1) [3] → r.phase = 6 → r.soundsPassed = true → s.olderRun = none → s.shape.waiting = [] →
      s.boot.restarting = false → bit s.shape.cur.mask i = false → s.canJoin i s.outSounds = true →
      Completes (.isleRejoin req isle) s fun t => Done t req 0x7010 (i + 1) ∧ (t.isle i).state = .serving ∧ (t.repairOf i).phase = 0 ∧
        t.shape.cur.mask = setBit s.shape.cur.mask i ∧ t.shape.cur.epoch = nextEpoch s.shape.cur.epoch ∧ t.mem = s.mem) ∧
    ((r.phase = 5 ∨ r.phase = 6) → Completes (.rejoinIdleTimeout isle) s fun t =>
      (t.isle i).state = .off ∧ (t.repairOf i).phase = 3 ∧ t.power.isle.get .i3 i = .i3 ∧ t.mem = s.mem.clear (gaddr i 0 0) (2 ^ 52))

/-! ### Power, domains and air (19) -/

/-- R410, R416, R427 to R429, R475: supplies fail, lose and regain AC, come and go; a feed that no supply reports is lost, feed B with the
profiles above P1; with neither feed the unit has no power; fans fail, come and go. -/
def Obligations.FeedsSuppliesAndFans : Prop :=
  ∀ s : State,
    (∀ feed : Fin 2, s.feedPresent feed.val = true → Completes (.feedLost feed) s fun t =>
      (∀ n, n < 6 → supplyFeed n = feed.val → (t.supply n).ac = false ∧ (t.supply n).state ≠ .healthy) ∧
      t.feedPresent feed.val = false ∧
      (s.feedPresent (1 - feed.val) = false → t.power.wafer = .w3 ∧ t.boot.holmUp = false ∧ t.mem.cells = [] ∧ t.ctxs.rows = []) ∧
      (feed.val = 1 → s.feedPresent 0 = true → t.power.bStable = false ∧ (1 ≤ s.power.force → t.power.force = 1))) ∧
    (∀ feed : Fin 2, s.feedPresent feed.val = false → Completes (.feedRestored feed) s fun t =>
      ∀ n, n < 6 → supplyFeed n = feed.val → (t.supply n).ac = true ∧ (t.supply n).state ≠ .noAc ∧
        ((s.supply n).state = .noAc → (t.supply n).state = .healthy)) ∧
    (s.feedPresent 1 = true → s.power.bStable = false → s.power.wafer ≠ .w3 → Completes .feedBStable s fun t =>
      t.power.bStable = true ∧ (s.obj 0x2000 0 ≤ s.power.force → t = { s with power := { s.power with bStable := true } })) ∧
    (∀ n : Fin 6,
      let x := s.supply n.val
      (∀ cause : Fin 4, cause.val ≠ 0 → x.state ≠ .absent → x.state ≠ .failed → Completes (.supplyFailed n cause) s fun t =>
        (t.supply n.val).state = .failed) ∧
      (x.state = .healthy → Completes (.supplyFailed n 0) s fun t => (t.supply n.val).state = .noAc ∧ (t.supply n.val).ac = false) ∧
      (∀ (serial : List Byte) (ac : Bool), x.state = .absent → Completes (.supplyInserted n serial ac) s fun t =>
        (t.supply n.val).serial = serial ∧ (t.supply n.val).state = if ac then .healthy else .noAc) ∧
      (x.state ≠ .absent → Completes (.supplyRemoved n) s fun t => (t.supply n.val).state = .absent) ∧
      (x.state = .noAc → Completes (.supplyAcGood n) s fun t => (t.supply n.val).state = .healthy)) ∧
    (∀ n : Fin 10,
      let x := s.power.fans.get {} n.val
      let state (t : State) : FanState := (t.power.fans.get {} n.val).state
      let lost (t : State) : Prop := t.power.fanLost = decide (t.fansRunning < 9)
      (∀ m, x.state = .running → Completes (.fanFailed n m) s fun t => state t = .failed ∧ lost t ∧ t.mem = s.mem) ∧
      (x.state = .absent → Completes (.fanInserted n) s fun t => state t = .running ∧ lost t ∧ t.mem = s.mem) ∧
      (x.state ≠ .absent → Completes (.fanRemoved n) s fun t => state t = .absent ∧ lost t ∧ t.mem = s.mem)) ∧
    (∀ temp : Int, ((1000 ≤ temp ∧ s.inletHot temp = false) → exec (.inletOutOfRange temp) s = .next s) ∧
      Completes (.inletOutOfRange temp) s fun t => t.power = s.power ∧ t.mem = s.mem)

/-- R411, R413 to R415, R417, R430, R431: profiles and feed limits are admissible or refused; a lowering takes force at once, a raise once the
set point has been reached; caps hold the set point until they clear; a trip takes the wafer to W1 with its jobs halted. -/
def Obligations.ProfilesSetPointsAndCaps : Prop :=
  ∀ (s : State) (req : Req),
    let x := s.power
    (∀ value, Accepted s req 0x2000 0 value →
      let v := ofBytes value
      (admissible v (s.feedLimit 0) (s.feedLimit 1) = true → Completes (.powerProfile req value) s fun t =>
        Done t req 0x2000 0 ∧ t.obj 0x2000 0 = v ∧ (v < x.force → t.power.force = v)) ∧
      (admissible v (s.feedLimit 0) (s.feedLimit 1) = false → Completes (.powerProfile req value) s fun t =>
        Replied t req 2 0x2000 0 (errorReply 8 0x2000 0) ∧ t = { s with dict := t.dict, fns := t.fns, out := t.out })) ∧
    (∀ (feed : Fin 2) (value : List Byte), Accepted s req (limitObj feed.val) 0 value →
      admissible (s.obj 0x2000 0) (ofBytes value) (s.feedLimit (1 - feed.val)) = true → Completes (.feedLimitWrite req feed value) s fun t =>
        Done t req (limitObj feed.val) 0 ∧ t.feedLimit feed.val = ofBytes value) ∧
    (x.wafer = .w0 → x.setMv ≠ x.targetMv → Completes .setPointReached s fun t => t.power.setMv = x.targetMv ∧
      (∀ p cause, x.raising = some (p, cause) → t.power.force = p ∧ t.power.raising = none)) ∧
    (∀ (k : StackId) (r : Nat), (s.stack k.key).rateDue = some r → (s.stack k.key).trained = true →
      (r ≤ (s.stack k.key).rate ∨ ∀ c p, c < 64 → (s.ctx c).plan = some p → p.hasStack k.key = true → s.activeRun c = none) →
      Completes (.hbmRateChange k) s fun t => t.stack k.key = { s.stack k.key with rate := r, rateDue := none } ∧ t.mem = s.mem) ∧
    (x.wafer = .w0 →
      (∀ watts, limitOf x.force < watts → x.capped = false → Completes (.inputAboveProfileLimit watts) s fun t => t.power.capped = true ∧
        550 ≤ t.power.capMv ∧ t.power.capMv ≤ Nat.max 550 (Nat.min x.setMv (setPointOf x.force)) ∧ t.power.targetMv ≤ t.power.capMv ∧
        t.mem = s.mem) ∧
      (∀ (i : Isle) (temp : Int), 10000 ≤ temp → x.thermalCap = false → Completes (.thermalCap i temp) s fun t => t.power.thermalCap = true ∧
        550 ≤ t.power.thermMv ∧ t.power.thermMv ≤ Nat.max 550 (Nat.min x.setMv (setPointOf x.force)) ∧
        t.power.targetMv ≤ t.power.thermMv ∧ t.mem = s.mem) ∧
      (∀ (i : Isle) (temp : Int), 11000 ≤ temp → Completes (.thermalTrip (.junction i) temp) s fun t =>
        t.power.wafer = .w1 ∧ t.power.cause = .trip ∧ t.shape.cur.mask = 0 ∧
        ∀ c q, c < 64 → (s.ctx c).plan.isSome = true → s.activeRun c = some q →
          ∃ q', (t.ctx c).run = some q' ∧ q'.halted = some 0x11B)) ∧
    (x.capped = true → limitOf x.force ≤ s.available → Completes .powerCapCleared s fun t => t.power.capped = false ∧ t.mem = s.mem) ∧
    (∀ temp : Int, x.thermalCap = true → temp ≤ 9000 → Completes (.thermalCapCleared temp) s fun t =>
      t.power.thermalCap = false ∧ t.mem = s.mem)

/-- R418, R420, R422 to R426, R436: isles in retention wake and are checked; sites are switched; the wafer goes to W1 with nothing loaded and
to W3 at a Custodian's request, and back to W0 where the available power serves it. -/
def Obligations.WakesSitesAndWaferStates : Prop :=
  ∀ (s : State) (req : Req),
    (∀ isle : Isle, s.power.isle.get .i3 isle.val = .i2 →
      let awake (t : State) : Prop := t.power.isle.get .i3 isle.val = .i0 ∧ (t.core (isle.val * 16 + (s.bant isle.val).housekeeper)).power = .run ∧
        t.mem = s.mem
      (∀ src : WakeSource, (∀ c, src ≠ .load c) → Completes (.isleWake isle src) s awake) ∧
      (∀ (c : Ctx) (p : Plan), (s.ctx c.val).waiting = some p → p.names isle.val = true → Completes (.isleWake isle (.load c)) s awake) ∧
      Completes .periodicIsleWake s awake) ∧
    (∀ isle : Isle, s.power.isle.get .i3 isle.val = .i0 → s.holdOf (holdIsle isle.val) = .held →
      s.power.ready.get false (holdIsle isle.val) = false → (s.repairOf isle.val).phase ≠ 4 →
      (s.obj 0x2302 0 ≠ 1 → Completes (.isleWakeCheckDone isle none) s fun t => t.holdOf (holdIsle isle.val) = .held ∧
        t.power.ready.get false (holdIsle isle.val) = true ∧ t = { s with power := t.power }) ∧
      (∀ f, (s.isle isle.val).state ≠ .unlicensed → Completes (.isleWakeCheckDone isle (some f)) s fun t =>
        (t.isle isle.val).state = .failed)) ∧
    (∀ (site : Site) (value : List Byte), Accepted s req 0x2304 (site.val + 1) value →
      (ofBytes value = 0 → (∀ c p n, c < 64 → n < 4 → (s.ctx c).plan = some p → p.usesPort (site.val * 4 + n) = false) →
        Completes (.sitePower req site value) s fun t => Done t req 0x2304 (site.val + 1) ∧ t.obj 0x2304 (site.val + 1) = 0 ∧
          t.holdOf (holdSite site.val) = .unpowered) ∧
      (ofBytes value = 1 → s.power.wafer = .w0 → s.holdOf (holdSite site.val) = .unpowered → s.obj 0x2302 0 ≠ 1 →
        Completes (.sitePower req site value) s fun t => Done t req 0x2304 (site.val + 1) ∧ t.obj 0x2304 (site.val + 1) = 1 ∧
          t.holdOf (holdSite site.val) = .held ∧ ∀ n, n < 4 → (t.port (site.val * 4 + n)).optic = .acquiring)) ∧
    (Accepted s req 0x2051 0 [1] → s.power.wafer = .w0 → s.anyPlan = false → Completes (.waferToW1 req) s fun t =>
      Done t req 0x2051 0 ∧ t.power.wafer = .w1 ∧ t.power.cause = .request ∧ t.shape.cur.mask = 0) ∧
    (Accepted s req 0x2051 0 [3] → s.role req.ch = 2 → s.anyPlan = false → Completes (.waferToW3 req) s fun t =>
      t.power.wafer = .w3 ∧ t.boot.holmUp = false ∧ t.mem.cells = [] ∧ t.recd.store.kept.timebase = s.clock.base) ∧
    (∀ boot : BootFacts, s.power.wafer = .w1 → minServing ≤ s.available →
      (Accepted s req 0x2051 0 [0] → s.power.cause ≠ .trip → Completes (.waferToW0 req boot) s fun t =>
        Done t req 0x2051 0 ∧ t.power.wafer = .w0) ∧
      (s.power.cause = .insufficient → 10500 ≤ s.available → Completes (.powerRecoveredExit boot) s fun t => t.power.wafer = .w0))

/-! ### Start-up, reset and update (20) -/

/-- R434, R435, R438 to R440, R444 to R446, R475: power-up starts the Holm from a valid slot, or recovery without one; restarts of the Holm, of
the board controller and of a bridge, by request and by watchdog. -/
def Obligations.StartUpResetsAndRestarts : Prop :=
  ∀ (s : State) (req : Req),
    let b := s.boot
    let stopped (cause : Nat) (t : State) : Prop := t.boot.restarting = true ∧ t.boot.holmReady = false ∧ t.boot.restartCause = cause ∧
      t.inject.armed = false ∧ (∀ n, n < 65 → (t.chan n).session = .none) ∧ t.recd.store.kept.timebase = s.clock.base ∧ t.mem = s.mem
    (s.power.wafer = .w3 → s.acPresent = true → b.holmUp = false → ∀ boot : BootFacts, boot.rejected = [] → b.trial = none →
      let started (t : State) : Prop :=
        ((s.slot b.active).state = .valid → boot.storeUsable = true → t.boot.holmUp = true ∧ t.boot.holmReady = true ∧
          t.boot.recovery = false ∧ t.boot.running = b.active ∧ t.dict.ready = true ∧
          t.clock.powerCycles = satAdd 32 s.recd.store.kept.powerCycles 1 ∧
          (minServing ≤ t.available → t.power.wafer = .w0) ∧ (t.available < minServing → t.power.wafer = .w1)) ∧
        ((s.slot b.active).state ≠ .valid → (s.slot (1 - b.active)).state ≠ .valid → t.boot.recovery = true ∧ t.boot.bcUp = false ∧
          t.boot.step = 4 ∧ t.power.wafer = .w3 ∧ t.mem.cells = [])
      Completes (.coldPowerUp boot) s started ∧
      (∀ ms, 100 ≤ ms → Completes (.powerButton ms boot) s started) ∧
      (∀ ms, ms < 100 → exec (.powerButton ms boot) s = .next s)) ∧
    (∀ level : Fin 4, (level.val ≤ s.shape.level → exec (.startLevelLate level) s = .next s) ∧
      Completes (.startLevelLate level) s fun t => t.shape = s.shape ∧ t.mem = s.mem) ∧
    (∀ boot : BootFacts, Accepted s req 0xF020 1 [1] → Completes (.warmReset req boot) s fun t => Done t req 0xF020 1 ∧
      t.boot.resetKind = 1 ∧ t.boot.resetTime = s.clock.base) ∧
    (Accepted s req 0xF020 2 [1] → Completes (.holmRestart req) s fun t => stopped 2 t ∧ Done t req 0xF020 2) ∧
    (b.holmUp = true → b.restarting = false → Completes .holmWatchdog s (stopped 1)) ∧
    (b.restarting = true → b.trial = none → (s.slot b.active).state = .valid → Completes (.holmRestartComplete []) s fun t =>
      t.boot.restarting = false ∧ t.boot.holmReady = true ∧ t.boot.running = b.active ∧ t.boot.heldEvents = [] ∧
      t.boot.resetKind = 2 ∧ t.boot.resetCause = b.restartCause ∧ t.mem = s.mem) ∧
    (Accepted s req 0xF020 3 [1] → Completes (.boardControllerRestart req) s fun t => Done t req 0xF020 3 ∧ t.boot.resetKind = 3 ∧
      t.boot.resetCause = 2 ∧ t.clock.linkUp = false ∧ t.mem = s.mem) ∧
    (b.bcUp = true → b.holmUp = true → Completes .boardControllerWatchdog s fun t => t.boot.resetKind = 3 ∧ t.boot.resetCause = 1 ∧
      t.clock.linkUp = false ∧ t.mem = s.mem) ∧
    (∀ card : Card, Accepted s req 0xF020 (4 + card.val) [1] → (s.card card.val).present = true →
      (∀ n, n < 16 → (s.ctx (card.val * 16 + n)).state = .empty ∨ (s.ctx (card.val * 16 + n)).state = .haltedLink) →
      Completes (.bridgeRestart req card) s fun t => Done t req 0xF020 (4 + card.val) ∧ t.boot.resetKind = 4 ∧
        (t.card card.val).present = true ∧ (t.card card.val).link = .training ∧ (t.card card.val).serial = (s.card card.val).serial)

/-- R433, R441 to R443: staging fills the slot that does not run, in order and without a gap; a staged bundle that is whole becomes valid;
activation tries a valid slot until it is confirmed by a write or by time; a committed security version rejects older slots. -/
def Obligations.FirmwareStagesAndActivates : Prop :=
  ∀ (s : State) (req : Req) (value : List Byte),
    let n := s.stagedSlot
    let x := s.slot n
    let only (t : State) : Prop := t = { s with boot := t.boot, dict := t.dict, fns := t.fns, out := t.out }
    (Accepted s req 0xF010 0 value → Completes (.fwStageBegin req value) s fun t => Done t req 0xF010 0 ∧
      t.slot n = { state := .staging, length := ofBytes value } ∧ only t) ∧
    (Accepted s req 0xF011 0 value → x.state = .staging → fieldAt value 4 4 = 0 →
      let data := value.drop 8
      let next := fieldAt value 0 4 = x.image.length ∧ x.image.length + data.length ≤ x.length
      (next → Completes (.fwStageData req value) s fun t => Done t req 0xF011 0 ∧ t.slot n = { x with image := x.image ++ data } ∧ only t) ∧
      (¬next → Completes (.fwStageData req value) s fun t => (t.slot n).state = .invalid ∧ (t.slot n).image = [] ∧
        Replied t req 2 0xF011 0 (errorReply 8 0xF011 0))) ∧
    (Accepted s req 0xF012 0 value → x.state = .staging →
      let whole := x.image.length = x.length ∧ bundleBad x.image s.boot.secMin = none
      (whole → Completes (.fwStageEnd req value) s fun t => Done t req 0xF012 0 ∧ (t.slot n).state = .valid ∧
        (t.slot n).version = (x.image.drop 16).take 16 ∧ (t.slot n).security = fieldAt x.image 12 4 ∧ (t.slot n).image = x.image) ∧
      (¬whole → Completes (.fwStageEnd req value) s fun t => Done t req 0xF012 0 ∧ (t.slot n).state = .invalid)) ∧
    (Accepted s req 0xF013 0 value → (s.slot 0).state ≠ .staging → (s.slot 1).state ≠ .staging → ofBytes value ≠ s.boot.running →
      (s.slot (ofBytes value)).state = .valid → Completes (.fwActivate req value) s fun t => Done t req 0xF013 0 ∧
        t.boot.trial = some (ofBytes value) ∧ t.boot.attempts = 0 ∧ t.boot.restarting = true ∧ t.boot.restartCause = 0 ∧ t.mem = s.mem) ∧
    (s.boot.trial = some s.boot.running →
      let confirmed (t : State) : Prop := t.boot.active = s.boot.running ∧ t.boot.trial = none ∧ t.mem = s.mem
      (Accepted s req 0xF014 0 value → Completes (.fwConfirm req value) s fun t => Done t req 0xF014 0 ∧ confirmed t) ∧
      (1 ≤ s.shape.level → s.boot.restarting = false → Completes .fwTrialTimer s confirmed)) ∧
    (Accepted s req 0xF016 0 value → s.boot.trial = none → Completes (.securityVersionCommit req value) s fun t => Done t req 0xF016 0 ∧
      t.boot.secMin = Nat.max s.boot.secMin (s.slot s.boot.running).security ∧
      (∀ k, (s.slot k).state = .valid → (s.slot k).security < (s.slot s.boot.running).security → (t.slot k).state = .invalid) ∧
      t.mem = s.mem)

/-! ### Provoked faults, and the unit's front and rear (21, 22) -/

/-- R450, R452, R456, R459, R468, R474: points of injection are written while none is armed, arming and disarming, loopbacks and their end,
the locate indicator, the lamp test and the termination switch. -/
def Obligations.InjectionLoopbacksAndFront : Prop :=
  ∀ (s : State) (req : Req) (value : List Byte),
    let x := s.inject
    let disarmed (t : State) : Prop := t.inject.armed = false ∧ t.inject.loops = x.loops ∧ t.mem = s.mem ∧
      (x.armed = true → ∀ n p, x.points.find? n = some p → (t.inject.points.get {} n).holding = false ∧
        (t.inject.points.get {} n).injected = if p.holding then p.injected - 1 else p.injected)
    let begun (t : State) (target inst : Nat) : Prop := t.inject.loops = x.loops ++ [⟨target, inst, ofBytes value⟩] ∧ t.mem = s.mem
    let only (t : State) : Prop := t = { s with inject := t.inject, dict := t.dict, fns := t.fns, out := t.out }
    (∀ (n : Fin 16) (sub : Byte) (p : PointSt), Accepted s req (0xA010 + n.val) sub.toNat value → x.armed = false →
      (x.points.get {} n.val).put sub.toNat value = some p → comboOk p = true → targetFits p = true →
      Completes (.injectPoint req n sub value) s fun t => Done t req (0xA010 + n.val) sub.toNat ∧ t.inject.points.get {} n.val = p ∧ only t) ∧
    (Accepted s req 0xA000 0 [1] → (∃ n, n < 16 ∧ (x.points.get {} n).enable = true) → Completes (.injectArm req) s fun t =>
      Done t req 0xA000 0 ∧ t.inject.armed = true ∧ t.inject.time = s.clock.base ∧ t.inject.chan = req.ch.ident ∧
      (∀ n, (t.inject.points.get {} n).eligible = 0) ∧ t.mem = s.mem) ∧
    (Accepted s req 0xA000 0 [0] → Completes (.injectDisarm req) s fun t => Done t req 0xA000 0 ∧ disarmed t) ∧
    Completes .injectArmLimitExpiry s disarmed ∧
    (∀ n : Fin 16, (x.points.get {} n.val).holding = true → Completes (.reorderHoldTimeout n) s fun t =>
      t.inject.points.get {} n.val = { x.points.get {} n.val with holding := false, injected := (x.points.get {} n.val).injected - 1 } ∧
      t = { s with inject := t.inject }) ∧
    (ofBytes value ≠ 0 →
      (∀ p : Port, Accepted s req 0xA040 (p.val + 1) value → s.loopOn 1 p.val = false →
        (∀ c q, c < 64 → (s.ctx c).plan = some q → q.usesPort p.val = false) → Completes (.straitLoopback req p value) s fun t =>
          Done t req 0xA040 (p.val + 1) ∧ begun t 1 p.val) ∧
      (∀ c : Card, Accepted s req 0xA041 (c.val + 1) value → s.loopOn 3 c.val = false →
        (∀ n, n < 16 → (s.ctx (c.val * 16 + n)).state = .empty) → Completes (.shoreLoopback req c value) s fun t =>
          Done t req 0xA041 (c.val + 1) ∧ begun t 3 c.val) ∧
      (∀ n : SoundId, Accepted s req 0xA042 (n.val + 1) value → s.loopOn 2 n.val = false → (s.sound n.val).state = .out →
        Completes (.soundLoopback req n value) s fun t => Done t req 0xA042 (n.val + 1) ∧ begun t 2 n.val)) ∧
    (∀ (bits errors : Nat) (l : Loop) (rest : List Loop), x.loops = l :: rest → Completes (.loopbackDurationExpiry bits errors) s fun t =>
      t.inject.loops = rest.filter (fun m => !(m.target == l.target && m.inst == l.inst)) ∧ t.inject.resTarget = l.target ∧
      t.inject.resInst = l.inst ∧ t.inject.resBits = bits ∧ t.inject.resErrors = errors ∧ t.mem = s.mem) ∧
    (Accepted s req 0x2060 0 value → Completes (.locate req value) s fun t => Done t req 0x2060 0 ∧ t.obj 0x2060 0 = ofBytes value ∧ only t) ∧
    Completes .locateExpiry s (fun t => t.obj 0x2060 0 = 0 ∧ t = { s with dict := t.dict }) ∧
    (Accepted s req 0x2061 0 value → Completes (.lampTest req value) s fun t => Done t req 0x2061 0 ∧ t.rack.lampTest = true ∧
      t.running 0x2061 0 = true ∧ t.mem = s.mem) ∧
    (s.rack.lampTest = true → Completes .lampTestEnd s fun t => t.rack = { s.rack with lampTest := false } ∧ t.running 0x2061 0 = false ∧
      t = { s with rack := t.rack, dict := t.dict }) ∧
    (∀ p : Fin 3, Completes (.terminationSwitchChange p) s fun t =>
      t.rack = { s.rack with termination := p.val } ∧ t = { s with rack := t.rack })

/-! ### The whole machine -/

/-- R6, R59; MEMORY of the model (log 5): every step takes the command at the front of the queue away and nothing else from it, and keeps the
memory of the wafer and the buffers of the Holm in their canonical form. -/
def Obligations.EveryStepKeepsMemoryCanonical : Prop :=
  ∀ s t : State, step s = .next t → t.pending = s.pending.tail ∧ (MemSafe s → MemSafe t)

/-- What reset leaves (R436, R374; 13, Tables 3 to 10; 15, Table 10; 16, Tables 8 to 10): the queue is empty and memory lists nothing, every
context is EMPTY and its ring disabled, event queues are off with a moderation of 1 record or 100 µs at severity 2, channels hold no session,
N0 has 8 data bits, no parity, and a receive block of 256. -/
def Obligations.ResetStateIsAsSpecified : Prop :=
  let s := State.reset
  s.pending = [] ∧ MemSafe s ∧ s.mem.cells = [] ∧ s.clock.base = 0 ∧ s.clock.state = .free ∧ s.power.wafer = .w3 ∧
  (∀ c, (s.ctx c).state = .empty ∧ (s.ctx c).enable = false ∧ (s.ctx c).ringBase = 0 ∧ (s.ctx c).plan = none) ∧
  (∀ k, (s.fn k).evqEnable = false ∧ (s.fn k).modCount = 1 ∧ (s.fn k).modTime = 100 ∧ (s.fn k).filter = 2) ∧
  (∀ n, (s.chan n).session = .none ∧ (s.chan n).queue = []) ∧
  (∀ p, (s.uart p).format = 0x008 ∧ (s.uart p).baud = 0x1A0B ∧ (s.uart p).rxBlock = 256 ∧ (s.uart p).rxTimeout = 32 ∧
    (s.uart p).control = 0) ∧
  s.inject.armed = false ∧ s.unitNo = 0
end

