-- ==== Sys2Proof/Laws/State.lean ====
section
/-! SUPPORT. One lemma for each field under each update of one member of the state: the fields it leaves alone, and the member it changes. -/

namespace Sys2Proof.Machine

/-! `State.updIsle` changes `isles` only. -/

section
variable (s : State) (i : Nat) (f : IsleSt → IsleSt)
@[simp] theorem State.isle_updIsle_same : (s.updIsle i f).isle i = f (s.isle i) := by simp [State.isle, State.updIsle]
theorem State.isle_updIsle_other (j : Nat) (h : j ≠ i) : (s.updIsle i f).isle j = s.isle j := by simp [State.isle, State.updIsle, h]
@[simp] theorem State.updIsle_pending : (s.updIsle i f).pending = s.pending := by rfl
@[simp] theorem State.updIsle_free : (s.updIsle i f).free = s.free := by rfl
@[simp] theorem State.updIsle_clock : (s.updIsle i f).clock = s.clock := by rfl
@[simp] theorem State.updIsle_recd : (s.updIsle i f).recd = s.recd := by rfl
@[simp] theorem State.updIsle_dict : (s.updIsle i f).dict = s.dict := by rfl
@[simp] theorem State.updIsle_out : (s.updIsle i f).out = s.out := by rfl
@[simp] theorem State.updIsle_mem : (s.updIsle i f).mem = s.mem := by rfl
@[simp] theorem State.updIsle_bad : (s.updIsle i f).bad = s.bad := by rfl
@[simp] theorem State.updIsle_frames : (s.updIsle i f).frames = s.frames := by rfl
@[simp] theorem State.updIsle_deferred : (s.updIsle i f).deferred = s.deferred := by rfl
@[simp] theorem State.updIsle_tokens : (s.updIsle i f).tokens = s.tokens := by rfl
@[simp] theorem State.updIsle_pages : (s.updIsle i f).pages = s.pages := by rfl
@[simp] theorem State.updIsle_shape : (s.updIsle i f).shape = s.shape := by rfl
@[simp] theorem State.updIsle_sounds : (s.updIsle i f).sounds = s.sounds := by rfl
@[simp] theorem State.updIsle_engines : (s.updIsle i f).engines = s.engines := by rfl
@[simp] theorem State.updIsle_lambs : (s.updIsle i f).lambs = s.lambs := by rfl
@[simp] theorem State.updIsle_cores : (s.updIsle i f).cores = s.cores := by rfl
@[simp] theorem State.updIsle_bantam : (s.updIsle i f).bantam = s.bantam := by rfl
@[simp] theorem State.updIsle_adders : (s.updIsle i f).adders = s.adders := by rfl
@[simp] theorem State.updIsle_stacks : (s.updIsle i f).hbm = s.hbm := by rfl
@[simp] theorem State.updIsle_stores : (s.updIsle i f).stores = s.stores := by rfl
@[simp] theorem State.updIsle_caches : (s.updIsle i f).caches = s.caches := by rfl
@[simp] theorem State.updIsle_pcOwner : (s.updIsle i f).pcOwner = s.pcOwner := by rfl
@[simp] theorem State.updIsle_wayOwner : (s.updIsle i f).wayOwner = s.wayOwner := by rfl
@[simp] theorem State.updIsle_grants : (s.updIsle i f).grants = s.grants := by rfl
@[simp] theorem State.updIsle_windows : (s.updIsle i f).windows = s.windows := by rfl
@[simp] theorem State.updIsle_flying : (s.updIsle i f).flying = s.flying := by rfl
@[simp] theorem State.updIsle_ctxs : (s.updIsle i f).ctxs = s.ctxs := by rfl
@[simp] theorem State.updIsle_fns : (s.updIsle i f).fns = s.fns := by rfl
@[simp] theorem State.updIsle_cards : (s.updIsle i f).cards = s.cards := by rfl
@[simp] theorem State.updIsle_strait : (s.updIsle i f).strait = s.strait := by rfl
@[simp] theorem State.updIsle_uarts : (s.updIsle i f).uarts = s.uarts := by rfl
@[simp] theorem State.updIsle_holmMem : (s.updIsle i f).holmMem = s.holmMem := by rfl
@[simp] theorem State.updIsle_inject : (s.updIsle i f).inject = s.inject := by rfl
@[simp] theorem State.updIsle_repair : (s.updIsle i f).repair = s.repair := by rfl
@[simp] theorem State.updIsle_bg : (s.updIsle i f).bg = s.bg := by rfl
@[simp] theorem State.updIsle_power : (s.updIsle i f).power = s.power := by rfl
@[simp] theorem State.updIsle_boot : (s.updIsle i f).boot = s.boot := by rfl
@[simp] theorem State.updIsle_rack : (s.updIsle i f).rack = s.rack := by rfl
end

/-! `State.updSound` changes `sounds` only. -/

section
variable (s : State) (i : Nat) (f : SoundSt → SoundSt)
@[simp] theorem State.sound_updSound_same : (s.updSound i f).sound i = f (s.sound i) := by simp [State.sound, State.updSound]
theorem State.sound_updSound_other (j : Nat) (h : j ≠ i) : (s.updSound i f).sound j = s.sound j := by simp [State.sound, State.updSound, h]
@[simp] theorem State.updSound_pending : (s.updSound i f).pending = s.pending := by rfl
@[simp] theorem State.updSound_free : (s.updSound i f).free = s.free := by rfl
@[simp] theorem State.updSound_clock : (s.updSound i f).clock = s.clock := by rfl
@[simp] theorem State.updSound_recd : (s.updSound i f).recd = s.recd := by rfl
@[simp] theorem State.updSound_dict : (s.updSound i f).dict = s.dict := by rfl
@[simp] theorem State.updSound_out : (s.updSound i f).out = s.out := by rfl
@[simp] theorem State.updSound_mem : (s.updSound i f).mem = s.mem := by rfl
@[simp] theorem State.updSound_bad : (s.updSound i f).bad = s.bad := by rfl
@[simp] theorem State.updSound_frames : (s.updSound i f).frames = s.frames := by rfl
@[simp] theorem State.updSound_deferred : (s.updSound i f).deferred = s.deferred := by rfl
@[simp] theorem State.updSound_tokens : (s.updSound i f).tokens = s.tokens := by rfl
@[simp] theorem State.updSound_pages : (s.updSound i f).pages = s.pages := by rfl
@[simp] theorem State.updSound_shape : (s.updSound i f).shape = s.shape := by rfl
@[simp] theorem State.updSound_isles : (s.updSound i f).isles = s.isles := by rfl
@[simp] theorem State.updSound_engines : (s.updSound i f).engines = s.engines := by rfl
@[simp] theorem State.updSound_lambs : (s.updSound i f).lambs = s.lambs := by rfl
@[simp] theorem State.updSound_cores : (s.updSound i f).cores = s.cores := by rfl
@[simp] theorem State.updSound_bantam : (s.updSound i f).bantam = s.bantam := by rfl
@[simp] theorem State.updSound_adders : (s.updSound i f).adders = s.adders := by rfl
@[simp] theorem State.updSound_stacks : (s.updSound i f).hbm = s.hbm := by rfl
@[simp] theorem State.updSound_stores : (s.updSound i f).stores = s.stores := by rfl
@[simp] theorem State.updSound_caches : (s.updSound i f).caches = s.caches := by rfl
@[simp] theorem State.updSound_pcOwner : (s.updSound i f).pcOwner = s.pcOwner := by rfl
@[simp] theorem State.updSound_wayOwner : (s.updSound i f).wayOwner = s.wayOwner := by rfl
@[simp] theorem State.updSound_grants : (s.updSound i f).grants = s.grants := by rfl
@[simp] theorem State.updSound_windows : (s.updSound i f).windows = s.windows := by rfl
@[simp] theorem State.updSound_flying : (s.updSound i f).flying = s.flying := by rfl
@[simp] theorem State.updSound_ctxs : (s.updSound i f).ctxs = s.ctxs := by rfl
@[simp] theorem State.updSound_fns : (s.updSound i f).fns = s.fns := by rfl
@[simp] theorem State.updSound_cards : (s.updSound i f).cards = s.cards := by rfl
@[simp] theorem State.updSound_strait : (s.updSound i f).strait = s.strait := by rfl
@[simp] theorem State.updSound_uarts : (s.updSound i f).uarts = s.uarts := by rfl
@[simp] theorem State.updSound_holmMem : (s.updSound i f).holmMem = s.holmMem := by rfl
@[simp] theorem State.updSound_inject : (s.updSound i f).inject = s.inject := by rfl
@[simp] theorem State.updSound_repair : (s.updSound i f).repair = s.repair := by rfl
@[simp] theorem State.updSound_bg : (s.updSound i f).bg = s.bg := by rfl
@[simp] theorem State.updSound_power : (s.updSound i f).power = s.power := by rfl
@[simp] theorem State.updSound_boot : (s.updSound i f).boot = s.boot := by rfl
@[simp] theorem State.updSound_rack : (s.updSound i f).rack = s.rack := by rfl
end

/-! `State.updEngine` changes `engines` only. -/

section
variable (s : State) (k : Nat) (f : EngineSt → EngineSt)
@[simp] theorem State.engine_updEngine_same : (s.updEngine k f).engine k = f (s.engine k) := by simp [State.engine, State.updEngine]
theorem State.engine_updEngine_other (j : Nat) (h : j ≠ k) : (s.updEngine k f).engine j = s.engine j := by simp [State.engine, State.updEngine, h]
@[simp] theorem State.updEngine_pending : (s.updEngine k f).pending = s.pending := by rfl
@[simp] theorem State.updEngine_free : (s.updEngine k f).free = s.free := by rfl
@[simp] theorem State.updEngine_clock : (s.updEngine k f).clock = s.clock := by rfl
@[simp] theorem State.updEngine_recd : (s.updEngine k f).recd = s.recd := by rfl
@[simp] theorem State.updEngine_dict : (s.updEngine k f).dict = s.dict := by rfl
@[simp] theorem State.updEngine_out : (s.updEngine k f).out = s.out := by rfl
@[simp] theorem State.updEngine_mem : (s.updEngine k f).mem = s.mem := by rfl
@[simp] theorem State.updEngine_bad : (s.updEngine k f).bad = s.bad := by rfl
@[simp] theorem State.updEngine_frames : (s.updEngine k f).frames = s.frames := by rfl
@[simp] theorem State.updEngine_deferred : (s.updEngine k f).deferred = s.deferred := by rfl
@[simp] theorem State.updEngine_tokens : (s.updEngine k f).tokens = s.tokens := by rfl
@[simp] theorem State.updEngine_pages : (s.updEngine k f).pages = s.pages := by rfl
@[simp] theorem State.updEngine_shape : (s.updEngine k f).shape = s.shape := by rfl
@[simp] theorem State.updEngine_isles : (s.updEngine k f).isles = s.isles := by rfl
@[simp] theorem State.updEngine_sounds : (s.updEngine k f).sounds = s.sounds := by rfl
@[simp] theorem State.updEngine_lambs : (s.updEngine k f).lambs = s.lambs := by rfl
@[simp] theorem State.updEngine_cores : (s.updEngine k f).cores = s.cores := by rfl
@[simp] theorem State.updEngine_bantam : (s.updEngine k f).bantam = s.bantam := by rfl
@[simp] theorem State.updEngine_adders : (s.updEngine k f).adders = s.adders := by rfl
@[simp] theorem State.updEngine_stacks : (s.updEngine k f).hbm = s.hbm := by rfl
@[simp] theorem State.updEngine_stores : (s.updEngine k f).stores = s.stores := by rfl
@[simp] theorem State.updEngine_caches : (s.updEngine k f).caches = s.caches := by rfl
@[simp] theorem State.updEngine_pcOwner : (s.updEngine k f).pcOwner = s.pcOwner := by rfl
@[simp] theorem State.updEngine_wayOwner : (s.updEngine k f).wayOwner = s.wayOwner := by rfl
@[simp] theorem State.updEngine_grants : (s.updEngine k f).grants = s.grants := by rfl
@[simp] theorem State.updEngine_windows : (s.updEngine k f).windows = s.windows := by rfl
@[simp] theorem State.updEngine_flying : (s.updEngine k f).flying = s.flying := by rfl
@[simp] theorem State.updEngine_ctxs : (s.updEngine k f).ctxs = s.ctxs := by rfl
@[simp] theorem State.updEngine_fns : (s.updEngine k f).fns = s.fns := by rfl
@[simp] theorem State.updEngine_cards : (s.updEngine k f).cards = s.cards := by rfl
@[simp] theorem State.updEngine_strait : (s.updEngine k f).strait = s.strait := by rfl
@[simp] theorem State.updEngine_uarts : (s.updEngine k f).uarts = s.uarts := by rfl
@[simp] theorem State.updEngine_holmMem : (s.updEngine k f).holmMem = s.holmMem := by rfl
@[simp] theorem State.updEngine_inject : (s.updEngine k f).inject = s.inject := by rfl
@[simp] theorem State.updEngine_repair : (s.updEngine k f).repair = s.repair := by rfl
@[simp] theorem State.updEngine_bg : (s.updEngine k f).bg = s.bg := by rfl
@[simp] theorem State.updEngine_power : (s.updEngine k f).power = s.power := by rfl
@[simp] theorem State.updEngine_boot : (s.updEngine k f).boot = s.boot := by rfl
@[simp] theorem State.updEngine_rack : (s.updEngine k f).rack = s.rack := by rfl
end

/-! `State.updLamb` changes `lambs` only. -/

section
variable (s : State) (i : Nat) (f : LambSt → LambSt)
@[simp] theorem State.lamb_updLamb_same : (s.updLamb i f).lamb i = f (s.lamb i) := by simp [State.lamb, State.updLamb]
theorem State.lamb_updLamb_other (j : Nat) (h : j ≠ i) : (s.updLamb i f).lamb j = s.lamb j := by simp [State.lamb, State.updLamb, h]
@[simp] theorem State.updLamb_pending : (s.updLamb i f).pending = s.pending := by rfl
@[simp] theorem State.updLamb_free : (s.updLamb i f).free = s.free := by rfl
@[simp] theorem State.updLamb_clock : (s.updLamb i f).clock = s.clock := by rfl
@[simp] theorem State.updLamb_recd : (s.updLamb i f).recd = s.recd := by rfl
@[simp] theorem State.updLamb_dict : (s.updLamb i f).dict = s.dict := by rfl
@[simp] theorem State.updLamb_out : (s.updLamb i f).out = s.out := by rfl
@[simp] theorem State.updLamb_mem : (s.updLamb i f).mem = s.mem := by rfl
@[simp] theorem State.updLamb_bad : (s.updLamb i f).bad = s.bad := by rfl
@[simp] theorem State.updLamb_frames : (s.updLamb i f).frames = s.frames := by rfl
@[simp] theorem State.updLamb_deferred : (s.updLamb i f).deferred = s.deferred := by rfl
@[simp] theorem State.updLamb_tokens : (s.updLamb i f).tokens = s.tokens := by rfl
@[simp] theorem State.updLamb_pages : (s.updLamb i f).pages = s.pages := by rfl
@[simp] theorem State.updLamb_shape : (s.updLamb i f).shape = s.shape := by rfl
@[simp] theorem State.updLamb_isles : (s.updLamb i f).isles = s.isles := by rfl
@[simp] theorem State.updLamb_sounds : (s.updLamb i f).sounds = s.sounds := by rfl
@[simp] theorem State.updLamb_engines : (s.updLamb i f).engines = s.engines := by rfl
@[simp] theorem State.updLamb_cores : (s.updLamb i f).cores = s.cores := by rfl
@[simp] theorem State.updLamb_bantam : (s.updLamb i f).bantam = s.bantam := by rfl
@[simp] theorem State.updLamb_adders : (s.updLamb i f).adders = s.adders := by rfl
@[simp] theorem State.updLamb_stacks : (s.updLamb i f).hbm = s.hbm := by rfl
@[simp] theorem State.updLamb_stores : (s.updLamb i f).stores = s.stores := by rfl
@[simp] theorem State.updLamb_caches : (s.updLamb i f).caches = s.caches := by rfl
@[simp] theorem State.updLamb_pcOwner : (s.updLamb i f).pcOwner = s.pcOwner := by rfl
@[simp] theorem State.updLamb_wayOwner : (s.updLamb i f).wayOwner = s.wayOwner := by rfl
@[simp] theorem State.updLamb_grants : (s.updLamb i f).grants = s.grants := by rfl
@[simp] theorem State.updLamb_windows : (s.updLamb i f).windows = s.windows := by rfl
@[simp] theorem State.updLamb_flying : (s.updLamb i f).flying = s.flying := by rfl
@[simp] theorem State.updLamb_ctxs : (s.updLamb i f).ctxs = s.ctxs := by rfl
@[simp] theorem State.updLamb_fns : (s.updLamb i f).fns = s.fns := by rfl
@[simp] theorem State.updLamb_cards : (s.updLamb i f).cards = s.cards := by rfl
@[simp] theorem State.updLamb_strait : (s.updLamb i f).strait = s.strait := by rfl
@[simp] theorem State.updLamb_uarts : (s.updLamb i f).uarts = s.uarts := by rfl
@[simp] theorem State.updLamb_holmMem : (s.updLamb i f).holmMem = s.holmMem := by rfl
@[simp] theorem State.updLamb_inject : (s.updLamb i f).inject = s.inject := by rfl
@[simp] theorem State.updLamb_repair : (s.updLamb i f).repair = s.repair := by rfl
@[simp] theorem State.updLamb_bg : (s.updLamb i f).bg = s.bg := by rfl
@[simp] theorem State.updLamb_power : (s.updLamb i f).power = s.power := by rfl
@[simp] theorem State.updLamb_boot : (s.updLamb i f).boot = s.boot := by rfl
@[simp] theorem State.updLamb_rack : (s.updLamb i f).rack = s.rack := by rfl
end

/-! `State.updCore` changes `cores` only. -/

section
variable (s : State) (k : Nat) (f : CoreSt → CoreSt)
@[simp] theorem State.core_updCore_same : (s.updCore k f).core k = f (s.core k) := by simp [State.core, State.updCore]
theorem State.core_updCore_other (j : Nat) (h : j ≠ k) : (s.updCore k f).core j = s.core j := by simp [State.core, State.updCore, h]
@[simp] theorem State.updCore_pending : (s.updCore k f).pending = s.pending := by rfl
@[simp] theorem State.updCore_free : (s.updCore k f).free = s.free := by rfl
@[simp] theorem State.updCore_clock : (s.updCore k f).clock = s.clock := by rfl
@[simp] theorem State.updCore_recd : (s.updCore k f).recd = s.recd := by rfl
@[simp] theorem State.updCore_dict : (s.updCore k f).dict = s.dict := by rfl
@[simp] theorem State.updCore_out : (s.updCore k f).out = s.out := by rfl
@[simp] theorem State.updCore_mem : (s.updCore k f).mem = s.mem := by rfl
@[simp] theorem State.updCore_bad : (s.updCore k f).bad = s.bad := by rfl
@[simp] theorem State.updCore_frames : (s.updCore k f).frames = s.frames := by rfl
@[simp] theorem State.updCore_deferred : (s.updCore k f).deferred = s.deferred := by rfl
@[simp] theorem State.updCore_tokens : (s.updCore k f).tokens = s.tokens := by rfl
@[simp] theorem State.updCore_pages : (s.updCore k f).pages = s.pages := by rfl
@[simp] theorem State.updCore_shape : (s.updCore k f).shape = s.shape := by rfl
@[simp] theorem State.updCore_isles : (s.updCore k f).isles = s.isles := by rfl
@[simp] theorem State.updCore_sounds : (s.updCore k f).sounds = s.sounds := by rfl
@[simp] theorem State.updCore_engines : (s.updCore k f).engines = s.engines := by rfl
@[simp] theorem State.updCore_lambs : (s.updCore k f).lambs = s.lambs := by rfl
@[simp] theorem State.updCore_bantam : (s.updCore k f).bantam = s.bantam := by rfl
@[simp] theorem State.updCore_adders : (s.updCore k f).adders = s.adders := by rfl
@[simp] theorem State.updCore_stacks : (s.updCore k f).hbm = s.hbm := by rfl
@[simp] theorem State.updCore_stores : (s.updCore k f).stores = s.stores := by rfl
@[simp] theorem State.updCore_caches : (s.updCore k f).caches = s.caches := by rfl
@[simp] theorem State.updCore_pcOwner : (s.updCore k f).pcOwner = s.pcOwner := by rfl
@[simp] theorem State.updCore_wayOwner : (s.updCore k f).wayOwner = s.wayOwner := by rfl
@[simp] theorem State.updCore_grants : (s.updCore k f).grants = s.grants := by rfl
@[simp] theorem State.updCore_windows : (s.updCore k f).windows = s.windows := by rfl
@[simp] theorem State.updCore_flying : (s.updCore k f).flying = s.flying := by rfl
@[simp] theorem State.updCore_ctxs : (s.updCore k f).ctxs = s.ctxs := by rfl
@[simp] theorem State.updCore_fns : (s.updCore k f).fns = s.fns := by rfl
@[simp] theorem State.updCore_cards : (s.updCore k f).cards = s.cards := by rfl
@[simp] theorem State.updCore_strait : (s.updCore k f).strait = s.strait := by rfl
@[simp] theorem State.updCore_uarts : (s.updCore k f).uarts = s.uarts := by rfl
@[simp] theorem State.updCore_holmMem : (s.updCore k f).holmMem = s.holmMem := by rfl
@[simp] theorem State.updCore_inject : (s.updCore k f).inject = s.inject := by rfl
@[simp] theorem State.updCore_repair : (s.updCore k f).repair = s.repair := by rfl
@[simp] theorem State.updCore_bg : (s.updCore k f).bg = s.bg := by rfl
@[simp] theorem State.updCore_power : (s.updCore k f).power = s.power := by rfl
@[simp] theorem State.updCore_boot : (s.updCore k f).boot = s.boot := by rfl
@[simp] theorem State.updCore_rack : (s.updCore k f).rack = s.rack := by rfl
end

/-! `State.updBant` changes `bantam` only. -/

section
variable (s : State) (i : Nat) (f : BantamCounts → BantamCounts)
@[simp] theorem State.bant_updBant_same : (s.updBant i f).bant i = f (s.bant i) := by simp [State.bant, State.updBant]
theorem State.bant_updBant_other (j : Nat) (h : j ≠ i) : (s.updBant i f).bant j = s.bant j := by simp [State.bant, State.updBant, h]
@[simp] theorem State.updBant_pending : (s.updBant i f).pending = s.pending := by rfl
@[simp] theorem State.updBant_free : (s.updBant i f).free = s.free := by rfl
@[simp] theorem State.updBant_clock : (s.updBant i f).clock = s.clock := by rfl
@[simp] theorem State.updBant_recd : (s.updBant i f).recd = s.recd := by rfl
@[simp] theorem State.updBant_dict : (s.updBant i f).dict = s.dict := by rfl
@[simp] theorem State.updBant_out : (s.updBant i f).out = s.out := by rfl
@[simp] theorem State.updBant_mem : (s.updBant i f).mem = s.mem := by rfl
@[simp] theorem State.updBant_bad : (s.updBant i f).bad = s.bad := by rfl
@[simp] theorem State.updBant_frames : (s.updBant i f).frames = s.frames := by rfl
@[simp] theorem State.updBant_deferred : (s.updBant i f).deferred = s.deferred := by rfl
@[simp] theorem State.updBant_tokens : (s.updBant i f).tokens = s.tokens := by rfl
@[simp] theorem State.updBant_pages : (s.updBant i f).pages = s.pages := by rfl
@[simp] theorem State.updBant_shape : (s.updBant i f).shape = s.shape := by rfl
@[simp] theorem State.updBant_isles : (s.updBant i f).isles = s.isles := by rfl
@[simp] theorem State.updBant_sounds : (s.updBant i f).sounds = s.sounds := by rfl
@[simp] theorem State.updBant_engines : (s.updBant i f).engines = s.engines := by rfl
@[simp] theorem State.updBant_lambs : (s.updBant i f).lambs = s.lambs := by rfl
@[simp] theorem State.updBant_cores : (s.updBant i f).cores = s.cores := by rfl
@[simp] theorem State.updBant_adders : (s.updBant i f).adders = s.adders := by rfl
@[simp] theorem State.updBant_stacks : (s.updBant i f).hbm = s.hbm := by rfl
@[simp] theorem State.updBant_stores : (s.updBant i f).stores = s.stores := by rfl
@[simp] theorem State.updBant_caches : (s.updBant i f).caches = s.caches := by rfl
@[simp] theorem State.updBant_pcOwner : (s.updBant i f).pcOwner = s.pcOwner := by rfl
@[simp] theorem State.updBant_wayOwner : (s.updBant i f).wayOwner = s.wayOwner := by rfl
@[simp] theorem State.updBant_grants : (s.updBant i f).grants = s.grants := by rfl
@[simp] theorem State.updBant_windows : (s.updBant i f).windows = s.windows := by rfl
@[simp] theorem State.updBant_flying : (s.updBant i f).flying = s.flying := by rfl
@[simp] theorem State.updBant_ctxs : (s.updBant i f).ctxs = s.ctxs := by rfl
@[simp] theorem State.updBant_fns : (s.updBant i f).fns = s.fns := by rfl
@[simp] theorem State.updBant_cards : (s.updBant i f).cards = s.cards := by rfl
@[simp] theorem State.updBant_strait : (s.updBant i f).strait = s.strait := by rfl
@[simp] theorem State.updBant_uarts : (s.updBant i f).uarts = s.uarts := by rfl
@[simp] theorem State.updBant_holmMem : (s.updBant i f).holmMem = s.holmMem := by rfl
@[simp] theorem State.updBant_inject : (s.updBant i f).inject = s.inject := by rfl
@[simp] theorem State.updBant_repair : (s.updBant i f).repair = s.repair := by rfl
@[simp] theorem State.updBant_bg : (s.updBant i f).bg = s.bg := by rfl
@[simp] theorem State.updBant_power : (s.updBant i f).power = s.power := by rfl
@[simp] theorem State.updBant_boot : (s.updBant i f).boot = s.boot := by rfl
@[simp] theorem State.updBant_rack : (s.updBant i f).rack = s.rack := by rfl
end

/-! `State.updStack` changes `hbm` only. -/

section
variable (s : State) (k : Nat) (f : StackSt → StackSt)
@[simp] theorem State.stack_updStack_same : (s.updStack k f).stack k = f (s.stack k) := by simp [State.stack, State.updStack]
theorem State.stack_updStack_other (j : Nat) (h : j ≠ k) : (s.updStack k f).stack j = s.stack j := by simp [State.stack, State.updStack, h]
@[simp] theorem State.updStack_pending : (s.updStack k f).pending = s.pending := by rfl
@[simp] theorem State.updStack_free : (s.updStack k f).free = s.free := by rfl
@[simp] theorem State.updStack_clock : (s.updStack k f).clock = s.clock := by rfl
@[simp] theorem State.updStack_recd : (s.updStack k f).recd = s.recd := by rfl
@[simp] theorem State.updStack_dict : (s.updStack k f).dict = s.dict := by rfl
@[simp] theorem State.updStack_out : (s.updStack k f).out = s.out := by rfl
@[simp] theorem State.updStack_mem : (s.updStack k f).mem = s.mem := by rfl
@[simp] theorem State.updStack_bad : (s.updStack k f).bad = s.bad := by rfl
@[simp] theorem State.updStack_frames : (s.updStack k f).frames = s.frames := by rfl
@[simp] theorem State.updStack_deferred : (s.updStack k f).deferred = s.deferred := by rfl
@[simp] theorem State.updStack_tokens : (s.updStack k f).tokens = s.tokens := by rfl
@[simp] theorem State.updStack_pages : (s.updStack k f).pages = s.pages := by rfl
@[simp] theorem State.updStack_shape : (s.updStack k f).shape = s.shape := by rfl
@[simp] theorem State.updStack_isles : (s.updStack k f).isles = s.isles := by rfl
@[simp] theorem State.updStack_sounds : (s.updStack k f).sounds = s.sounds := by rfl
@[simp] theorem State.updStack_engines : (s.updStack k f).engines = s.engines := by rfl
@[simp] theorem State.updStack_lambs : (s.updStack k f).lambs = s.lambs := by rfl
@[simp] theorem State.updStack_cores : (s.updStack k f).cores = s.cores := by rfl
@[simp] theorem State.updStack_bantam : (s.updStack k f).bantam = s.bantam := by rfl
@[simp] theorem State.updStack_adders : (s.updStack k f).adders = s.adders := by rfl
@[simp] theorem State.updStack_stores : (s.updStack k f).stores = s.stores := by rfl
@[simp] theorem State.updStack_caches : (s.updStack k f).caches = s.caches := by rfl
@[simp] theorem State.updStack_pcOwner : (s.updStack k f).pcOwner = s.pcOwner := by rfl
@[simp] theorem State.updStack_wayOwner : (s.updStack k f).wayOwner = s.wayOwner := by rfl
@[simp] theorem State.updStack_grants : (s.updStack k f).grants = s.grants := by rfl
@[simp] theorem State.updStack_windows : (s.updStack k f).windows = s.windows := by rfl
@[simp] theorem State.updStack_flying : (s.updStack k f).flying = s.flying := by rfl
@[simp] theorem State.updStack_ctxs : (s.updStack k f).ctxs = s.ctxs := by rfl
@[simp] theorem State.updStack_fns : (s.updStack k f).fns = s.fns := by rfl
@[simp] theorem State.updStack_cards : (s.updStack k f).cards = s.cards := by rfl
@[simp] theorem State.updStack_strait : (s.updStack k f).strait = s.strait := by rfl
@[simp] theorem State.updStack_uarts : (s.updStack k f).uarts = s.uarts := by rfl
@[simp] theorem State.updStack_holmMem : (s.updStack k f).holmMem = s.holmMem := by rfl
@[simp] theorem State.updStack_inject : (s.updStack k f).inject = s.inject := by rfl
@[simp] theorem State.updStack_repair : (s.updStack k f).repair = s.repair := by rfl
@[simp] theorem State.updStack_bg : (s.updStack k f).bg = s.bg := by rfl
@[simp] theorem State.updStack_power : (s.updStack k f).power = s.power := by rfl
@[simp] theorem State.updStack_boot : (s.updStack k f).boot = s.boot := by rfl
@[simp] theorem State.updStack_rack : (s.updStack k f).rack = s.rack := by rfl
end

/-! `State.updIsleStore` changes `stores` only. -/

section
variable (s : State) (i : Nat) (f : IsleStoreSt → IsleStoreSt)
@[simp] theorem State.isleStore_updIsleStore_same : (s.updIsleStore i f).isleStore i = f (s.isleStore i) := by simp [State.isleStore, State.updIsleStore]
theorem State.isleStore_updIsleStore_other (j : Nat) (h : j ≠ i) : (s.updIsleStore i f).isleStore j = s.isleStore j := by simp [State.isleStore, State.updIsleStore, h]
@[simp] theorem State.updIsleStore_pending : (s.updIsleStore i f).pending = s.pending := by rfl
@[simp] theorem State.updIsleStore_free : (s.updIsleStore i f).free = s.free := by rfl
@[simp] theorem State.updIsleStore_clock : (s.updIsleStore i f).clock = s.clock := by rfl
@[simp] theorem State.updIsleStore_recd : (s.updIsleStore i f).recd = s.recd := by rfl
@[simp] theorem State.updIsleStore_dict : (s.updIsleStore i f).dict = s.dict := by rfl
@[simp] theorem State.updIsleStore_out : (s.updIsleStore i f).out = s.out := by rfl
@[simp] theorem State.updIsleStore_mem : (s.updIsleStore i f).mem = s.mem := by rfl
@[simp] theorem State.updIsleStore_bad : (s.updIsleStore i f).bad = s.bad := by rfl
@[simp] theorem State.updIsleStore_frames : (s.updIsleStore i f).frames = s.frames := by rfl
@[simp] theorem State.updIsleStore_deferred : (s.updIsleStore i f).deferred = s.deferred := by rfl
@[simp] theorem State.updIsleStore_tokens : (s.updIsleStore i f).tokens = s.tokens := by rfl
@[simp] theorem State.updIsleStore_pages : (s.updIsleStore i f).pages = s.pages := by rfl
@[simp] theorem State.updIsleStore_shape : (s.updIsleStore i f).shape = s.shape := by rfl
@[simp] theorem State.updIsleStore_isles : (s.updIsleStore i f).isles = s.isles := by rfl
@[simp] theorem State.updIsleStore_sounds : (s.updIsleStore i f).sounds = s.sounds := by rfl
@[simp] theorem State.updIsleStore_engines : (s.updIsleStore i f).engines = s.engines := by rfl
@[simp] theorem State.updIsleStore_lambs : (s.updIsleStore i f).lambs = s.lambs := by rfl
@[simp] theorem State.updIsleStore_cores : (s.updIsleStore i f).cores = s.cores := by rfl
@[simp] theorem State.updIsleStore_bantam : (s.updIsleStore i f).bantam = s.bantam := by rfl
@[simp] theorem State.updIsleStore_adders : (s.updIsleStore i f).adders = s.adders := by rfl
@[simp] theorem State.updIsleStore_stacks : (s.updIsleStore i f).hbm = s.hbm := by rfl
@[simp] theorem State.updIsleStore_caches : (s.updIsleStore i f).caches = s.caches := by rfl
@[simp] theorem State.updIsleStore_pcOwner : (s.updIsleStore i f).pcOwner = s.pcOwner := by rfl
@[simp] theorem State.updIsleStore_wayOwner : (s.updIsleStore i f).wayOwner = s.wayOwner := by rfl
@[simp] theorem State.updIsleStore_grants : (s.updIsleStore i f).grants = s.grants := by rfl
@[simp] theorem State.updIsleStore_windows : (s.updIsleStore i f).windows = s.windows := by rfl
@[simp] theorem State.updIsleStore_flying : (s.updIsleStore i f).flying = s.flying := by rfl
@[simp] theorem State.updIsleStore_ctxs : (s.updIsleStore i f).ctxs = s.ctxs := by rfl
@[simp] theorem State.updIsleStore_fns : (s.updIsleStore i f).fns = s.fns := by rfl
@[simp] theorem State.updIsleStore_cards : (s.updIsleStore i f).cards = s.cards := by rfl
@[simp] theorem State.updIsleStore_strait : (s.updIsleStore i f).strait = s.strait := by rfl
@[simp] theorem State.updIsleStore_uarts : (s.updIsleStore i f).uarts = s.uarts := by rfl
@[simp] theorem State.updIsleStore_holmMem : (s.updIsleStore i f).holmMem = s.holmMem := by rfl
@[simp] theorem State.updIsleStore_inject : (s.updIsleStore i f).inject = s.inject := by rfl
@[simp] theorem State.updIsleStore_repair : (s.updIsleStore i f).repair = s.repair := by rfl
@[simp] theorem State.updIsleStore_bg : (s.updIsleStore i f).bg = s.bg := by rfl
@[simp] theorem State.updIsleStore_power : (s.updIsleStore i f).power = s.power := by rfl
@[simp] theorem State.updIsleStore_boot : (s.updIsleStore i f).boot = s.boot := by rfl
@[simp] theorem State.updIsleStore_rack : (s.updIsleStore i f).rack = s.rack := by rfl
end

/-! `State.updAdder` changes `adders` only. -/

section
variable (s : State) (k : Nat) (f : AdderSt → AdderSt)
@[simp] theorem State.adder_updAdder_same : (s.updAdder k f).adder k = f (s.adder k) := by simp [State.adder, State.updAdder]
theorem State.adder_updAdder_other (j : Nat) (h : j ≠ k) : (s.updAdder k f).adder j = s.adder j := by simp [State.adder, State.updAdder, h]
@[simp] theorem State.updAdder_pending : (s.updAdder k f).pending = s.pending := by rfl
@[simp] theorem State.updAdder_free : (s.updAdder k f).free = s.free := by rfl
@[simp] theorem State.updAdder_clock : (s.updAdder k f).clock = s.clock := by rfl
@[simp] theorem State.updAdder_recd : (s.updAdder k f).recd = s.recd := by rfl
@[simp] theorem State.updAdder_dict : (s.updAdder k f).dict = s.dict := by rfl
@[simp] theorem State.updAdder_out : (s.updAdder k f).out = s.out := by rfl
@[simp] theorem State.updAdder_mem : (s.updAdder k f).mem = s.mem := by rfl
@[simp] theorem State.updAdder_bad : (s.updAdder k f).bad = s.bad := by rfl
@[simp] theorem State.updAdder_frames : (s.updAdder k f).frames = s.frames := by rfl
@[simp] theorem State.updAdder_deferred : (s.updAdder k f).deferred = s.deferred := by rfl
@[simp] theorem State.updAdder_tokens : (s.updAdder k f).tokens = s.tokens := by rfl
@[simp] theorem State.updAdder_pages : (s.updAdder k f).pages = s.pages := by rfl
@[simp] theorem State.updAdder_shape : (s.updAdder k f).shape = s.shape := by rfl
@[simp] theorem State.updAdder_isles : (s.updAdder k f).isles = s.isles := by rfl
@[simp] theorem State.updAdder_sounds : (s.updAdder k f).sounds = s.sounds := by rfl
@[simp] theorem State.updAdder_engines : (s.updAdder k f).engines = s.engines := by rfl
@[simp] theorem State.updAdder_lambs : (s.updAdder k f).lambs = s.lambs := by rfl
@[simp] theorem State.updAdder_cores : (s.updAdder k f).cores = s.cores := by rfl
@[simp] theorem State.updAdder_bantam : (s.updAdder k f).bantam = s.bantam := by rfl
@[simp] theorem State.updAdder_stacks : (s.updAdder k f).hbm = s.hbm := by rfl
@[simp] theorem State.updAdder_stores : (s.updAdder k f).stores = s.stores := by rfl
@[simp] theorem State.updAdder_caches : (s.updAdder k f).caches = s.caches := by rfl
@[simp] theorem State.updAdder_pcOwner : (s.updAdder k f).pcOwner = s.pcOwner := by rfl
@[simp] theorem State.updAdder_wayOwner : (s.updAdder k f).wayOwner = s.wayOwner := by rfl
@[simp] theorem State.updAdder_grants : (s.updAdder k f).grants = s.grants := by rfl
@[simp] theorem State.updAdder_windows : (s.updAdder k f).windows = s.windows := by rfl
@[simp] theorem State.updAdder_flying : (s.updAdder k f).flying = s.flying := by rfl
@[simp] theorem State.updAdder_ctxs : (s.updAdder k f).ctxs = s.ctxs := by rfl
@[simp] theorem State.updAdder_fns : (s.updAdder k f).fns = s.fns := by rfl
@[simp] theorem State.updAdder_cards : (s.updAdder k f).cards = s.cards := by rfl
@[simp] theorem State.updAdder_strait : (s.updAdder k f).strait = s.strait := by rfl
@[simp] theorem State.updAdder_uarts : (s.updAdder k f).uarts = s.uarts := by rfl
@[simp] theorem State.updAdder_holmMem : (s.updAdder k f).holmMem = s.holmMem := by rfl
@[simp] theorem State.updAdder_inject : (s.updAdder k f).inject = s.inject := by rfl
@[simp] theorem State.updAdder_repair : (s.updAdder k f).repair = s.repair := by rfl
@[simp] theorem State.updAdder_bg : (s.updAdder k f).bg = s.bg := by rfl
@[simp] theorem State.updAdder_power : (s.updAdder k f).power = s.power := by rfl
@[simp] theorem State.updAdder_boot : (s.updAdder k f).boot = s.boot := by rfl
@[simp] theorem State.updAdder_rack : (s.updAdder k f).rack = s.rack := by rfl
end

/-! `State.updCtx` changes `ctxs` only. -/

section
variable (s : State) (c : Nat) (f : CtxSt → CtxSt)
@[simp] theorem State.ctx_updCtx_same : (s.updCtx c f).ctx c = f (s.ctx c) := by simp [State.ctx, State.updCtx]
theorem State.ctx_updCtx_other (j : Nat) (h : j ≠ c) : (s.updCtx c f).ctx j = s.ctx j := by simp [State.ctx, State.updCtx, h]
@[simp] theorem State.updCtx_pending : (s.updCtx c f).pending = s.pending := by rfl
@[simp] theorem State.updCtx_free : (s.updCtx c f).free = s.free := by rfl
@[simp] theorem State.updCtx_clock : (s.updCtx c f).clock = s.clock := by rfl
@[simp] theorem State.updCtx_recd : (s.updCtx c f).recd = s.recd := by rfl
@[simp] theorem State.updCtx_dict : (s.updCtx c f).dict = s.dict := by rfl
@[simp] theorem State.updCtx_out : (s.updCtx c f).out = s.out := by rfl
@[simp] theorem State.updCtx_mem : (s.updCtx c f).mem = s.mem := by rfl
@[simp] theorem State.updCtx_bad : (s.updCtx c f).bad = s.bad := by rfl
@[simp] theorem State.updCtx_frames : (s.updCtx c f).frames = s.frames := by rfl
@[simp] theorem State.updCtx_deferred : (s.updCtx c f).deferred = s.deferred := by rfl
@[simp] theorem State.updCtx_tokens : (s.updCtx c f).tokens = s.tokens := by rfl
@[simp] theorem State.updCtx_pages : (s.updCtx c f).pages = s.pages := by rfl
@[simp] theorem State.updCtx_shape : (s.updCtx c f).shape = s.shape := by rfl
@[simp] theorem State.updCtx_isles : (s.updCtx c f).isles = s.isles := by rfl
@[simp] theorem State.updCtx_sounds : (s.updCtx c f).sounds = s.sounds := by rfl
@[simp] theorem State.updCtx_engines : (s.updCtx c f).engines = s.engines := by rfl
@[simp] theorem State.updCtx_lambs : (s.updCtx c f).lambs = s.lambs := by rfl
@[simp] theorem State.updCtx_cores : (s.updCtx c f).cores = s.cores := by rfl
@[simp] theorem State.updCtx_bantam : (s.updCtx c f).bantam = s.bantam := by rfl
@[simp] theorem State.updCtx_adders : (s.updCtx c f).adders = s.adders := by rfl
@[simp] theorem State.updCtx_stacks : (s.updCtx c f).hbm = s.hbm := by rfl
@[simp] theorem State.updCtx_stores : (s.updCtx c f).stores = s.stores := by rfl
@[simp] theorem State.updCtx_caches : (s.updCtx c f).caches = s.caches := by rfl
@[simp] theorem State.updCtx_pcOwner : (s.updCtx c f).pcOwner = s.pcOwner := by rfl
@[simp] theorem State.updCtx_wayOwner : (s.updCtx c f).wayOwner = s.wayOwner := by rfl
@[simp] theorem State.updCtx_grants : (s.updCtx c f).grants = s.grants := by rfl
@[simp] theorem State.updCtx_windows : (s.updCtx c f).windows = s.windows := by rfl
@[simp] theorem State.updCtx_flying : (s.updCtx c f).flying = s.flying := by rfl
@[simp] theorem State.updCtx_fns : (s.updCtx c f).fns = s.fns := by rfl
@[simp] theorem State.updCtx_cards : (s.updCtx c f).cards = s.cards := by rfl
@[simp] theorem State.updCtx_strait : (s.updCtx c f).strait = s.strait := by rfl
@[simp] theorem State.updCtx_uarts : (s.updCtx c f).uarts = s.uarts := by rfl
@[simp] theorem State.updCtx_holmMem : (s.updCtx c f).holmMem = s.holmMem := by rfl
@[simp] theorem State.updCtx_inject : (s.updCtx c f).inject = s.inject := by rfl
@[simp] theorem State.updCtx_repair : (s.updCtx c f).repair = s.repair := by rfl
@[simp] theorem State.updCtx_bg : (s.updCtx c f).bg = s.bg := by rfl
@[simp] theorem State.updCtx_power : (s.updCtx c f).power = s.power := by rfl
@[simp] theorem State.updCtx_boot : (s.updCtx c f).boot = s.boot := by rfl
@[simp] theorem State.updCtx_rack : (s.updCtx c f).rack = s.rack := by rfl
end

/-! `State.updFn` changes `fns` only. -/

section
variable (s : State) (k : Nat) (f : FnSt → FnSt)
@[simp] theorem State.fn_updFn_same : (s.updFn k f).fn k = f (s.fn k) := by simp [State.fn, State.updFn]
theorem State.fn_updFn_other (j : Nat) (h : j ≠ k) : (s.updFn k f).fn j = s.fn j := by simp [State.fn, State.updFn, h]
@[simp] theorem State.updFn_pending : (s.updFn k f).pending = s.pending := by rfl
@[simp] theorem State.updFn_free : (s.updFn k f).free = s.free := by rfl
@[simp] theorem State.updFn_clock : (s.updFn k f).clock = s.clock := by rfl
@[simp] theorem State.updFn_recd : (s.updFn k f).recd = s.recd := by rfl
@[simp] theorem State.updFn_dict : (s.updFn k f).dict = s.dict := by rfl
@[simp] theorem State.updFn_out : (s.updFn k f).out = s.out := by rfl
@[simp] theorem State.updFn_mem : (s.updFn k f).mem = s.mem := by rfl
@[simp] theorem State.updFn_bad : (s.updFn k f).bad = s.bad := by rfl
@[simp] theorem State.updFn_frames : (s.updFn k f).frames = s.frames := by rfl
@[simp] theorem State.updFn_deferred : (s.updFn k f).deferred = s.deferred := by rfl
@[simp] theorem State.updFn_tokens : (s.updFn k f).tokens = s.tokens := by rfl
@[simp] theorem State.updFn_pages : (s.updFn k f).pages = s.pages := by rfl
@[simp] theorem State.updFn_shape : (s.updFn k f).shape = s.shape := by rfl
@[simp] theorem State.updFn_isles : (s.updFn k f).isles = s.isles := by rfl
@[simp] theorem State.updFn_sounds : (s.updFn k f).sounds = s.sounds := by rfl
@[simp] theorem State.updFn_engines : (s.updFn k f).engines = s.engines := by rfl
@[simp] theorem State.updFn_lambs : (s.updFn k f).lambs = s.lambs := by rfl
@[simp] theorem State.updFn_cores : (s.updFn k f).cores = s.cores := by rfl
@[simp] theorem State.updFn_bantam : (s.updFn k f).bantam = s.bantam := by rfl
@[simp] theorem State.updFn_adders : (s.updFn k f).adders = s.adders := by rfl
@[simp] theorem State.updFn_stacks : (s.updFn k f).hbm = s.hbm := by rfl
@[simp] theorem State.updFn_stores : (s.updFn k f).stores = s.stores := by rfl
@[simp] theorem State.updFn_caches : (s.updFn k f).caches = s.caches := by rfl
@[simp] theorem State.updFn_pcOwner : (s.updFn k f).pcOwner = s.pcOwner := by rfl
@[simp] theorem State.updFn_wayOwner : (s.updFn k f).wayOwner = s.wayOwner := by rfl
@[simp] theorem State.updFn_grants : (s.updFn k f).grants = s.grants := by rfl
@[simp] theorem State.updFn_windows : (s.updFn k f).windows = s.windows := by rfl
@[simp] theorem State.updFn_flying : (s.updFn k f).flying = s.flying := by rfl
@[simp] theorem State.updFn_ctxs : (s.updFn k f).ctxs = s.ctxs := by rfl
@[simp] theorem State.updFn_cards : (s.updFn k f).cards = s.cards := by rfl
@[simp] theorem State.updFn_strait : (s.updFn k f).strait = s.strait := by rfl
@[simp] theorem State.updFn_uarts : (s.updFn k f).uarts = s.uarts := by rfl
@[simp] theorem State.updFn_holmMem : (s.updFn k f).holmMem = s.holmMem := by rfl
@[simp] theorem State.updFn_inject : (s.updFn k f).inject = s.inject := by rfl
@[simp] theorem State.updFn_repair : (s.updFn k f).repair = s.repair := by rfl
@[simp] theorem State.updFn_bg : (s.updFn k f).bg = s.bg := by rfl
@[simp] theorem State.updFn_power : (s.updFn k f).power = s.power := by rfl
@[simp] theorem State.updFn_boot : (s.updFn k f).boot = s.boot := by rfl
@[simp] theorem State.updFn_rack : (s.updFn k f).rack = s.rack := by rfl
end

/-! `State.updCard` changes `cards` only. -/

section
variable (s : State) (b : Nat) (f : CardSt → CardSt)
@[simp] theorem State.card_updCard_same : (s.updCard b f).card b = f (s.card b) := by simp [State.card, State.updCard]
theorem State.card_updCard_other (j : Nat) (h : j ≠ b) : (s.updCard b f).card j = s.card j := by simp [State.card, State.updCard, h]
@[simp] theorem State.updCard_pending : (s.updCard b f).pending = s.pending := by rfl
@[simp] theorem State.updCard_free : (s.updCard b f).free = s.free := by rfl
@[simp] theorem State.updCard_clock : (s.updCard b f).clock = s.clock := by rfl
@[simp] theorem State.updCard_recd : (s.updCard b f).recd = s.recd := by rfl
@[simp] theorem State.updCard_dict : (s.updCard b f).dict = s.dict := by rfl
@[simp] theorem State.updCard_out : (s.updCard b f).out = s.out := by rfl
@[simp] theorem State.updCard_mem : (s.updCard b f).mem = s.mem := by rfl
@[simp] theorem State.updCard_bad : (s.updCard b f).bad = s.bad := by rfl
@[simp] theorem State.updCard_frames : (s.updCard b f).frames = s.frames := by rfl
@[simp] theorem State.updCard_deferred : (s.updCard b f).deferred = s.deferred := by rfl
@[simp] theorem State.updCard_tokens : (s.updCard b f).tokens = s.tokens := by rfl
@[simp] theorem State.updCard_pages : (s.updCard b f).pages = s.pages := by rfl
@[simp] theorem State.updCard_shape : (s.updCard b f).shape = s.shape := by rfl
@[simp] theorem State.updCard_isles : (s.updCard b f).isles = s.isles := by rfl
@[simp] theorem State.updCard_sounds : (s.updCard b f).sounds = s.sounds := by rfl
@[simp] theorem State.updCard_engines : (s.updCard b f).engines = s.engines := by rfl
@[simp] theorem State.updCard_lambs : (s.updCard b f).lambs = s.lambs := by rfl
@[simp] theorem State.updCard_cores : (s.updCard b f).cores = s.cores := by rfl
@[simp] theorem State.updCard_bantam : (s.updCard b f).bantam = s.bantam := by rfl
@[simp] theorem State.updCard_adders : (s.updCard b f).adders = s.adders := by rfl
@[simp] theorem State.updCard_stacks : (s.updCard b f).hbm = s.hbm := by rfl
@[simp] theorem State.updCard_stores : (s.updCard b f).stores = s.stores := by rfl
@[simp] theorem State.updCard_caches : (s.updCard b f).caches = s.caches := by rfl
@[simp] theorem State.updCard_pcOwner : (s.updCard b f).pcOwner = s.pcOwner := by rfl
@[simp] theorem State.updCard_wayOwner : (s.updCard b f).wayOwner = s.wayOwner := by rfl
@[simp] theorem State.updCard_grants : (s.updCard b f).grants = s.grants := by rfl
@[simp] theorem State.updCard_windows : (s.updCard b f).windows = s.windows := by rfl
@[simp] theorem State.updCard_flying : (s.updCard b f).flying = s.flying := by rfl
@[simp] theorem State.updCard_ctxs : (s.updCard b f).ctxs = s.ctxs := by rfl
@[simp] theorem State.updCard_fns : (s.updCard b f).fns = s.fns := by rfl
@[simp] theorem State.updCard_strait : (s.updCard b f).strait = s.strait := by rfl
@[simp] theorem State.updCard_uarts : (s.updCard b f).uarts = s.uarts := by rfl
@[simp] theorem State.updCard_holmMem : (s.updCard b f).holmMem = s.holmMem := by rfl
@[simp] theorem State.updCard_inject : (s.updCard b f).inject = s.inject := by rfl
@[simp] theorem State.updCard_repair : (s.updCard b f).repair = s.repair := by rfl
@[simp] theorem State.updCard_bg : (s.updCard b f).bg = s.bg := by rfl
@[simp] theorem State.updCard_power : (s.updCard b f).power = s.power := by rfl
@[simp] theorem State.updCard_boot : (s.updCard b f).boot = s.boot := by rfl
@[simp] theorem State.updCard_rack : (s.updCard b f).rack = s.rack := by rfl
end

/-! `State.updChan` changes `dict` only. -/

section
variable (s : State) (k : Nat) (f : ChanSt → ChanSt)
@[simp] theorem State.chan_updChan_same : (s.updChan k f).chan k = f (s.chan k) := by simp [State.chan, State.updChan]
theorem State.chan_updChan_other (j : Nat) (h : j ≠ k) : (s.updChan k f).chan j = s.chan j := by simp [State.chan, State.updChan, h]
@[simp] theorem State.updChan_pending : (s.updChan k f).pending = s.pending := by rfl
@[simp] theorem State.updChan_free : (s.updChan k f).free = s.free := by rfl
@[simp] theorem State.updChan_clock : (s.updChan k f).clock = s.clock := by rfl
@[simp] theorem State.updChan_recd : (s.updChan k f).recd = s.recd := by rfl
@[simp] theorem State.updChan_out : (s.updChan k f).out = s.out := by rfl
@[simp] theorem State.updChan_mem : (s.updChan k f).mem = s.mem := by rfl
@[simp] theorem State.updChan_bad : (s.updChan k f).bad = s.bad := by rfl
@[simp] theorem State.updChan_frames : (s.updChan k f).frames = s.frames := by rfl
@[simp] theorem State.updChan_deferred : (s.updChan k f).deferred = s.deferred := by rfl
@[simp] theorem State.updChan_tokens : (s.updChan k f).tokens = s.tokens := by rfl
@[simp] theorem State.updChan_pages : (s.updChan k f).pages = s.pages := by rfl
@[simp] theorem State.updChan_shape : (s.updChan k f).shape = s.shape := by rfl
@[simp] theorem State.updChan_isles : (s.updChan k f).isles = s.isles := by rfl
@[simp] theorem State.updChan_sounds : (s.updChan k f).sounds = s.sounds := by rfl
@[simp] theorem State.updChan_engines : (s.updChan k f).engines = s.engines := by rfl
@[simp] theorem State.updChan_lambs : (s.updChan k f).lambs = s.lambs := by rfl
@[simp] theorem State.updChan_cores : (s.updChan k f).cores = s.cores := by rfl
@[simp] theorem State.updChan_bantam : (s.updChan k f).bantam = s.bantam := by rfl
@[simp] theorem State.updChan_adders : (s.updChan k f).adders = s.adders := by rfl
@[simp] theorem State.updChan_stacks : (s.updChan k f).hbm = s.hbm := by rfl
@[simp] theorem State.updChan_stores : (s.updChan k f).stores = s.stores := by rfl
@[simp] theorem State.updChan_caches : (s.updChan k f).caches = s.caches := by rfl
@[simp] theorem State.updChan_pcOwner : (s.updChan k f).pcOwner = s.pcOwner := by rfl
@[simp] theorem State.updChan_wayOwner : (s.updChan k f).wayOwner = s.wayOwner := by rfl
@[simp] theorem State.updChan_grants : (s.updChan k f).grants = s.grants := by rfl
@[simp] theorem State.updChan_windows : (s.updChan k f).windows = s.windows := by rfl
@[simp] theorem State.updChan_flying : (s.updChan k f).flying = s.flying := by rfl
@[simp] theorem State.updChan_ctxs : (s.updChan k f).ctxs = s.ctxs := by rfl
@[simp] theorem State.updChan_fns : (s.updChan k f).fns = s.fns := by rfl
@[simp] theorem State.updChan_cards : (s.updChan k f).cards = s.cards := by rfl
@[simp] theorem State.updChan_strait : (s.updChan k f).strait = s.strait := by rfl
@[simp] theorem State.updChan_uarts : (s.updChan k f).uarts = s.uarts := by rfl
@[simp] theorem State.updChan_holmMem : (s.updChan k f).holmMem = s.holmMem := by rfl
@[simp] theorem State.updChan_inject : (s.updChan k f).inject = s.inject := by rfl
@[simp] theorem State.updChan_repair : (s.updChan k f).repair = s.repair := by rfl
@[simp] theorem State.updChan_bg : (s.updChan k f).bg = s.bg := by rfl
@[simp] theorem State.updChan_power : (s.updChan k f).power = s.power := by rfl
@[simp] theorem State.updChan_boot : (s.updChan k f).boot = s.boot := by rfl
@[simp] theorem State.updChan_rack : (s.updChan k f).rack = s.rack := by rfl
end

/-! `State.updFrame` changes `frames` only. -/

section
variable (s : State) (k : Nat) (f : Frame → Frame)
@[simp] theorem State.frame_updFrame_same : (s.updFrame k f).frame k = f (s.frame k) := by simp [State.frame, State.updFrame]
theorem State.frame_updFrame_other (j : Nat) (h : j ≠ k) : (s.updFrame k f).frame j = s.frame j := by simp [State.frame, State.updFrame, h]
@[simp] theorem State.updFrame_pending : (s.updFrame k f).pending = s.pending := by rfl
@[simp] theorem State.updFrame_free : (s.updFrame k f).free = s.free := by rfl
@[simp] theorem State.updFrame_clock : (s.updFrame k f).clock = s.clock := by rfl
@[simp] theorem State.updFrame_recd : (s.updFrame k f).recd = s.recd := by rfl
@[simp] theorem State.updFrame_dict : (s.updFrame k f).dict = s.dict := by rfl
@[simp] theorem State.updFrame_out : (s.updFrame k f).out = s.out := by rfl
@[simp] theorem State.updFrame_mem : (s.updFrame k f).mem = s.mem := by rfl
@[simp] theorem State.updFrame_bad : (s.updFrame k f).bad = s.bad := by rfl
@[simp] theorem State.updFrame_deferred : (s.updFrame k f).deferred = s.deferred := by rfl
@[simp] theorem State.updFrame_tokens : (s.updFrame k f).tokens = s.tokens := by rfl
@[simp] theorem State.updFrame_pages : (s.updFrame k f).pages = s.pages := by rfl
@[simp] theorem State.updFrame_shape : (s.updFrame k f).shape = s.shape := by rfl
@[simp] theorem State.updFrame_isles : (s.updFrame k f).isles = s.isles := by rfl
@[simp] theorem State.updFrame_sounds : (s.updFrame k f).sounds = s.sounds := by rfl
@[simp] theorem State.updFrame_engines : (s.updFrame k f).engines = s.engines := by rfl
@[simp] theorem State.updFrame_lambs : (s.updFrame k f).lambs = s.lambs := by rfl
@[simp] theorem State.updFrame_cores : (s.updFrame k f).cores = s.cores := by rfl
@[simp] theorem State.updFrame_bantam : (s.updFrame k f).bantam = s.bantam := by rfl
@[simp] theorem State.updFrame_adders : (s.updFrame k f).adders = s.adders := by rfl
@[simp] theorem State.updFrame_stacks : (s.updFrame k f).hbm = s.hbm := by rfl
@[simp] theorem State.updFrame_stores : (s.updFrame k f).stores = s.stores := by rfl
@[simp] theorem State.updFrame_caches : (s.updFrame k f).caches = s.caches := by rfl
@[simp] theorem State.updFrame_pcOwner : (s.updFrame k f).pcOwner = s.pcOwner := by rfl
@[simp] theorem State.updFrame_wayOwner : (s.updFrame k f).wayOwner = s.wayOwner := by rfl
@[simp] theorem State.updFrame_grants : (s.updFrame k f).grants = s.grants := by rfl
@[simp] theorem State.updFrame_windows : (s.updFrame k f).windows = s.windows := by rfl
@[simp] theorem State.updFrame_flying : (s.updFrame k f).flying = s.flying := by rfl
@[simp] theorem State.updFrame_ctxs : (s.updFrame k f).ctxs = s.ctxs := by rfl
@[simp] theorem State.updFrame_fns : (s.updFrame k f).fns = s.fns := by rfl
@[simp] theorem State.updFrame_cards : (s.updFrame k f).cards = s.cards := by rfl
@[simp] theorem State.updFrame_strait : (s.updFrame k f).strait = s.strait := by rfl
@[simp] theorem State.updFrame_uarts : (s.updFrame k f).uarts = s.uarts := by rfl
@[simp] theorem State.updFrame_holmMem : (s.updFrame k f).holmMem = s.holmMem := by rfl
@[simp] theorem State.updFrame_inject : (s.updFrame k f).inject = s.inject := by rfl
@[simp] theorem State.updFrame_repair : (s.updFrame k f).repair = s.repair := by rfl
@[simp] theorem State.updFrame_bg : (s.updFrame k f).bg = s.bg := by rfl
@[simp] theorem State.updFrame_power : (s.updFrame k f).power = s.power := by rfl
@[simp] theorem State.updFrame_boot : (s.updFrame k f).boot = s.boot := by rfl
@[simp] theorem State.updFrame_rack : (s.updFrame k f).rack = s.rack := by rfl
end

/-! `State.updRepair` changes `repair` only. -/

section
variable (s : State) (i : Nat) (f : RepairSt → RepairSt)
@[simp] theorem State.repairOf_updRepair_same : (s.updRepair i f).repairOf i = f (s.repairOf i) := by simp [State.repairOf, State.updRepair]
theorem State.repairOf_updRepair_other (j : Nat) (h : j ≠ i) : (s.updRepair i f).repairOf j = s.repairOf j := by simp [State.repairOf, State.updRepair, h]
@[simp] theorem State.updRepair_pending : (s.updRepair i f).pending = s.pending := by rfl
@[simp] theorem State.updRepair_free : (s.updRepair i f).free = s.free := by rfl
@[simp] theorem State.updRepair_clock : (s.updRepair i f).clock = s.clock := by rfl
@[simp] theorem State.updRepair_recd : (s.updRepair i f).recd = s.recd := by rfl
@[simp] theorem State.updRepair_dict : (s.updRepair i f).dict = s.dict := by rfl
@[simp] theorem State.updRepair_out : (s.updRepair i f).out = s.out := by rfl
@[simp] theorem State.updRepair_mem : (s.updRepair i f).mem = s.mem := by rfl
@[simp] theorem State.updRepair_bad : (s.updRepair i f).bad = s.bad := by rfl
@[simp] theorem State.updRepair_frames : (s.updRepair i f).frames = s.frames := by rfl
@[simp] theorem State.updRepair_deferred : (s.updRepair i f).deferred = s.deferred := by rfl
@[simp] theorem State.updRepair_tokens : (s.updRepair i f).tokens = s.tokens := by rfl
@[simp] theorem State.updRepair_pages : (s.updRepair i f).pages = s.pages := by rfl
@[simp] theorem State.updRepair_shape : (s.updRepair i f).shape = s.shape := by rfl
@[simp] theorem State.updRepair_isles : (s.updRepair i f).isles = s.isles := by rfl
@[simp] theorem State.updRepair_sounds : (s.updRepair i f).sounds = s.sounds := by rfl
@[simp] theorem State.updRepair_engines : (s.updRepair i f).engines = s.engines := by rfl
@[simp] theorem State.updRepair_lambs : (s.updRepair i f).lambs = s.lambs := by rfl
@[simp] theorem State.updRepair_cores : (s.updRepair i f).cores = s.cores := by rfl
@[simp] theorem State.updRepair_bantam : (s.updRepair i f).bantam = s.bantam := by rfl
@[simp] theorem State.updRepair_adders : (s.updRepair i f).adders = s.adders := by rfl
@[simp] theorem State.updRepair_stacks : (s.updRepair i f).hbm = s.hbm := by rfl
@[simp] theorem State.updRepair_stores : (s.updRepair i f).stores = s.stores := by rfl
@[simp] theorem State.updRepair_caches : (s.updRepair i f).caches = s.caches := by rfl
@[simp] theorem State.updRepair_pcOwner : (s.updRepair i f).pcOwner = s.pcOwner := by rfl
@[simp] theorem State.updRepair_wayOwner : (s.updRepair i f).wayOwner = s.wayOwner := by rfl
@[simp] theorem State.updRepair_grants : (s.updRepair i f).grants = s.grants := by rfl
@[simp] theorem State.updRepair_windows : (s.updRepair i f).windows = s.windows := by rfl
@[simp] theorem State.updRepair_flying : (s.updRepair i f).flying = s.flying := by rfl
@[simp] theorem State.updRepair_ctxs : (s.updRepair i f).ctxs = s.ctxs := by rfl
@[simp] theorem State.updRepair_fns : (s.updRepair i f).fns = s.fns := by rfl
@[simp] theorem State.updRepair_cards : (s.updRepair i f).cards = s.cards := by rfl
@[simp] theorem State.updRepair_strait : (s.updRepair i f).strait = s.strait := by rfl
@[simp] theorem State.updRepair_uarts : (s.updRepair i f).uarts = s.uarts := by rfl
@[simp] theorem State.updRepair_holmMem : (s.updRepair i f).holmMem = s.holmMem := by rfl
@[simp] theorem State.updRepair_inject : (s.updRepair i f).inject = s.inject := by rfl
@[simp] theorem State.updRepair_bg : (s.updRepair i f).bg = s.bg := by rfl
@[simp] theorem State.updRepair_power : (s.updRepair i f).power = s.power := by rfl
@[simp] theorem State.updRepair_boot : (s.updRepair i f).boot = s.boot := by rfl
@[simp] theorem State.updRepair_rack : (s.updRepair i f).rack = s.rack := by rfl
end

/-! `State.setObj` changes `dict` only. -/

section
variable (s : State) (idx sub v : Nat)
@[simp] theorem State.setObj_pending : (s.setObj idx sub v).pending = s.pending := by rfl
@[simp] theorem State.setObj_free : (s.setObj idx sub v).free = s.free := by rfl
@[simp] theorem State.setObj_clock : (s.setObj idx sub v).clock = s.clock := by rfl
@[simp] theorem State.setObj_recd : (s.setObj idx sub v).recd = s.recd := by rfl
@[simp] theorem State.setObj_out : (s.setObj idx sub v).out = s.out := by rfl
@[simp] theorem State.setObj_mem : (s.setObj idx sub v).mem = s.mem := by rfl
@[simp] theorem State.setObj_bad : (s.setObj idx sub v).bad = s.bad := by rfl
@[simp] theorem State.setObj_frames : (s.setObj idx sub v).frames = s.frames := by rfl
@[simp] theorem State.setObj_deferred : (s.setObj idx sub v).deferred = s.deferred := by rfl
@[simp] theorem State.setObj_tokens : (s.setObj idx sub v).tokens = s.tokens := by rfl
@[simp] theorem State.setObj_pages : (s.setObj idx sub v).pages = s.pages := by rfl
@[simp] theorem State.setObj_shape : (s.setObj idx sub v).shape = s.shape := by rfl
@[simp] theorem State.setObj_isles : (s.setObj idx sub v).isles = s.isles := by rfl
@[simp] theorem State.setObj_sounds : (s.setObj idx sub v).sounds = s.sounds := by rfl
@[simp] theorem State.setObj_engines : (s.setObj idx sub v).engines = s.engines := by rfl
@[simp] theorem State.setObj_lambs : (s.setObj idx sub v).lambs = s.lambs := by rfl
@[simp] theorem State.setObj_cores : (s.setObj idx sub v).cores = s.cores := by rfl
@[simp] theorem State.setObj_bantam : (s.setObj idx sub v).bantam = s.bantam := by rfl
@[simp] theorem State.setObj_adders : (s.setObj idx sub v).adders = s.adders := by rfl
@[simp] theorem State.setObj_stacks : (s.setObj idx sub v).hbm = s.hbm := by rfl
@[simp] theorem State.setObj_stores : (s.setObj idx sub v).stores = s.stores := by rfl
@[simp] theorem State.setObj_caches : (s.setObj idx sub v).caches = s.caches := by rfl
@[simp] theorem State.setObj_grants : (s.setObj idx sub v).grants = s.grants := by rfl
@[simp] theorem State.setObj_windows : (s.setObj idx sub v).windows = s.windows := by rfl
@[simp] theorem State.setObj_flying : (s.setObj idx sub v).flying = s.flying := by rfl
@[simp] theorem State.setObj_ctxs : (s.setObj idx sub v).ctxs = s.ctxs := by rfl
@[simp] theorem State.setObj_fns : (s.setObj idx sub v).fns = s.fns := by rfl
@[simp] theorem State.setObj_cards : (s.setObj idx sub v).cards = s.cards := by rfl
@[simp] theorem State.setObj_strait : (s.setObj idx sub v).strait = s.strait := by rfl
@[simp] theorem State.setObj_uarts : (s.setObj idx sub v).uarts = s.uarts := by rfl
@[simp] theorem State.setObj_holmMem : (s.setObj idx sub v).holmMem = s.holmMem := by rfl
@[simp] theorem State.setObj_inject : (s.setObj idx sub v).inject = s.inject := by rfl
@[simp] theorem State.setObj_repair : (s.setObj idx sub v).repair = s.repair := by rfl
@[simp] theorem State.setObj_bg : (s.setObj idx sub v).bg = s.bg := by rfl
@[simp] theorem State.setObj_power : (s.setObj idx sub v).power = s.power := by rfl
@[simp] theorem State.setObj_boot : (s.setObj idx sub v).boot = s.boot := by rfl
@[simp] theorem State.setObj_rack : (s.setObj idx sub v).rack = s.rack := by rfl
end

/-! `State.setAction` changes `dict` only. -/

section
variable (s : State) (idx sub state result : Nat)
@[simp] theorem State.setAction_pending : (s.setAction idx sub state result).pending = s.pending := by rfl
@[simp] theorem State.setAction_free : (s.setAction idx sub state result).free = s.free := by rfl
@[simp] theorem State.setAction_clock : (s.setAction idx sub state result).clock = s.clock := by rfl
@[simp] theorem State.setAction_recd : (s.setAction idx sub state result).recd = s.recd := by rfl
@[simp] theorem State.setAction_out : (s.setAction idx sub state result).out = s.out := by rfl
@[simp] theorem State.setAction_mem : (s.setAction idx sub state result).mem = s.mem := by rfl
@[simp] theorem State.setAction_bad : (s.setAction idx sub state result).bad = s.bad := by rfl
@[simp] theorem State.setAction_frames : (s.setAction idx sub state result).frames = s.frames := by rfl
@[simp] theorem State.setAction_deferred : (s.setAction idx sub state result).deferred = s.deferred := by rfl
@[simp] theorem State.setAction_tokens : (s.setAction idx sub state result).tokens = s.tokens := by rfl
@[simp] theorem State.setAction_pages : (s.setAction idx sub state result).pages = s.pages := by rfl
@[simp] theorem State.setAction_shape : (s.setAction idx sub state result).shape = s.shape := by rfl
@[simp] theorem State.setAction_isles : (s.setAction idx sub state result).isles = s.isles := by rfl
@[simp] theorem State.setAction_sounds : (s.setAction idx sub state result).sounds = s.sounds := by rfl
@[simp] theorem State.setAction_engines : (s.setAction idx sub state result).engines = s.engines := by rfl
@[simp] theorem State.setAction_lambs : (s.setAction idx sub state result).lambs = s.lambs := by rfl
@[simp] theorem State.setAction_cores : (s.setAction idx sub state result).cores = s.cores := by rfl
@[simp] theorem State.setAction_bantam : (s.setAction idx sub state result).bantam = s.bantam := by rfl
@[simp] theorem State.setAction_adders : (s.setAction idx sub state result).adders = s.adders := by rfl
@[simp] theorem State.setAction_stacks : (s.setAction idx sub state result).hbm = s.hbm := by rfl
@[simp] theorem State.setAction_stores : (s.setAction idx sub state result).stores = s.stores := by rfl
@[simp] theorem State.setAction_caches : (s.setAction idx sub state result).caches = s.caches := by rfl
@[simp] theorem State.setAction_grants : (s.setAction idx sub state result).grants = s.grants := by rfl
@[simp] theorem State.setAction_windows : (s.setAction idx sub state result).windows = s.windows := by rfl
@[simp] theorem State.setAction_flying : (s.setAction idx sub state result).flying = s.flying := by rfl
@[simp] theorem State.setAction_ctxs : (s.setAction idx sub state result).ctxs = s.ctxs := by rfl
@[simp] theorem State.setAction_fns : (s.setAction idx sub state result).fns = s.fns := by rfl
@[simp] theorem State.setAction_cards : (s.setAction idx sub state result).cards = s.cards := by rfl
@[simp] theorem State.setAction_strait : (s.setAction idx sub state result).strait = s.strait := by rfl
@[simp] theorem State.setAction_uarts : (s.setAction idx sub state result).uarts = s.uarts := by rfl
@[simp] theorem State.setAction_holmMem : (s.setAction idx sub state result).holmMem = s.holmMem := by rfl
@[simp] theorem State.setAction_inject : (s.setAction idx sub state result).inject = s.inject := by rfl
@[simp] theorem State.setAction_repair : (s.setAction idx sub state result).repair = s.repair := by rfl
@[simp] theorem State.setAction_bg : (s.setAction idx sub state result).bg = s.bg := by rfl
@[simp] theorem State.setAction_power : (s.setAction idx sub state result).power = s.power := by rfl
@[simp] theorem State.setAction_boot : (s.setAction idx sub state result).boot = s.boot := by rfl
@[simp] theorem State.setAction_rack : (s.setAction idx sub state result).rack = s.rack := by rfl
end

/-! `State.updRun` changes `ctxs` only. -/

section
variable (s : State) (c : Nat) (f : Run → Run)
@[simp] theorem State.updRun_pending : (s.updRun c f).pending = s.pending := by rfl
@[simp] theorem State.updRun_free : (s.updRun c f).free = s.free := by rfl
@[simp] theorem State.updRun_clock : (s.updRun c f).clock = s.clock := by rfl
@[simp] theorem State.updRun_recd : (s.updRun c f).recd = s.recd := by rfl
@[simp] theorem State.updRun_dict : (s.updRun c f).dict = s.dict := by rfl
@[simp] theorem State.updRun_out : (s.updRun c f).out = s.out := by rfl
@[simp] theorem State.updRun_mem : (s.updRun c f).mem = s.mem := by rfl
@[simp] theorem State.updRun_bad : (s.updRun c f).bad = s.bad := by rfl
@[simp] theorem State.updRun_frames : (s.updRun c f).frames = s.frames := by rfl
@[simp] theorem State.updRun_deferred : (s.updRun c f).deferred = s.deferred := by rfl
@[simp] theorem State.updRun_tokens : (s.updRun c f).tokens = s.tokens := by rfl
@[simp] theorem State.updRun_pages : (s.updRun c f).pages = s.pages := by rfl
@[simp] theorem State.updRun_shape : (s.updRun c f).shape = s.shape := by rfl
@[simp] theorem State.updRun_isles : (s.updRun c f).isles = s.isles := by rfl
@[simp] theorem State.updRun_sounds : (s.updRun c f).sounds = s.sounds := by rfl
@[simp] theorem State.updRun_engines : (s.updRun c f).engines = s.engines := by rfl
@[simp] theorem State.updRun_lambs : (s.updRun c f).lambs = s.lambs := by rfl
@[simp] theorem State.updRun_cores : (s.updRun c f).cores = s.cores := by rfl
@[simp] theorem State.updRun_bantam : (s.updRun c f).bantam = s.bantam := by rfl
@[simp] theorem State.updRun_adders : (s.updRun c f).adders = s.adders := by rfl
@[simp] theorem State.updRun_stacks : (s.updRun c f).hbm = s.hbm := by rfl
@[simp] theorem State.updRun_stores : (s.updRun c f).stores = s.stores := by rfl
@[simp] theorem State.updRun_caches : (s.updRun c f).caches = s.caches := by rfl
@[simp] theorem State.updRun_pcOwner : (s.updRun c f).pcOwner = s.pcOwner := by rfl
@[simp] theorem State.updRun_wayOwner : (s.updRun c f).wayOwner = s.wayOwner := by rfl
@[simp] theorem State.updRun_grants : (s.updRun c f).grants = s.grants := by rfl
@[simp] theorem State.updRun_windows : (s.updRun c f).windows = s.windows := by rfl
@[simp] theorem State.updRun_flying : (s.updRun c f).flying = s.flying := by rfl
@[simp] theorem State.updRun_fns : (s.updRun c f).fns = s.fns := by rfl
@[simp] theorem State.updRun_cards : (s.updRun c f).cards = s.cards := by rfl
@[simp] theorem State.updRun_strait : (s.updRun c f).strait = s.strait := by rfl
@[simp] theorem State.updRun_uarts : (s.updRun c f).uarts = s.uarts := by rfl
@[simp] theorem State.updRun_holmMem : (s.updRun c f).holmMem = s.holmMem := by rfl
@[simp] theorem State.updRun_inject : (s.updRun c f).inject = s.inject := by rfl
@[simp] theorem State.updRun_repair : (s.updRun c f).repair = s.repair := by rfl
@[simp] theorem State.updRun_bg : (s.updRun c f).bg = s.bg := by rfl
@[simp] theorem State.updRun_power : (s.updRun c f).power = s.power := by rfl
@[simp] theorem State.updRun_boot : (s.updRun c f).boot = s.boot := by rfl
@[simp] theorem State.updRun_rack : (s.updRun c f).rack = s.rack := by rfl
end

/-! `State.updUart` changes `uarts` only. -/

section
variable (s : State) (p : Nat) (f : UartSt → UartSt)
@[simp] theorem State.uart_updUart_same : (s.updUart p f).uart p = f (s.uart p) := by simp [State.uart, State.updUart]
theorem State.uart_updUart_other (j : Nat) (h : j ≠ p) : (s.updUart p f).uart j = s.uart j := by simp [State.uart, State.updUart, h]
@[simp] theorem State.updUart_pending : (s.updUart p f).pending = s.pending := by rfl
@[simp] theorem State.updUart_free : (s.updUart p f).free = s.free := by rfl
@[simp] theorem State.updUart_clock : (s.updUart p f).clock = s.clock := by rfl
@[simp] theorem State.updUart_recd : (s.updUart p f).recd = s.recd := by rfl
@[simp] theorem State.updUart_dict : (s.updUart p f).dict = s.dict := by rfl
@[simp] theorem State.updUart_out : (s.updUart p f).out = s.out := by rfl
@[simp] theorem State.updUart_mem : (s.updUart p f).mem = s.mem := by rfl
@[simp] theorem State.updUart_bad : (s.updUart p f).bad = s.bad := by rfl
@[simp] theorem State.updUart_frames : (s.updUart p f).frames = s.frames := by rfl
@[simp] theorem State.updUart_deferred : (s.updUart p f).deferred = s.deferred := by rfl
@[simp] theorem State.updUart_tokens : (s.updUart p f).tokens = s.tokens := by rfl
@[simp] theorem State.updUart_pages : (s.updUart p f).pages = s.pages := by rfl
@[simp] theorem State.updUart_shape : (s.updUart p f).shape = s.shape := by rfl
@[simp] theorem State.updUart_isles : (s.updUart p f).isles = s.isles := by rfl
@[simp] theorem State.updUart_sounds : (s.updUart p f).sounds = s.sounds := by rfl
@[simp] theorem State.updUart_engines : (s.updUart p f).engines = s.engines := by rfl
@[simp] theorem State.updUart_lambs : (s.updUart p f).lambs = s.lambs := by rfl
@[simp] theorem State.updUart_cores : (s.updUart p f).cores = s.cores := by rfl
@[simp] theorem State.updUart_bantam : (s.updUart p f).bantam = s.bantam := by rfl
@[simp] theorem State.updUart_adders : (s.updUart p f).adders = s.adders := by rfl
@[simp] theorem State.updUart_stacks : (s.updUart p f).hbm = s.hbm := by rfl
@[simp] theorem State.updUart_stores : (s.updUart p f).stores = s.stores := by rfl
@[simp] theorem State.updUart_caches : (s.updUart p f).caches = s.caches := by rfl
@[simp] theorem State.updUart_pcOwner : (s.updUart p f).pcOwner = s.pcOwner := by rfl
@[simp] theorem State.updUart_wayOwner : (s.updUart p f).wayOwner = s.wayOwner := by rfl
@[simp] theorem State.updUart_grants : (s.updUart p f).grants = s.grants := by rfl
@[simp] theorem State.updUart_windows : (s.updUart p f).windows = s.windows := by rfl
@[simp] theorem State.updUart_flying : (s.updUart p f).flying = s.flying := by rfl
@[simp] theorem State.updUart_ctxs : (s.updUart p f).ctxs = s.ctxs := by rfl
@[simp] theorem State.updUart_fns : (s.updUart p f).fns = s.fns := by rfl
@[simp] theorem State.updUart_cards : (s.updUart p f).cards = s.cards := by rfl
@[simp] theorem State.updUart_strait : (s.updUart p f).strait = s.strait := by rfl
@[simp] theorem State.updUart_holmMem : (s.updUart p f).holmMem = s.holmMem := by rfl
@[simp] theorem State.updUart_inject : (s.updUart p f).inject = s.inject := by rfl
@[simp] theorem State.updUart_repair : (s.updUart p f).repair = s.repair := by rfl
@[simp] theorem State.updUart_bg : (s.updUart p f).bg = s.bg := by rfl
@[simp] theorem State.updUart_power : (s.updUart p f).power = s.power := by rfl
@[simp] theorem State.updUart_boot : (s.updUart p f).boot = s.boot := by rfl
@[simp] theorem State.updUart_rack : (s.updUart p f).rack = s.rack := by rfl
end

/-! `State.updPort` changes `strait` only. -/

section
variable (s : State) (p : Nat) (f : PortSt → PortSt)
@[simp] theorem State.port_updPort_same : (s.updPort p f).port p = f (s.port p) := by simp [State.port, State.updPort]
theorem State.port_updPort_other (j : Nat) (h : j ≠ p) : (s.updPort p f).port j = s.port j := by simp [State.port, State.updPort, h]
@[simp] theorem State.updPort_pending : (s.updPort p f).pending = s.pending := by rfl
@[simp] theorem State.updPort_free : (s.updPort p f).free = s.free := by rfl
@[simp] theorem State.updPort_clock : (s.updPort p f).clock = s.clock := by rfl
@[simp] theorem State.updPort_recd : (s.updPort p f).recd = s.recd := by rfl
@[simp] theorem State.updPort_dict : (s.updPort p f).dict = s.dict := by rfl
@[simp] theorem State.updPort_out : (s.updPort p f).out = s.out := by rfl
@[simp] theorem State.updPort_mem : (s.updPort p f).mem = s.mem := by rfl
@[simp] theorem State.updPort_bad : (s.updPort p f).bad = s.bad := by rfl
@[simp] theorem State.updPort_frames : (s.updPort p f).frames = s.frames := by rfl
@[simp] theorem State.updPort_deferred : (s.updPort p f).deferred = s.deferred := by rfl
@[simp] theorem State.updPort_tokens : (s.updPort p f).tokens = s.tokens := by rfl
@[simp] theorem State.updPort_pages : (s.updPort p f).pages = s.pages := by rfl
@[simp] theorem State.updPort_shape : (s.updPort p f).shape = s.shape := by rfl
@[simp] theorem State.updPort_isles : (s.updPort p f).isles = s.isles := by rfl
@[simp] theorem State.updPort_sounds : (s.updPort p f).sounds = s.sounds := by rfl
@[simp] theorem State.updPort_engines : (s.updPort p f).engines = s.engines := by rfl
@[simp] theorem State.updPort_lambs : (s.updPort p f).lambs = s.lambs := by rfl
@[simp] theorem State.updPort_cores : (s.updPort p f).cores = s.cores := by rfl
@[simp] theorem State.updPort_bantam : (s.updPort p f).bantam = s.bantam := by rfl
@[simp] theorem State.updPort_adders : (s.updPort p f).adders = s.adders := by rfl
@[simp] theorem State.updPort_stacks : (s.updPort p f).hbm = s.hbm := by rfl
@[simp] theorem State.updPort_stores : (s.updPort p f).stores = s.stores := by rfl
@[simp] theorem State.updPort_caches : (s.updPort p f).caches = s.caches := by rfl
@[simp] theorem State.updPort_pcOwner : (s.updPort p f).pcOwner = s.pcOwner := by rfl
@[simp] theorem State.updPort_wayOwner : (s.updPort p f).wayOwner = s.wayOwner := by rfl
@[simp] theorem State.updPort_grants : (s.updPort p f).grants = s.grants := by rfl
@[simp] theorem State.updPort_windows : (s.updPort p f).windows = s.windows := by rfl
@[simp] theorem State.updPort_flying : (s.updPort p f).flying = s.flying := by rfl
@[simp] theorem State.updPort_ctxs : (s.updPort p f).ctxs = s.ctxs := by rfl
@[simp] theorem State.updPort_fns : (s.updPort p f).fns = s.fns := by rfl
@[simp] theorem State.updPort_cards : (s.updPort p f).cards = s.cards := by rfl
@[simp] theorem State.updPort_uarts : (s.updPort p f).uarts = s.uarts := by rfl
@[simp] theorem State.updPort_holmMem : (s.updPort p f).holmMem = s.holmMem := by rfl
@[simp] theorem State.updPort_inject : (s.updPort p f).inject = s.inject := by rfl
@[simp] theorem State.updPort_repair : (s.updPort p f).repair = s.repair := by rfl
@[simp] theorem State.updPort_bg : (s.updPort p f).bg = s.bg := by rfl
@[simp] theorem State.updPort_power : (s.updPort p f).power = s.power := by rfl
@[simp] theorem State.updPort_boot : (s.updPort p f).boot = s.boot := by rfl
@[simp] theorem State.updPort_rack : (s.updPort p f).rack = s.rack := by rfl
end

/-! `State.updCassette` changes `strait` only. -/

section
variable (s : State) (c : Nat) (f : CassetteSt → CassetteSt)
@[simp] theorem State.cassette_updCassette_same : (s.updCassette c f).cassette c = f (s.cassette c) := by simp [State.cassette, State.updCassette]
theorem State.cassette_updCassette_other (j : Nat) (h : j ≠ c) : (s.updCassette c f).cassette j = s.cassette j := by simp [State.cassette, State.updCassette, h]
@[simp] theorem State.updCassette_pending : (s.updCassette c f).pending = s.pending := by rfl
@[simp] theorem State.updCassette_free : (s.updCassette c f).free = s.free := by rfl
@[simp] theorem State.updCassette_clock : (s.updCassette c f).clock = s.clock := by rfl
@[simp] theorem State.updCassette_recd : (s.updCassette c f).recd = s.recd := by rfl
@[simp] theorem State.updCassette_dict : (s.updCassette c f).dict = s.dict := by rfl
@[simp] theorem State.updCassette_out : (s.updCassette c f).out = s.out := by rfl
@[simp] theorem State.updCassette_mem : (s.updCassette c f).mem = s.mem := by rfl
@[simp] theorem State.updCassette_bad : (s.updCassette c f).bad = s.bad := by rfl
@[simp] theorem State.updCassette_frames : (s.updCassette c f).frames = s.frames := by rfl
@[simp] theorem State.updCassette_deferred : (s.updCassette c f).deferred = s.deferred := by rfl
@[simp] theorem State.updCassette_tokens : (s.updCassette c f).tokens = s.tokens := by rfl
@[simp] theorem State.updCassette_pages : (s.updCassette c f).pages = s.pages := by rfl
@[simp] theorem State.updCassette_shape : (s.updCassette c f).shape = s.shape := by rfl
@[simp] theorem State.updCassette_isles : (s.updCassette c f).isles = s.isles := by rfl
@[simp] theorem State.updCassette_sounds : (s.updCassette c f).sounds = s.sounds := by rfl
@[simp] theorem State.updCassette_engines : (s.updCassette c f).engines = s.engines := by rfl
@[simp] theorem State.updCassette_lambs : (s.updCassette c f).lambs = s.lambs := by rfl
@[simp] theorem State.updCassette_cores : (s.updCassette c f).cores = s.cores := by rfl
@[simp] theorem State.updCassette_bantam : (s.updCassette c f).bantam = s.bantam := by rfl
@[simp] theorem State.updCassette_adders : (s.updCassette c f).adders = s.adders := by rfl
@[simp] theorem State.updCassette_stacks : (s.updCassette c f).hbm = s.hbm := by rfl
@[simp] theorem State.updCassette_stores : (s.updCassette c f).stores = s.stores := by rfl
@[simp] theorem State.updCassette_caches : (s.updCassette c f).caches = s.caches := by rfl
@[simp] theorem State.updCassette_pcOwner : (s.updCassette c f).pcOwner = s.pcOwner := by rfl
@[simp] theorem State.updCassette_wayOwner : (s.updCassette c f).wayOwner = s.wayOwner := by rfl
@[simp] theorem State.updCassette_grants : (s.updCassette c f).grants = s.grants := by rfl
@[simp] theorem State.updCassette_windows : (s.updCassette c f).windows = s.windows := by rfl
@[simp] theorem State.updCassette_flying : (s.updCassette c f).flying = s.flying := by rfl
@[simp] theorem State.updCassette_ctxs : (s.updCassette c f).ctxs = s.ctxs := by rfl
@[simp] theorem State.updCassette_fns : (s.updCassette c f).fns = s.fns := by rfl
@[simp] theorem State.updCassette_cards : (s.updCassette c f).cards = s.cards := by rfl
@[simp] theorem State.updCassette_uarts : (s.updCassette c f).uarts = s.uarts := by rfl
@[simp] theorem State.updCassette_holmMem : (s.updCassette c f).holmMem = s.holmMem := by rfl
@[simp] theorem State.updCassette_inject : (s.updCassette c f).inject = s.inject := by rfl
@[simp] theorem State.updCassette_repair : (s.updCassette c f).repair = s.repair := by rfl
@[simp] theorem State.updCassette_bg : (s.updCassette c f).bg = s.bg := by rfl
@[simp] theorem State.updCassette_power : (s.updCassette c f).power = s.power := by rfl
@[simp] theorem State.updCassette_boot : (s.updCassette c f).boot = s.boot := by rfl
@[simp] theorem State.updCassette_rack : (s.updCassette c f).rack = s.rack := by rfl
end

/-! `State.updPower` changes `power` only. -/

section
variable (s : State) (f : PowerSt → PowerSt)
@[simp] theorem State.updPower_pending : (s.updPower f).pending = s.pending := by rfl
@[simp] theorem State.updPower_free : (s.updPower f).free = s.free := by rfl
@[simp] theorem State.updPower_clock : (s.updPower f).clock = s.clock := by rfl
@[simp] theorem State.updPower_recd : (s.updPower f).recd = s.recd := by rfl
@[simp] theorem State.updPower_dict : (s.updPower f).dict = s.dict := by rfl
@[simp] theorem State.updPower_out : (s.updPower f).out = s.out := by rfl
@[simp] theorem State.updPower_mem : (s.updPower f).mem = s.mem := by rfl
@[simp] theorem State.updPower_bad : (s.updPower f).bad = s.bad := by rfl
@[simp] theorem State.updPower_frames : (s.updPower f).frames = s.frames := by rfl
@[simp] theorem State.updPower_deferred : (s.updPower f).deferred = s.deferred := by rfl
@[simp] theorem State.updPower_tokens : (s.updPower f).tokens = s.tokens := by rfl
@[simp] theorem State.updPower_pages : (s.updPower f).pages = s.pages := by rfl
@[simp] theorem State.updPower_shape : (s.updPower f).shape = s.shape := by rfl
@[simp] theorem State.updPower_isles : (s.updPower f).isles = s.isles := by rfl
@[simp] theorem State.updPower_sounds : (s.updPower f).sounds = s.sounds := by rfl
@[simp] theorem State.updPower_engines : (s.updPower f).engines = s.engines := by rfl
@[simp] theorem State.updPower_lambs : (s.updPower f).lambs = s.lambs := by rfl
@[simp] theorem State.updPower_cores : (s.updPower f).cores = s.cores := by rfl
@[simp] theorem State.updPower_bantam : (s.updPower f).bantam = s.bantam := by rfl
@[simp] theorem State.updPower_adders : (s.updPower f).adders = s.adders := by rfl
@[simp] theorem State.updPower_stacks : (s.updPower f).hbm = s.hbm := by rfl
@[simp] theorem State.updPower_stores : (s.updPower f).stores = s.stores := by rfl
@[simp] theorem State.updPower_caches : (s.updPower f).caches = s.caches := by rfl
@[simp] theorem State.updPower_pcOwner : (s.updPower f).pcOwner = s.pcOwner := by rfl
@[simp] theorem State.updPower_wayOwner : (s.updPower f).wayOwner = s.wayOwner := by rfl
@[simp] theorem State.updPower_grants : (s.updPower f).grants = s.grants := by rfl
@[simp] theorem State.updPower_windows : (s.updPower f).windows = s.windows := by rfl
@[simp] theorem State.updPower_flying : (s.updPower f).flying = s.flying := by rfl
@[simp] theorem State.updPower_ctxs : (s.updPower f).ctxs = s.ctxs := by rfl
@[simp] theorem State.updPower_fns : (s.updPower f).fns = s.fns := by rfl
@[simp] theorem State.updPower_cards : (s.updPower f).cards = s.cards := by rfl
@[simp] theorem State.updPower_strait : (s.updPower f).strait = s.strait := by rfl
@[simp] theorem State.updPower_uarts : (s.updPower f).uarts = s.uarts := by rfl
@[simp] theorem State.updPower_holmMem : (s.updPower f).holmMem = s.holmMem := by rfl
@[simp] theorem State.updPower_inject : (s.updPower f).inject = s.inject := by rfl
@[simp] theorem State.updPower_repair : (s.updPower f).repair = s.repair := by rfl
@[simp] theorem State.updPower_bg : (s.updPower f).bg = s.bg := by rfl
@[simp] theorem State.updPower_boot : (s.updPower f).boot = s.boot := by rfl
@[simp] theorem State.updPower_rack : (s.updPower f).rack = s.rack := by rfl
end

/-! `State.updSupply` changes `power` only. -/

section
variable (s : State) (n : Nat) (f : SupplySt → SupplySt)
@[simp] theorem State.supply_updSupply_same : (s.updSupply n f).supply n = f (s.supply n) := by simp [State.supply, State.updSupply, State.updPower]
theorem State.supply_updSupply_other (j : Nat) (h : j ≠ n) : (s.updSupply n f).supply j = s.supply j := by simp [State.supply, State.updSupply, State.updPower, h]
@[simp] theorem State.updSupply_pending : (s.updSupply n f).pending = s.pending := by rfl
@[simp] theorem State.updSupply_free : (s.updSupply n f).free = s.free := by rfl
@[simp] theorem State.updSupply_clock : (s.updSupply n f).clock = s.clock := by rfl
@[simp] theorem State.updSupply_recd : (s.updSupply n f).recd = s.recd := by rfl
@[simp] theorem State.updSupply_dict : (s.updSupply n f).dict = s.dict := by rfl
@[simp] theorem State.updSupply_out : (s.updSupply n f).out = s.out := by rfl
@[simp] theorem State.updSupply_mem : (s.updSupply n f).mem = s.mem := by rfl
@[simp] theorem State.updSupply_bad : (s.updSupply n f).bad = s.bad := by rfl
@[simp] theorem State.updSupply_frames : (s.updSupply n f).frames = s.frames := by rfl
@[simp] theorem State.updSupply_deferred : (s.updSupply n f).deferred = s.deferred := by rfl
@[simp] theorem State.updSupply_tokens : (s.updSupply n f).tokens = s.tokens := by rfl
@[simp] theorem State.updSupply_pages : (s.updSupply n f).pages = s.pages := by rfl
@[simp] theorem State.updSupply_shape : (s.updSupply n f).shape = s.shape := by rfl
@[simp] theorem State.updSupply_isles : (s.updSupply n f).isles = s.isles := by rfl
@[simp] theorem State.updSupply_sounds : (s.updSupply n f).sounds = s.sounds := by rfl
@[simp] theorem State.updSupply_engines : (s.updSupply n f).engines = s.engines := by rfl
@[simp] theorem State.updSupply_lambs : (s.updSupply n f).lambs = s.lambs := by rfl
@[simp] theorem State.updSupply_cores : (s.updSupply n f).cores = s.cores := by rfl
@[simp] theorem State.updSupply_bantam : (s.updSupply n f).bantam = s.bantam := by rfl
@[simp] theorem State.updSupply_adders : (s.updSupply n f).adders = s.adders := by rfl
@[simp] theorem State.updSupply_stacks : (s.updSupply n f).hbm = s.hbm := by rfl
@[simp] theorem State.updSupply_stores : (s.updSupply n f).stores = s.stores := by rfl
@[simp] theorem State.updSupply_caches : (s.updSupply n f).caches = s.caches := by rfl
@[simp] theorem State.updSupply_pcOwner : (s.updSupply n f).pcOwner = s.pcOwner := by rfl
@[simp] theorem State.updSupply_wayOwner : (s.updSupply n f).wayOwner = s.wayOwner := by rfl
@[simp] theorem State.updSupply_grants : (s.updSupply n f).grants = s.grants := by rfl
@[simp] theorem State.updSupply_windows : (s.updSupply n f).windows = s.windows := by rfl
@[simp] theorem State.updSupply_flying : (s.updSupply n f).flying = s.flying := by rfl
@[simp] theorem State.updSupply_ctxs : (s.updSupply n f).ctxs = s.ctxs := by rfl
@[simp] theorem State.updSupply_fns : (s.updSupply n f).fns = s.fns := by rfl
@[simp] theorem State.updSupply_cards : (s.updSupply n f).cards = s.cards := by rfl
@[simp] theorem State.updSupply_strait : (s.updSupply n f).strait = s.strait := by rfl
@[simp] theorem State.updSupply_uarts : (s.updSupply n f).uarts = s.uarts := by rfl
@[simp] theorem State.updSupply_holmMem : (s.updSupply n f).holmMem = s.holmMem := by rfl
@[simp] theorem State.updSupply_inject : (s.updSupply n f).inject = s.inject := by rfl
@[simp] theorem State.updSupply_repair : (s.updSupply n f).repair = s.repair := by rfl
@[simp] theorem State.updSupply_bg : (s.updSupply n f).bg = s.bg := by rfl
@[simp] theorem State.updSupply_boot : (s.updSupply n f).boot = s.boot := by rfl
@[simp] theorem State.updSupply_rack : (s.updSupply n f).rack = s.rack := by rfl
end

/-! `State.updFan` changes `power` only. -/

section
variable (s : State) (n : Nat) (f : FanSt → FanSt)
@[simp] theorem State.updFan_pending : (s.updFan n f).pending = s.pending := by rfl
@[simp] theorem State.updFan_free : (s.updFan n f).free = s.free := by rfl
@[simp] theorem State.updFan_clock : (s.updFan n f).clock = s.clock := by rfl
@[simp] theorem State.updFan_recd : (s.updFan n f).recd = s.recd := by rfl
@[simp] theorem State.updFan_dict : (s.updFan n f).dict = s.dict := by rfl
@[simp] theorem State.updFan_out : (s.updFan n f).out = s.out := by rfl
@[simp] theorem State.updFan_mem : (s.updFan n f).mem = s.mem := by rfl
@[simp] theorem State.updFan_bad : (s.updFan n f).bad = s.bad := by rfl
@[simp] theorem State.updFan_frames : (s.updFan n f).frames = s.frames := by rfl
@[simp] theorem State.updFan_deferred : (s.updFan n f).deferred = s.deferred := by rfl
@[simp] theorem State.updFan_tokens : (s.updFan n f).tokens = s.tokens := by rfl
@[simp] theorem State.updFan_pages : (s.updFan n f).pages = s.pages := by rfl
@[simp] theorem State.updFan_shape : (s.updFan n f).shape = s.shape := by rfl
@[simp] theorem State.updFan_isles : (s.updFan n f).isles = s.isles := by rfl
@[simp] theorem State.updFan_sounds : (s.updFan n f).sounds = s.sounds := by rfl
@[simp] theorem State.updFan_engines : (s.updFan n f).engines = s.engines := by rfl
@[simp] theorem State.updFan_lambs : (s.updFan n f).lambs = s.lambs := by rfl
@[simp] theorem State.updFan_cores : (s.updFan n f).cores = s.cores := by rfl
@[simp] theorem State.updFan_bantam : (s.updFan n f).bantam = s.bantam := by rfl
@[simp] theorem State.updFan_adders : (s.updFan n f).adders = s.adders := by rfl
@[simp] theorem State.updFan_stacks : (s.updFan n f).hbm = s.hbm := by rfl
@[simp] theorem State.updFan_stores : (s.updFan n f).stores = s.stores := by rfl
@[simp] theorem State.updFan_caches : (s.updFan n f).caches = s.caches := by rfl
@[simp] theorem State.updFan_pcOwner : (s.updFan n f).pcOwner = s.pcOwner := by rfl
@[simp] theorem State.updFan_wayOwner : (s.updFan n f).wayOwner = s.wayOwner := by rfl
@[simp] theorem State.updFan_grants : (s.updFan n f).grants = s.grants := by rfl
@[simp] theorem State.updFan_windows : (s.updFan n f).windows = s.windows := by rfl
@[simp] theorem State.updFan_flying : (s.updFan n f).flying = s.flying := by rfl
@[simp] theorem State.updFan_ctxs : (s.updFan n f).ctxs = s.ctxs := by rfl
@[simp] theorem State.updFan_fns : (s.updFan n f).fns = s.fns := by rfl
@[simp] theorem State.updFan_cards : (s.updFan n f).cards = s.cards := by rfl
@[simp] theorem State.updFan_strait : (s.updFan n f).strait = s.strait := by rfl
@[simp] theorem State.updFan_uarts : (s.updFan n f).uarts = s.uarts := by rfl
@[simp] theorem State.updFan_holmMem : (s.updFan n f).holmMem = s.holmMem := by rfl
@[simp] theorem State.updFan_inject : (s.updFan n f).inject = s.inject := by rfl
@[simp] theorem State.updFan_repair : (s.updFan n f).repair = s.repair := by rfl
@[simp] theorem State.updFan_bg : (s.updFan n f).bg = s.bg := by rfl
@[simp] theorem State.updFan_boot : (s.updFan n f).boot = s.boot := by rfl
@[simp] theorem State.updFan_rack : (s.updFan n f).rack = s.rack := by rfl
end

/-! `State.updBoot` changes `boot` only. -/

section
variable (s : State) (f : BootSt → BootSt)
@[simp] theorem State.updBoot_pending : (s.updBoot f).pending = s.pending := by rfl
@[simp] theorem State.updBoot_free : (s.updBoot f).free = s.free := by rfl
@[simp] theorem State.updBoot_clock : (s.updBoot f).clock = s.clock := by rfl
@[simp] theorem State.updBoot_recd : (s.updBoot f).recd = s.recd := by rfl
@[simp] theorem State.updBoot_dict : (s.updBoot f).dict = s.dict := by rfl
@[simp] theorem State.updBoot_out : (s.updBoot f).out = s.out := by rfl
@[simp] theorem State.updBoot_mem : (s.updBoot f).mem = s.mem := by rfl
@[simp] theorem State.updBoot_bad : (s.updBoot f).bad = s.bad := by rfl
@[simp] theorem State.updBoot_frames : (s.updBoot f).frames = s.frames := by rfl
@[simp] theorem State.updBoot_deferred : (s.updBoot f).deferred = s.deferred := by rfl
@[simp] theorem State.updBoot_tokens : (s.updBoot f).tokens = s.tokens := by rfl
@[simp] theorem State.updBoot_pages : (s.updBoot f).pages = s.pages := by rfl
@[simp] theorem State.updBoot_shape : (s.updBoot f).shape = s.shape := by rfl
@[simp] theorem State.updBoot_isles : (s.updBoot f).isles = s.isles := by rfl
@[simp] theorem State.updBoot_sounds : (s.updBoot f).sounds = s.sounds := by rfl
@[simp] theorem State.updBoot_engines : (s.updBoot f).engines = s.engines := by rfl
@[simp] theorem State.updBoot_lambs : (s.updBoot f).lambs = s.lambs := by rfl
@[simp] theorem State.updBoot_cores : (s.updBoot f).cores = s.cores := by rfl
@[simp] theorem State.updBoot_bantam : (s.updBoot f).bantam = s.bantam := by rfl
@[simp] theorem State.updBoot_adders : (s.updBoot f).adders = s.adders := by rfl
@[simp] theorem State.updBoot_stacks : (s.updBoot f).hbm = s.hbm := by rfl
@[simp] theorem State.updBoot_stores : (s.updBoot f).stores = s.stores := by rfl
@[simp] theorem State.updBoot_caches : (s.updBoot f).caches = s.caches := by rfl
@[simp] theorem State.updBoot_pcOwner : (s.updBoot f).pcOwner = s.pcOwner := by rfl
@[simp] theorem State.updBoot_wayOwner : (s.updBoot f).wayOwner = s.wayOwner := by rfl
@[simp] theorem State.updBoot_grants : (s.updBoot f).grants = s.grants := by rfl
@[simp] theorem State.updBoot_windows : (s.updBoot f).windows = s.windows := by rfl
@[simp] theorem State.updBoot_flying : (s.updBoot f).flying = s.flying := by rfl
@[simp] theorem State.updBoot_ctxs : (s.updBoot f).ctxs = s.ctxs := by rfl
@[simp] theorem State.updBoot_fns : (s.updBoot f).fns = s.fns := by rfl
@[simp] theorem State.updBoot_cards : (s.updBoot f).cards = s.cards := by rfl
@[simp] theorem State.updBoot_strait : (s.updBoot f).strait = s.strait := by rfl
@[simp] theorem State.updBoot_uarts : (s.updBoot f).uarts = s.uarts := by rfl
@[simp] theorem State.updBoot_holmMem : (s.updBoot f).holmMem = s.holmMem := by rfl
@[simp] theorem State.updBoot_inject : (s.updBoot f).inject = s.inject := by rfl
@[simp] theorem State.updBoot_repair : (s.updBoot f).repair = s.repair := by rfl
@[simp] theorem State.updBoot_bg : (s.updBoot f).bg = s.bg := by rfl
@[simp] theorem State.updBoot_power : (s.updBoot f).power = s.power := by rfl
@[simp] theorem State.updBoot_rack : (s.updBoot f).rack = s.rack := by rfl
end

/-! `State.updSlot` changes `boot` only. -/

section
variable (s : State) (n : Nat) (f : SlotSt → SlotSt)
@[simp] theorem State.slot_updSlot_same : (s.updSlot n f).slot n = f (s.slot n) := by simp [State.slot, State.updSlot, State.updBoot]
theorem State.slot_updSlot_other (j : Nat) (h : j ≠ n) : (s.updSlot n f).slot j = s.slot j := by simp [State.slot, State.updSlot, State.updBoot, h]
@[simp] theorem State.updSlot_pending : (s.updSlot n f).pending = s.pending := by rfl
@[simp] theorem State.updSlot_free : (s.updSlot n f).free = s.free := by rfl
@[simp] theorem State.updSlot_clock : (s.updSlot n f).clock = s.clock := by rfl
@[simp] theorem State.updSlot_recd : (s.updSlot n f).recd = s.recd := by rfl
@[simp] theorem State.updSlot_dict : (s.updSlot n f).dict = s.dict := by rfl
@[simp] theorem State.updSlot_out : (s.updSlot n f).out = s.out := by rfl
@[simp] theorem State.updSlot_mem : (s.updSlot n f).mem = s.mem := by rfl
@[simp] theorem State.updSlot_bad : (s.updSlot n f).bad = s.bad := by rfl
@[simp] theorem State.updSlot_frames : (s.updSlot n f).frames = s.frames := by rfl
@[simp] theorem State.updSlot_deferred : (s.updSlot n f).deferred = s.deferred := by rfl
@[simp] theorem State.updSlot_tokens : (s.updSlot n f).tokens = s.tokens := by rfl
@[simp] theorem State.updSlot_pages : (s.updSlot n f).pages = s.pages := by rfl
@[simp] theorem State.updSlot_shape : (s.updSlot n f).shape = s.shape := by rfl
@[simp] theorem State.updSlot_isles : (s.updSlot n f).isles = s.isles := by rfl
@[simp] theorem State.updSlot_sounds : (s.updSlot n f).sounds = s.sounds := by rfl
@[simp] theorem State.updSlot_engines : (s.updSlot n f).engines = s.engines := by rfl
@[simp] theorem State.updSlot_lambs : (s.updSlot n f).lambs = s.lambs := by rfl
@[simp] theorem State.updSlot_cores : (s.updSlot n f).cores = s.cores := by rfl
@[simp] theorem State.updSlot_bantam : (s.updSlot n f).bantam = s.bantam := by rfl
@[simp] theorem State.updSlot_adders : (s.updSlot n f).adders = s.adders := by rfl
@[simp] theorem State.updSlot_stacks : (s.updSlot n f).hbm = s.hbm := by rfl
@[simp] theorem State.updSlot_stores : (s.updSlot n f).stores = s.stores := by rfl
@[simp] theorem State.updSlot_caches : (s.updSlot n f).caches = s.caches := by rfl
@[simp] theorem State.updSlot_pcOwner : (s.updSlot n f).pcOwner = s.pcOwner := by rfl
@[simp] theorem State.updSlot_wayOwner : (s.updSlot n f).wayOwner = s.wayOwner := by rfl
@[simp] theorem State.updSlot_grants : (s.updSlot n f).grants = s.grants := by rfl
@[simp] theorem State.updSlot_windows : (s.updSlot n f).windows = s.windows := by rfl
@[simp] theorem State.updSlot_flying : (s.updSlot n f).flying = s.flying := by rfl
@[simp] theorem State.updSlot_ctxs : (s.updSlot n f).ctxs = s.ctxs := by rfl
@[simp] theorem State.updSlot_fns : (s.updSlot n f).fns = s.fns := by rfl
@[simp] theorem State.updSlot_cards : (s.updSlot n f).cards = s.cards := by rfl
@[simp] theorem State.updSlot_strait : (s.updSlot n f).strait = s.strait := by rfl
@[simp] theorem State.updSlot_uarts : (s.updSlot n f).uarts = s.uarts := by rfl
@[simp] theorem State.updSlot_holmMem : (s.updSlot n f).holmMem = s.holmMem := by rfl
@[simp] theorem State.updSlot_inject : (s.updSlot n f).inject = s.inject := by rfl
@[simp] theorem State.updSlot_repair : (s.updSlot n f).repair = s.repair := by rfl
@[simp] theorem State.updSlot_bg : (s.updSlot n f).bg = s.bg := by rfl
@[simp] theorem State.updSlot_power : (s.updSlot n f).power = s.power := by rfl
@[simp] theorem State.updSlot_rack : (s.updSlot n f).rack = s.rack := by rfl
end

/-! `State.updRack` changes `rack` only. -/

section
variable (s : State) (f : RackSt → RackSt)
@[simp] theorem State.updRack_pending : (s.updRack f).pending = s.pending := by rfl
@[simp] theorem State.updRack_free : (s.updRack f).free = s.free := by rfl
@[simp] theorem State.updRack_clock : (s.updRack f).clock = s.clock := by rfl
@[simp] theorem State.updRack_recd : (s.updRack f).recd = s.recd := by rfl
@[simp] theorem State.updRack_dict : (s.updRack f).dict = s.dict := by rfl
@[simp] theorem State.updRack_out : (s.updRack f).out = s.out := by rfl
@[simp] theorem State.updRack_mem : (s.updRack f).mem = s.mem := by rfl
@[simp] theorem State.updRack_bad : (s.updRack f).bad = s.bad := by rfl
@[simp] theorem State.updRack_frames : (s.updRack f).frames = s.frames := by rfl
@[simp] theorem State.updRack_deferred : (s.updRack f).deferred = s.deferred := by rfl
@[simp] theorem State.updRack_tokens : (s.updRack f).tokens = s.tokens := by rfl
@[simp] theorem State.updRack_pages : (s.updRack f).pages = s.pages := by rfl
@[simp] theorem State.updRack_shape : (s.updRack f).shape = s.shape := by rfl
@[simp] theorem State.updRack_isles : (s.updRack f).isles = s.isles := by rfl
@[simp] theorem State.updRack_sounds : (s.updRack f).sounds = s.sounds := by rfl
@[simp] theorem State.updRack_engines : (s.updRack f).engines = s.engines := by rfl
@[simp] theorem State.updRack_lambs : (s.updRack f).lambs = s.lambs := by rfl
@[simp] theorem State.updRack_cores : (s.updRack f).cores = s.cores := by rfl
@[simp] theorem State.updRack_bantam : (s.updRack f).bantam = s.bantam := by rfl
@[simp] theorem State.updRack_adders : (s.updRack f).adders = s.adders := by rfl
@[simp] theorem State.updRack_stacks : (s.updRack f).hbm = s.hbm := by rfl
@[simp] theorem State.updRack_stores : (s.updRack f).stores = s.stores := by rfl
@[simp] theorem State.updRack_caches : (s.updRack f).caches = s.caches := by rfl
@[simp] theorem State.updRack_pcOwner : (s.updRack f).pcOwner = s.pcOwner := by rfl
@[simp] theorem State.updRack_wayOwner : (s.updRack f).wayOwner = s.wayOwner := by rfl
@[simp] theorem State.updRack_grants : (s.updRack f).grants = s.grants := by rfl
@[simp] theorem State.updRack_windows : (s.updRack f).windows = s.windows := by rfl
@[simp] theorem State.updRack_flying : (s.updRack f).flying = s.flying := by rfl
@[simp] theorem State.updRack_ctxs : (s.updRack f).ctxs = s.ctxs := by rfl
@[simp] theorem State.updRack_fns : (s.updRack f).fns = s.fns := by rfl
@[simp] theorem State.updRack_cards : (s.updRack f).cards = s.cards := by rfl
@[simp] theorem State.updRack_strait : (s.updRack f).strait = s.strait := by rfl
@[simp] theorem State.updRack_uarts : (s.updRack f).uarts = s.uarts := by rfl
@[simp] theorem State.updRack_holmMem : (s.updRack f).holmMem = s.holmMem := by rfl
@[simp] theorem State.updRack_inject : (s.updRack f).inject = s.inject := by rfl
@[simp] theorem State.updRack_repair : (s.updRack f).repair = s.repair := by rfl
@[simp] theorem State.updRack_bg : (s.updRack f).bg = s.bg := by rfl
@[simp] theorem State.updRack_power : (s.updRack f).power = s.power := by rfl
@[simp] theorem State.updRack_boot : (s.updRack f).boot = s.boot := by rfl
end

/-! `State.updInject` changes `inject` only. -/

section
variable (s : State) (f : InjectSt → InjectSt)
@[simp] theorem State.updInject_pending : (s.updInject f).pending = s.pending := by rfl
@[simp] theorem State.updInject_free : (s.updInject f).free = s.free := by rfl
@[simp] theorem State.updInject_clock : (s.updInject f).clock = s.clock := by rfl
@[simp] theorem State.updInject_recd : (s.updInject f).recd = s.recd := by rfl
@[simp] theorem State.updInject_dict : (s.updInject f).dict = s.dict := by rfl
@[simp] theorem State.updInject_out : (s.updInject f).out = s.out := by rfl
@[simp] theorem State.updInject_mem : (s.updInject f).mem = s.mem := by rfl
@[simp] theorem State.updInject_bad : (s.updInject f).bad = s.bad := by rfl
@[simp] theorem State.updInject_frames : (s.updInject f).frames = s.frames := by rfl
@[simp] theorem State.updInject_deferred : (s.updInject f).deferred = s.deferred := by rfl
@[simp] theorem State.updInject_tokens : (s.updInject f).tokens = s.tokens := by rfl
@[simp] theorem State.updInject_pages : (s.updInject f).pages = s.pages := by rfl
@[simp] theorem State.updInject_shape : (s.updInject f).shape = s.shape := by rfl
@[simp] theorem State.updInject_isles : (s.updInject f).isles = s.isles := by rfl
@[simp] theorem State.updInject_sounds : (s.updInject f).sounds = s.sounds := by rfl
@[simp] theorem State.updInject_engines : (s.updInject f).engines = s.engines := by rfl
@[simp] theorem State.updInject_lambs : (s.updInject f).lambs = s.lambs := by rfl
@[simp] theorem State.updInject_cores : (s.updInject f).cores = s.cores := by rfl
@[simp] theorem State.updInject_bantam : (s.updInject f).bantam = s.bantam := by rfl
@[simp] theorem State.updInject_adders : (s.updInject f).adders = s.adders := by rfl
@[simp] theorem State.updInject_stacks : (s.updInject f).hbm = s.hbm := by rfl
@[simp] theorem State.updInject_stores : (s.updInject f).stores = s.stores := by rfl
@[simp] theorem State.updInject_caches : (s.updInject f).caches = s.caches := by rfl
@[simp] theorem State.updInject_pcOwner : (s.updInject f).pcOwner = s.pcOwner := by rfl
@[simp] theorem State.updInject_wayOwner : (s.updInject f).wayOwner = s.wayOwner := by rfl
@[simp] theorem State.updInject_grants : (s.updInject f).grants = s.grants := by rfl
@[simp] theorem State.updInject_windows : (s.updInject f).windows = s.windows := by rfl
@[simp] theorem State.updInject_flying : (s.updInject f).flying = s.flying := by rfl
@[simp] theorem State.updInject_ctxs : (s.updInject f).ctxs = s.ctxs := by rfl
@[simp] theorem State.updInject_fns : (s.updInject f).fns = s.fns := by rfl
@[simp] theorem State.updInject_cards : (s.updInject f).cards = s.cards := by rfl
@[simp] theorem State.updInject_strait : (s.updInject f).strait = s.strait := by rfl
@[simp] theorem State.updInject_uarts : (s.updInject f).uarts = s.uarts := by rfl
@[simp] theorem State.updInject_holmMem : (s.updInject f).holmMem = s.holmMem := by rfl
@[simp] theorem State.updInject_repair : (s.updInject f).repair = s.repair := by rfl
@[simp] theorem State.updInject_bg : (s.updInject f).bg = s.bg := by rfl
@[simp] theorem State.updInject_power : (s.updInject f).power = s.power := by rfl
@[simp] theorem State.updInject_boot : (s.updInject f).boot = s.boot := by rfl
@[simp] theorem State.updInject_rack : (s.updInject f).rack = s.rack := by rfl
end

/-! `State.updClock` changes `clock` only. -/

section
variable (s : State) (f : Clock → Clock)
@[simp] theorem State.updClock_pending : (s.updClock f).pending = s.pending := by rfl
@[simp] theorem State.updClock_free : (s.updClock f).free = s.free := by rfl
@[simp] theorem State.updClock_recd : (s.updClock f).recd = s.recd := by rfl
@[simp] theorem State.updClock_dict : (s.updClock f).dict = s.dict := by rfl
@[simp] theorem State.updClock_out : (s.updClock f).out = s.out := by rfl
@[simp] theorem State.updClock_mem : (s.updClock f).mem = s.mem := by rfl
@[simp] theorem State.updClock_bad : (s.updClock f).bad = s.bad := by rfl
@[simp] theorem State.updClock_frames : (s.updClock f).frames = s.frames := by rfl
@[simp] theorem State.updClock_deferred : (s.updClock f).deferred = s.deferred := by rfl
@[simp] theorem State.updClock_tokens : (s.updClock f).tokens = s.tokens := by rfl
@[simp] theorem State.updClock_pages : (s.updClock f).pages = s.pages := by rfl
@[simp] theorem State.updClock_shape : (s.updClock f).shape = s.shape := by rfl
@[simp] theorem State.updClock_isles : (s.updClock f).isles = s.isles := by rfl
@[simp] theorem State.updClock_sounds : (s.updClock f).sounds = s.sounds := by rfl
@[simp] theorem State.updClock_engines : (s.updClock f).engines = s.engines := by rfl
@[simp] theorem State.updClock_lambs : (s.updClock f).lambs = s.lambs := by rfl
@[simp] theorem State.updClock_cores : (s.updClock f).cores = s.cores := by rfl
@[simp] theorem State.updClock_bantam : (s.updClock f).bantam = s.bantam := by rfl
@[simp] theorem State.updClock_adders : (s.updClock f).adders = s.adders := by rfl
@[simp] theorem State.updClock_stacks : (s.updClock f).hbm = s.hbm := by rfl
@[simp] theorem State.updClock_stores : (s.updClock f).stores = s.stores := by rfl
@[simp] theorem State.updClock_caches : (s.updClock f).caches = s.caches := by rfl
@[simp] theorem State.updClock_pcOwner : (s.updClock f).pcOwner = s.pcOwner := by rfl
@[simp] theorem State.updClock_wayOwner : (s.updClock f).wayOwner = s.wayOwner := by rfl
@[simp] theorem State.updClock_grants : (s.updClock f).grants = s.grants := by rfl
@[simp] theorem State.updClock_windows : (s.updClock f).windows = s.windows := by rfl
@[simp] theorem State.updClock_flying : (s.updClock f).flying = s.flying := by rfl
@[simp] theorem State.updClock_ctxs : (s.updClock f).ctxs = s.ctxs := by rfl
@[simp] theorem State.updClock_fns : (s.updClock f).fns = s.fns := by rfl
@[simp] theorem State.updClock_cards : (s.updClock f).cards = s.cards := by rfl
@[simp] theorem State.updClock_strait : (s.updClock f).strait = s.strait := by rfl
@[simp] theorem State.updClock_uarts : (s.updClock f).uarts = s.uarts := by rfl
@[simp] theorem State.updClock_holmMem : (s.updClock f).holmMem = s.holmMem := by rfl
@[simp] theorem State.updClock_inject : (s.updClock f).inject = s.inject := by rfl
@[simp] theorem State.updClock_repair : (s.updClock f).repair = s.repair := by rfl
@[simp] theorem State.updClock_bg : (s.updClock f).bg = s.bg := by rfl
@[simp] theorem State.updClock_power : (s.updClock f).power = s.power := by rfl
@[simp] theorem State.updClock_boot : (s.updClock f).boot = s.boot := by rfl
@[simp] theorem State.updClock_rack : (s.updClock f).rack = s.rack := by rfl
end

/-! `State.updStore` changes `recd` only. -/

section
variable (s : State) (f : Store → Store)
@[simp] theorem State.updStore_pending : (s.updStore f).pending = s.pending := by rfl
@[simp] theorem State.updStore_free : (s.updStore f).free = s.free := by rfl
@[simp] theorem State.updStore_clock : (s.updStore f).clock = s.clock := by rfl
@[simp] theorem State.updStore_dict : (s.updStore f).dict = s.dict := by rfl
@[simp] theorem State.updStore_out : (s.updStore f).out = s.out := by rfl
@[simp] theorem State.updStore_mem : (s.updStore f).mem = s.mem := by rfl
@[simp] theorem State.updStore_bad : (s.updStore f).bad = s.bad := by rfl
@[simp] theorem State.updStore_frames : (s.updStore f).frames = s.frames := by rfl
@[simp] theorem State.updStore_deferred : (s.updStore f).deferred = s.deferred := by rfl
@[simp] theorem State.updStore_tokens : (s.updStore f).tokens = s.tokens := by rfl
@[simp] theorem State.updStore_pages : (s.updStore f).pages = s.pages := by rfl
@[simp] theorem State.updStore_shape : (s.updStore f).shape = s.shape := by rfl
@[simp] theorem State.updStore_isles : (s.updStore f).isles = s.isles := by rfl
@[simp] theorem State.updStore_sounds : (s.updStore f).sounds = s.sounds := by rfl
@[simp] theorem State.updStore_engines : (s.updStore f).engines = s.engines := by rfl
@[simp] theorem State.updStore_lambs : (s.updStore f).lambs = s.lambs := by rfl
@[simp] theorem State.updStore_cores : (s.updStore f).cores = s.cores := by rfl
@[simp] theorem State.updStore_bantam : (s.updStore f).bantam = s.bantam := by rfl
@[simp] theorem State.updStore_adders : (s.updStore f).adders = s.adders := by rfl
@[simp] theorem State.updStore_stacks : (s.updStore f).hbm = s.hbm := by rfl
@[simp] theorem State.updStore_stores : (s.updStore f).stores = s.stores := by rfl
@[simp] theorem State.updStore_caches : (s.updStore f).caches = s.caches := by rfl
@[simp] theorem State.updStore_pcOwner : (s.updStore f).pcOwner = s.pcOwner := by rfl
@[simp] theorem State.updStore_wayOwner : (s.updStore f).wayOwner = s.wayOwner := by rfl
@[simp] theorem State.updStore_grants : (s.updStore f).grants = s.grants := by rfl
@[simp] theorem State.updStore_windows : (s.updStore f).windows = s.windows := by rfl
@[simp] theorem State.updStore_flying : (s.updStore f).flying = s.flying := by rfl
@[simp] theorem State.updStore_ctxs : (s.updStore f).ctxs = s.ctxs := by rfl
@[simp] theorem State.updStore_fns : (s.updStore f).fns = s.fns := by rfl
@[simp] theorem State.updStore_cards : (s.updStore f).cards = s.cards := by rfl
@[simp] theorem State.updStore_strait : (s.updStore f).strait = s.strait := by rfl
@[simp] theorem State.updStore_uarts : (s.updStore f).uarts = s.uarts := by rfl
@[simp] theorem State.updStore_holmMem : (s.updStore f).holmMem = s.holmMem := by rfl
@[simp] theorem State.updStore_inject : (s.updStore f).inject = s.inject := by rfl
@[simp] theorem State.updStore_repair : (s.updStore f).repair = s.repair := by rfl
@[simp] theorem State.updStore_bg : (s.updStore f).bg = s.bg := by rfl
@[simp] theorem State.updStore_power : (s.updStore f).power = s.power := by rfl
@[simp] theorem State.updStore_boot : (s.updStore f).boot = s.boot := by rfl
@[simp] theorem State.updStore_rack : (s.updStore f).rack = s.rack := by rfl
end

/-! `State.setHold` changes `power` only. -/

section
variable (s : State) (sub : Nat) (h : HoldState) (ready : Bool)
@[simp] theorem State.setHold_pending : (s.setHold sub h ready).pending = s.pending := by rfl
@[simp] theorem State.setHold_free : (s.setHold sub h ready).free = s.free := by rfl
@[simp] theorem State.setHold_clock : (s.setHold sub h ready).clock = s.clock := by rfl
@[simp] theorem State.setHold_recd : (s.setHold sub h ready).recd = s.recd := by rfl
@[simp] theorem State.setHold_dict : (s.setHold sub h ready).dict = s.dict := by rfl
@[simp] theorem State.setHold_out : (s.setHold sub h ready).out = s.out := by rfl
@[simp] theorem State.setHold_mem : (s.setHold sub h ready).mem = s.mem := by rfl
@[simp] theorem State.setHold_bad : (s.setHold sub h ready).bad = s.bad := by rfl
@[simp] theorem State.setHold_frames : (s.setHold sub h ready).frames = s.frames := by rfl
@[simp] theorem State.setHold_deferred : (s.setHold sub h ready).deferred = s.deferred := by rfl
@[simp] theorem State.setHold_tokens : (s.setHold sub h ready).tokens = s.tokens := by rfl
@[simp] theorem State.setHold_pages : (s.setHold sub h ready).pages = s.pages := by rfl
@[simp] theorem State.setHold_shape : (s.setHold sub h ready).shape = s.shape := by rfl
@[simp] theorem State.setHold_isles : (s.setHold sub h ready).isles = s.isles := by rfl
@[simp] theorem State.setHold_sounds : (s.setHold sub h ready).sounds = s.sounds := by rfl
@[simp] theorem State.setHold_engines : (s.setHold sub h ready).engines = s.engines := by rfl
@[simp] theorem State.setHold_lambs : (s.setHold sub h ready).lambs = s.lambs := by rfl
@[simp] theorem State.setHold_cores : (s.setHold sub h ready).cores = s.cores := by rfl
@[simp] theorem State.setHold_bantam : (s.setHold sub h ready).bantam = s.bantam := by rfl
@[simp] theorem State.setHold_adders : (s.setHold sub h ready).adders = s.adders := by rfl
@[simp] theorem State.setHold_stacks : (s.setHold sub h ready).hbm = s.hbm := by rfl
@[simp] theorem State.setHold_stores : (s.setHold sub h ready).stores = s.stores := by rfl
@[simp] theorem State.setHold_caches : (s.setHold sub h ready).caches = s.caches := by rfl
@[simp] theorem State.setHold_grants : (s.setHold sub h ready).grants = s.grants := by rfl
@[simp] theorem State.setHold_windows : (s.setHold sub h ready).windows = s.windows := by rfl
@[simp] theorem State.setHold_flying : (s.setHold sub h ready).flying = s.flying := by rfl
@[simp] theorem State.setHold_ctxs : (s.setHold sub h ready).ctxs = s.ctxs := by rfl
@[simp] theorem State.setHold_fns : (s.setHold sub h ready).fns = s.fns := by rfl
@[simp] theorem State.setHold_cards : (s.setHold sub h ready).cards = s.cards := by rfl
@[simp] theorem State.setHold_strait : (s.setHold sub h ready).strait = s.strait := by rfl
@[simp] theorem State.setHold_uarts : (s.setHold sub h ready).uarts = s.uarts := by rfl
@[simp] theorem State.setHold_holmMem : (s.setHold sub h ready).holmMem = s.holmMem := by rfl
@[simp] theorem State.setHold_inject : (s.setHold sub h ready).inject = s.inject := by rfl
@[simp] theorem State.setHold_repair : (s.setHold sub h ready).repair = s.repair := by rfl
@[simp] theorem State.setHold_bg : (s.setHold sub h ready).bg = s.bg := by rfl
@[simp] theorem State.setHold_boot : (s.setHold sub h ready).boot = s.boot := by rfl
@[simp] theorem State.setHold_rack : (s.setHold sub h ready).rack = s.rack := by rfl
end

end Sys2Proof.Machine
end

