-- ==== Sys2Proof/Laws/Folds.lean ====
section
/-! SUPPORT. The queue, the memory and the buffers of the Holm under folds and choices over states. -/

namespace Sys2Proof.Machine

@[simp] theorem foldl_pending {α : Type} (f : State → α → State) (h : ∀ s a, (f s a).pending = s.pending) (l : List α) (s : State) :
    (l.foldl f s).pending = s.pending := by
  induction l generalizing s with
  | nil => rfl
  | cons a l ih => rw [List.foldl_cons, ih, h]
theorem ite_pending (c : Prop) [Decidable c] (a b : State) : (if c then a else b).pending = if c then a.pending else b.pending := by split <;> rfl
theorem foldl1_pending {α β : Type} (f : State × β → α → State × β) (h : ∀ s a, (f s a).1.pending = s.1.pending) (l : List α) (s : State × β) :
    (l.foldl f s).1.pending = s.1.pending := by
  induction l generalizing s with
  | nil => rfl
  | cons a l ih => rw [List.foldl_cons, ih, h]

@[simp] theorem foldl_mem {α : Type} (f : State → α → State) (h : ∀ s a, (f s a).mem = s.mem) (l : List α) (s : State) :
    (l.foldl f s).mem = s.mem := by
  induction l generalizing s with
  | nil => rfl
  | cons a l ih => rw [List.foldl_cons, ih, h]
theorem ite_mem (c : Prop) [Decidable c] (a b : State) : (if c then a else b).mem = if c then a.mem else b.mem := by split <;> rfl
theorem foldl1_mem {α β : Type} (f : State × β → α → State × β) (h : ∀ s a, (f s a).1.mem = s.1.mem) (l : List α) (s : State × β) :
    (l.foldl f s).1.mem = s.1.mem := by
  induction l generalizing s with
  | nil => rfl
  | cons a l ih => rw [List.foldl_cons, ih, h]

@[simp] theorem foldl_holmMem {α : Type} (f : State → α → State) (h : ∀ s a, (f s a).holmMem = s.holmMem) (l : List α) (s : State) :
    (l.foldl f s).holmMem = s.holmMem := by
  induction l generalizing s with
  | nil => rfl
  | cons a l ih => rw [List.foldl_cons, ih, h]
theorem ite_holmMem (c : Prop) [Decidable c] (a b : State) : (if c then a else b).holmMem = if c then a.holmMem else b.holmMem := by split <;> rfl
theorem foldl1_holmMem {α β : Type} (f : State × β → α → State × β) (h : ∀ s a, (f s a).1.holmMem = s.1.holmMem) (l : List α) (s : State × β) :
    (l.foldl f s).1.holmMem = s.1.holmMem := by
  induction l generalizing s with
  | nil => rfl
  | cons a l ih => rw [List.foldl_cons, ih, h]

theorem foldl_memWf {α : Type} (f : State → α → State) (h : ∀ s a, s.mem.wf = true → (f s a).mem.wf = true) (l : List α) (s : State)
    (hw : s.mem.wf = true) : (l.foldl f s).mem.wf = true := by
  induction l generalizing s with
  | nil => exact hw
  | cons a l ih => exact ih _ (h _ _ hw)
theorem foldl1_memWf {α β : Type} (f : State × β → α → State × β) (h : ∀ s a, s.1.mem.wf = true → (f s a).1.mem.wf = true) (l : List α)
    (s : State × β) (hw : s.1.mem.wf = true) : (l.foldl f s).1.mem.wf = true := by
  induction l generalizing s with
  | nil => exact hw
  | cons a l ih => exact ih _ (h _ _ hw)
theorem ite_memWf (c : Prop) [Decidable c] (a b : State) (ha : a.mem.wf = true) (hb : b.mem.wf = true) :
    (if c then a else b).mem.wf = true := by split <;> assumption

theorem foldl_holmMemWf {α : Type} (f : State → α → State) (h : ∀ s a, s.holmMem.wf = true → (f s a).holmMem.wf = true) (l : List α) (s : State)
    (hw : s.holmMem.wf = true) : (l.foldl f s).holmMem.wf = true := by
  induction l generalizing s with
  | nil => exact hw
  | cons a l ih => exact ih _ (h _ _ hw)
theorem foldl1_holmMemWf {α β : Type} (f : State × β → α → State × β) (h : ∀ s a, s.1.holmMem.wf = true → (f s a).1.holmMem.wf = true) (l : List α)
    (s : State × β) (hw : s.1.holmMem.wf = true) : (l.foldl f s).1.holmMem.wf = true := by
  induction l generalizing s with
  | nil => exact hw
  | cons a l ih => exact ih _ (h _ _ hw)
theorem ite_holmMemWf (c : Prop) [Decidable c] (a b : State) (ha : a.holmMem.wf = true) (hb : b.holmMem.wf = true) :
    (if c then a else b).holmMem.wf = true := by split <;> assumption

end Sys2Proof.Machine
end

