-- ==== Sys2Proof/Laws/KeepRecords.lean ====
section
/-! SUPPORT. What the operations of records, jobs and leases leave alone: the queue of commands, and the memory and the
buffers of the Holm, which keep their canonical form where they are written. -/

namespace Sys2Proof.Machine

@[simp] theorem State.vector_pending (s : State) (k v : Nat) :
    (s.vector k v).pending = s.pending := by simp [State.vector, ite_pending]
@[simp] theorem State.vector_mem (s : State) (k v : Nat) :
    (s.vector k v).mem = s.mem := by simp [State.vector, ite_mem]
@[simp] theorem State.vector_holmMem (s : State) (k v : Nat) :
    (s.vector k v).holmMem = s.holmMem := by simp [State.vector, ite_holmMem]
@[simp] theorem State.actionDone_pending (s : State) (idx sub : Nat) :
    (s.actionDone idx sub).pending = s.pending := by rfl
@[simp] theorem State.actionDone_mem (s : State) (idx sub : Nat) :
    (s.actionDone idx sub).mem = s.mem := by rfl
@[simp] theorem State.actionDone_holmMem (s : State) (idx sub : Nat) :
    (s.actionDone idx sub).holmMem = s.holmMem := by rfl
@[simp] theorem State.offer_pending (s : State) (dest : Nat) (r : Rec) (take : State → State) (htake : ∀ t, (take t).pending = t.pending) :
    (s.offer dest r take).pending = s.pending := by
  unfold State.offer
  (try dsimp only)
  repeat' (first | (simp [ite_pending, *]; done) | split)
@[simp] theorem State.offer_mem (s : State) (dest : Nat) (r : Rec) (take : State → State) (htake : ∀ t, (take t).mem = t.mem) :
    (s.offer dest r take).mem = s.mem := by
  unfold State.offer
  (try dsimp only)
  repeat' (first | (simp [ite_mem, *]; done) | split)
@[simp] theorem State.offer_holmMem (s : State) (dest : Nat) (r : Rec) (take : State → State) (htake : ∀ t, (take t).holmMem = t.holmMem) :
    (s.offer dest r take).holmMem = s.holmMem := by
  unfold State.offer
  (try dsimp only)
  repeat' (first | (simp [ite_holmMem, *]; done) | split)
@[simp] theorem State.toFn_pending (s : State) (k : Nat) (r : Rec) :
    (s.toFn k r).pending = s.pending := by rfl
@[simp] theorem State.toFn_mem (s : State) (k : Nat) (r : Rec) :
    (s.toFn k r).mem = s.mem := by rfl
@[simp] theorem State.toFn_holmMem (s : State) (k : Nat) (r : Rec) :
    (s.toFn k r).holmMem = s.holmMem := by rfl
@[simp] theorem State.toChan_pending (s : State) (n : Nat) (r : Rec) :
    (s.toChan n r).pending = s.pending := by rfl
@[simp] theorem State.toChan_mem (s : State) (n : Nat) (r : Rec) :
    (s.toChan n r).mem = s.mem := by rfl
@[simp] theorem State.toChan_holmMem (s : State) (n : Nat) (r : Rec) :
    (s.toChan n r).holmMem = s.holmMem := by rfl
@[simp] theorem State.toConsole_pending (s : State) (r : Rec) :
    (s.toConsole r).pending = s.pending := by rfl
@[simp] theorem State.toConsole_mem (s : State) (r : Rec) :
    (s.toConsole r).mem = s.mem := by rfl
@[simp] theorem State.toConsole_holmMem (s : State) (r : Rec) :
    (s.toConsole r).holmMem = s.holmMem := by rfl
@[simp] theorem State.toStore_pending (s : State) (r : Rec) :
    (s.toStore r).pending = s.pending := by rfl
@[simp] theorem State.toStore_mem (s : State) (r : Rec) :
    (s.toStore r).mem = s.mem := by rfl
@[simp] theorem State.toStore_holmMem (s : State) (r : Rec) :
    (s.toStore r).holmMem = s.holmMem := by rfl
@[simp] theorem State.offerFns_pending (s : State) (r : Rec) :
    (s.offerFns r).pending = s.pending := by
  unfold State.offerFns
  (try dsimp only)
  repeat' (first | (simp [ite_pending, *]; done) | split)
@[simp] theorem State.offerFns_mem (s : State) (r : Rec) :
    (s.offerFns r).mem = s.mem := by
  unfold State.offerFns
  (try dsimp only)
  repeat' (first | (simp [ite_mem, *]; done) | split)
@[simp] theorem State.offerFns_holmMem (s : State) (r : Rec) :
    (s.offerFns r).holmMem = s.holmMem := by
  unfold State.offerFns
  (try dsimp only)
  repeat' (first | (simp [ite_holmMem, *]; done) | split)
@[simp] theorem State.offerChans_pending (s : State) (r : Rec) :
    (s.offerChans r).pending = s.pending := by simp [State.offerChans, ite_pending]
@[simp] theorem State.offerChans_mem (s : State) (r : Rec) :
    (s.offerChans r).mem = s.mem := by simp [State.offerChans, ite_mem]
@[simp] theorem State.offerChans_holmMem (s : State) (r : Rec) :
    (s.offerChans r).holmMem = s.holmMem := by simp [State.offerChans, ite_holmMem]
@[simp] theorem State.deliver_pending (s : State) (r : Rec) :
    (s.deliver r).pending = s.pending := by simp [State.deliver, ite_pending]
@[simp] theorem State.deliver_mem (s : State) (r : Rec) :
    (s.deliver r).mem = s.mem := by simp [State.deliver, ite_mem]
@[simp] theorem State.deliver_holmMem (s : State) (r : Rec) :
    (s.deliver r).holmMem = s.holmMem := by simp [State.deliver, ite_holmMem]
@[simp] theorem State.openWindow_pending (s : State) (key : Nat) :
    (s.openWindow key).pending = s.pending := by rfl
@[simp] theorem State.openWindow_mem (s : State) (key : Nat) :
    (s.openWindow key).mem = s.mem := by rfl
@[simp] theorem State.openWindow_holmMem (s : State) (key : Nat) :
    (s.openWindow key).holmMem = s.holmMem := by rfl
@[simp] theorem State.occur_pending (s : State) (r : Rec) :
    (s.occur r).pending = s.pending := by
  unfold State.occur
  (try dsimp only)
  repeat' (first | (simp [ite_pending, *]; done) | split)
@[simp] theorem State.occur_mem (s : State) (r : Rec) :
    (s.occur r).mem = s.mem := by
  unfold State.occur
  (try dsimp only)
  repeat' (first | (simp [ite_mem, *]; done) | split)
@[simp] theorem State.occur_holmMem (s : State) (r : Rec) :
    (s.occur r).holmMem = s.holmMem := by
  unfold State.occur
  (try dsimp only)
  repeat' (first | (simp [ite_holmMem, *]; done) | split)
@[simp] theorem State.holdEvent_pending (s : State) (r : Rec) :
    (s.holdEvent r).pending = s.pending := by simp [State.holdEvent, ite_pending]
@[simp] theorem State.holdEvent_mem (s : State) (r : Rec) :
    (s.holdEvent r).mem = s.mem := by simp [State.holdEvent, ite_mem]
@[simp] theorem State.holdEvent_holmMem (s : State) (r : Rec) :
    (s.holdEvent r).holmMem = s.holmMem := by simp [State.holdEvent, ite_holmMem]
@[simp] theorem State.emit_pending (s : State) (code sev : Nat) (src : Source) (job : Option Nat) (vals : List Nat) :
    (s.emit code sev src job vals).pending = s.pending := by simp [State.emit, ite_pending]
@[simp] theorem State.emit_mem (s : State) (code sev : Nat) (src : Source) (job : Option Nat) (vals : List Nat) :
    (s.emit code sev src job vals).mem = s.mem := by simp [State.emit, ite_mem]
@[simp] theorem State.emit_holmMem (s : State) (code sev : Nat) (src : Source) (job : Option Nat) (vals : List Nat) :
    (s.emit code sev src job vals).holmMem = s.holmMem := by simp [State.emit, ite_holmMem]
@[simp] theorem State.voidRuns_pending (s : State) (p : Nat → Plan → Bool) :
    (s.voidRuns p).pending = s.pending := by simp [State.voidRuns, ite_pending]
@[simp] theorem State.voidRuns_mem (s : State) (p : Nat → Plan → Bool) :
    (s.voidRuns p).mem = s.mem := by simp [State.voidRuns, ite_mem]
@[simp] theorem State.voidRuns_holmMem (s : State) (p : Nat → Plan → Bool) :
    (s.voidRuns p).holmMem = s.holmMem := by simp [State.voidRuns, ite_holmMem]
@[simp] theorem State.dropReduces_pending (s : State) (c : Nat) :
    (s.dropReduces c).pending = s.pending := by rfl
@[simp] theorem State.dropReduces_mem (s : State) (c : Nat) :
    (s.dropReduces c).mem = s.mem := by rfl
@[simp] theorem State.dropReduces_holmMem (s : State) (c : Nat) :
    (s.dropReduces c).holmMem = s.holmMem := by rfl
@[simp] theorem State.haltJob_pending (s : State) (c code : Nat) :
    (s.haltJob c code).pending = s.pending := by
  unfold State.haltJob
  (try dsimp only)
  repeat' (first | (simp [*]; done) | split)
@[simp] theorem State.haltJob_mem (s : State) (c code : Nat) :
    (s.haltJob c code).mem = s.mem := by
  unfold State.haltJob
  (try dsimp only)
  repeat' (first | (simp [*]; done) | split)
@[simp] theorem State.haltJob_holmMem (s : State) (c code : Nat) :
    (s.haltJob c code).holmMem = s.holmMem := by
  unfold State.haltJob
  (try dsimp only)
  repeat' (first | (simp [*]; done) | split)
@[simp] theorem State.haltWhere_pending (s : State) (code : Nat) (p : Nat → Plan → Bool) :
    (s.haltWhere code p).pending = s.pending := by simp [State.haltWhere, ite_pending]
@[simp] theorem State.haltWhere_mem (s : State) (code : Nat) (p : Nat → Plan → Bool) :
    (s.haltWhere code p).mem = s.mem := by simp [State.haltWhere, ite_mem]
@[simp] theorem State.haltWhere_holmMem (s : State) (code : Nat) (p : Nat → Plan → Bool) :
    (s.haltWhere code p).holmMem = s.holmMem := by simp [State.haltWhere, ite_holmMem]
@[simp] theorem State.wakeCore_pending (s : State) (k : Nat) (source : Nat) :
    (s.wakeCore k source).pending = s.pending := by rfl
@[simp] theorem State.wakeCore_mem (s : State) (k : Nat) (source : Nat) :
    (s.wakeCore k source).mem = s.mem := by rfl
@[simp] theorem State.wakeCore_holmMem (s : State) (k : Nat) (source : Nat) :
    (s.wakeCore k source).holmMem = s.holmMem := by rfl
@[simp] theorem State.setToken_pending (s : State) (isle counter v : Nat) :
    (s.setToken isle counter v).pending = s.pending := by simp [State.setToken, ite_pending]
@[simp] theorem State.setToken_mem (s : State) (isle counter v : Nat) :
    (s.setToken isle counter v).mem = s.mem := by simp [State.setToken, ite_mem]
@[simp] theorem State.setToken_holmMem (s : State) (isle counter v : Nat) :
    (s.setToken isle counter v).holmMem = s.holmMem := by simp [State.setToken, ite_holmMem]
@[simp] theorem State.signal_pending (s : State) (c isle counter inc : Nat) :
    (s.signal c isle counter inc).pending = s.pending := by
  unfold State.signal
  (try dsimp only)
  repeat' (first | (simp [ite_pending, *]; done) | split)
@[simp] theorem State.signal_mem (s : State) (c isle counter inc : Nat) :
    (s.signal c isle counter inc).mem = s.mem := by
  unfold State.signal
  (try dsimp only)
  repeat' (first | (simp [ite_mem, *]; done) | split)
@[simp] theorem State.signal_holmMem (s : State) (c isle counter inc : Nat) :
    (s.signal c isle counter inc).holmMem = s.holmMem := by
  unfold State.signal
  (try dsimp only)
  repeat' (first | (simp [ite_holmMem, *]; done) | split)
@[simp] theorem State.bgCycle_pending (s : State) (activity isle inst : Nat) :
    (s.bgCycle activity isle inst).pending = s.pending := by rfl
@[simp] theorem State.bgCycle_mem (s : State) (activity isle inst : Nat) :
    (s.bgCycle activity isle inst).mem = s.mem := by rfl
@[simp] theorem State.bgCycle_holmMem (s : State) (activity isle inst : Nat) :
    (s.bgCycle activity isle inst).holmMem = s.holmMem := by rfl
@[simp] theorem State.bgInterrupt_pending (s : State) (activity isle inst : Nat) :
    (s.bgInterrupt activity isle inst).pending = s.pending := by rfl
@[simp] theorem State.bgInterrupt_mem (s : State) (activity isle inst : Nat) :
    (s.bgInterrupt activity isle inst).mem = s.mem := by rfl
@[simp] theorem State.bgInterrupt_holmMem (s : State) (activity isle inst : Nat) :
    (s.bgInterrupt activity isle inst).holmMem = s.holmMem := by rfl
@[simp] theorem State.countDisable_pending (s : State) (isle part : Nat) :
    (s.countDisable isle part).pending = s.pending := by rfl
@[simp] theorem State.countDisable_mem (s : State) (isle part : Nat) :
    (s.countDisable isle part).mem = s.mem := by rfl
@[simp] theorem State.countDisable_holmMem (s : State) (isle part : Nat) :
    (s.countDisable isle part).holmMem = s.holmMem := by rfl
@[simp] theorem State.releaseFrame_pending (s : State) (k : Nat) :
    (s.releaseFrame k).pending = s.pending := by simp [State.releaseFrame, ite_pending]
@[simp] theorem State.releaseFrame_mem (s : State) (k : Nat) :
    (s.releaseFrame k).mem = s.mem := by simp [State.releaseFrame, ite_mem]
@[simp] theorem State.releaseFrame_holmMem (s : State) (k : Nat) :
    (s.releaseFrame k).holmMem = s.holmMem := by simp [State.releaseFrame, ite_holmMem]
@[simp] theorem State.releaseLists_pending (s : State) (c : Nat) (lists : List Nat) :
    (s.releaseLists c lists).pending = s.pending := by
  unfold State.releaseLists
  (try dsimp only)
  repeat' (first | (simp [*]; done) | split)
@[simp] theorem State.releaseLists_mem (s : State) (c : Nat) (lists : List Nat) :
    (s.releaseLists c lists).mem = s.mem := by
  unfold State.releaseLists
  (try dsimp only)
  repeat' (first | (simp [*]; done) | split)
@[simp] theorem State.releaseLists_holmMem (s : State) (c : Nat) (lists : List Nat) :
    (s.releaseLists c lists).holmMem = s.holmMem := by
  unfold State.releaseLists
  (try dsimp only)
  repeat' (first | (simp [*]; done) | split)
@[simp] theorem State.takeOwners_pending (s : State) (c : Nat) (p : Plan) :
    (s.takeOwners c p).pending = s.pending := by rfl
@[simp] theorem State.takeOwners_mem (s : State) (c : Nat) (p : Plan) :
    (s.takeOwners c p).mem = s.mem := by rfl
@[simp] theorem State.takeOwners_holmMem (s : State) (c : Nat) (p : Plan) :
    (s.takeOwners c p).holmMem = s.holmMem := by rfl
@[simp] theorem State.releaseRun_pending (s : State) (c : Nat) :
    (s.releaseRun c).pending = s.pending := by
  unfold State.releaseRun
  (try dsimp only)
  repeat' (first | (simp [*]; done) | split)
@[simp] theorem State.releaseRun_mem (s : State) (c : Nat) :
    (s.releaseRun c).mem = s.mem := by
  unfold State.releaseRun
  (try dsimp only)
  repeat' (first | (simp [*]; done) | split)
@[simp] theorem State.releaseRun_holmMem (s : State) (c : Nat) :
    (s.releaseRun c).holmMem = s.holmMem := by
  unfold State.releaseRun
  (try dsimp only)
  repeat' (first | (simp [*]; done) | split)
@[simp] theorem State.report_pending (s : State) (c : Nat) (r : Rec) :
    (s.report c r).pending = s.pending := by simp [State.report, ite_pending]
@[simp] theorem State.report_mem (s : State) (c : Nat) (r : Rec) :
    (s.report c r).mem = s.mem := by simp [State.report, ite_mem]
@[simp] theorem State.report_holmMem (s : State) (c : Nat) (r : Rec) :
    (s.report c r).holmMem = s.holmMem := by simp [State.report, ite_holmMem]
@[simp] theorem State.completion_pending (s : State) (c code status : Nat) (refused nonRepro boundVoid : Bool) (tag planId bound : Nat) (detail : List Byte) (first : Nat) :
    (s.completion c code status refused nonRepro boundVoid tag planId bound detail first).pending = s.pending := by simp [State.completion]
@[simp] theorem State.completion_mem (s : State) (c code status : Nat) (refused nonRepro boundVoid : Bool) (tag planId bound : Nat) (detail : List Byte) (first : Nat) :
    (s.completion c code status refused nonRepro boundVoid tag planId bound detail first).mem = s.mem := by simp [State.completion]
@[simp] theorem State.completion_holmMem (s : State) (c code status : Nat) (refused nonRepro boundVoid : Bool) (tag planId bound : Nat) (detail : List Byte) (first : Nat) :
    (s.completion c code status refused nonRepro boundVoid tag planId bound detail first).holmMem = s.holmMem := by simp [State.completion]
@[simp] theorem State.runAccount_pending (s : State) (c : Nat) (r : Run) :
    (s.runAccount c r).pending = s.pending := by rfl
@[simp] theorem State.runAccount_mem (s : State) (c : Nat) (r : Run) :
    (s.runAccount c r).mem = s.mem := by rfl
@[simp] theorem State.runAccount_holmMem (s : State) (c : Nat) (r : Run) :
    (s.runAccount c r).holmMem = s.holmMem := by rfl
@[simp] theorem State.consume_pending (s : State) (c : Nat) :
    (s.consume c).pending = s.pending := by rfl
@[simp] theorem State.consume_mem (s : State) (c : Nat) :
    (s.consume c).mem = s.mem := by rfl
@[simp] theorem State.consume_holmMem (s : State) (c : Nat) :
    (s.consume c).holmMem = s.holmMem := by rfl
@[simp] theorem State.refuse_pending (s : State) (c code status : Nat) (planId : Nat) (detail : List Byte) :
    (s.refuse c code status planId detail).pending = s.pending := by simp [State.refuse]
@[simp] theorem State.refuse_mem (s : State) (c code status : Nat) (planId : Nat) (detail : List Byte) :
    (s.refuse c code status planId detail).mem = s.mem := by simp [State.refuse]
@[simp] theorem State.refuse_holmMem (s : State) (c code status : Nat) (planId : Nat) (detail : List Byte) :
    (s.refuse c code status planId detail).holmMem = s.holmMem := by simp [State.refuse]
@[simp] theorem State.returnLease_pending (s : State) (c : Nat) :
    (s.returnLease c).pending = s.pending := by rfl
@[simp] theorem State.returnLease_mem (s : State) (c : Nat) :
    (s.returnLease c).mem = s.mem := by rfl
@[simp] theorem State.returnLease_holmMem (s : State) (c : Nat) :
    (s.returnLease c).holmMem = s.holmMem := by rfl
@[simp] theorem State.endRecords_pending (s : State) (c : Nat) (p : Plan) (r : Run) (status : Nat) :
    (s.endRecords c p r status).pending = s.pending := by simp [State.endRecords, ite_pending]
@[simp] theorem State.endRecords_mem (s : State) (c : Nat) (p : Plan) (r : Run) (status : Nat) :
    (s.endRecords c p r status).mem = s.mem := by simp [State.endRecords, ite_mem]
@[simp] theorem State.endRecords_holmMem (s : State) (c : Nat) (p : Plan) (r : Run) (status : Nat) :
    (s.endRecords c p r status).holmMem = s.holmMem := by simp [State.endRecords, ite_holmMem]

end Sys2Proof.Machine
end

