-- ==== Sys2Proof/Laws/KeepPlans.lean ====
section
/-! SUPPORT. What the operations of the shape, injectors, links, plans and memory leave alone: the queue of commands, and the memory and the
buffers of the Holm, which keep their canonical form where they are written. -/

namespace Sys2Proof.Machine

@[simp] theorem State.refresh_pending (s : State) :
    (s.refresh).pending = s.pending := by simp [State.refresh, ite_pending]
@[simp] theorem State.refresh_mem (s : State) :
    (s.refresh).mem = s.mem := by simp [State.refresh, ite_mem]
@[simp] theorem State.refresh_holmMem (s : State) :
    (s.refresh).holmMem = s.holmMem := by simp [State.refresh, ite_holmMem]
@[simp] theorem State.setIsle_pending (s : State) (i : Nat) (st : IsleState) :
    (s.setIsle i st).pending = s.pending := by rfl
@[simp] theorem State.setIsle_mem (s : State) (i : Nat) (st : IsleState) :
    (s.setIsle i st).mem = s.mem := by rfl
@[simp] theorem State.setIsle_holmMem (s : State) (i : Nat) (st : IsleState) :
    (s.setIsle i st).holmMem = s.holmMem := by rfl
@[simp] theorem State.queueChange_pending (s : State) (ch : ShapeChange) :
    (s.queueChange ch).pending = s.pending := by
  unfold State.queueChange
  (try dsimp only)
  repeat' (first | (simp [ite_pending, *]; done) | split)
@[simp] theorem State.queueChange_mem (s : State) (ch : ShapeChange) :
    (s.queueChange ch).mem = s.mem := by
  unfold State.queueChange
  (try dsimp only)
  repeat' (first | (simp [ite_mem, *]; done) | split)
@[simp] theorem State.queueChange_holmMem (s : State) (ch : ShapeChange) :
    (s.queueChange ch).holmMem = s.holmMem := by
  unfold State.queueChange
  (try dsimp only)
  repeat' (first | (simp [ite_holmMem, *]; done) | split)
@[simp] theorem State.queueStranded_pending (s : State) :
    (s.queueStranded).pending = s.pending := by simp [State.queueStranded, ite_pending]
@[simp] theorem State.queueStranded_mem (s : State) :
    (s.queueStranded).mem = s.mem := by simp [State.queueStranded, ite_mem]
@[simp] theorem State.queueStranded_holmMem (s : State) :
    (s.queueStranded).holmMem = s.holmMem := by simp [State.queueStranded, ite_holmMem]
@[simp] theorem State.reshape_pending (s : State) (mask : Nat) (out : List Nat) :
    (s.reshape mask out).pending = s.pending := by simp [State.reshape, ite_pending]
@[simp] theorem State.reshape_mem (s : State) (mask : Nat) (out : List Nat) :
    (s.reshape mask out).mem = s.mem := by simp [State.reshape, ite_mem]
@[simp] theorem State.reshape_holmMem (s : State) (mask : Nat) (out : List Nat) :
    (s.reshape mask out).holmMem = s.holmMem := by simp [State.reshape, ite_holmMem]
@[simp] theorem State.removeNow_pending (s : State) (mask : Nat) (out : List Nat) :
    (s.removeNow mask out).pending = s.pending := by simp [State.removeNow, ite_pending]
@[simp] theorem State.removeNow_mem (s : State) (mask : Nat) (out : List Nat) :
    (s.removeNow mask out).mem = s.mem := by simp [State.removeNow, ite_mem]
@[simp] theorem State.removeNow_holmMem (s : State) (mask : Nat) (out : List Nat) :
    (s.removeNow mask out).holmMem = s.holmMem := by simp [State.removeNow, ite_holmMem]
@[simp] theorem State.applyChange_pending (s : State) (ch : ShapeChange) :
    (s.applyChange ch).pending = s.pending := by
  unfold State.applyChange
  (try dsimp only)
  repeat' (first | (simp [ite_pending, *]; done) | split)
@[simp] theorem State.applyChange_mem (s : State) (ch : ShapeChange) :
    (s.applyChange ch).mem = s.mem := by
  unfold State.applyChange
  (try dsimp only)
  repeat' (first | (simp [ite_mem, *]; done) | split)
@[simp] theorem State.applyChange_holmMem (s : State) (ch : ShapeChange) :
    (s.applyChange ch).holmMem = s.holmMem := by
  unfold State.applyChange
  (try dsimp only)
  repeat' (first | (simp [ite_holmMem, *]; done) | split)
@[simp] theorem State.plannedChange_pending (s : State) (ch : ShapeChange) :
    (s.plannedChange ch).pending = s.pending := by
  unfold State.plannedChange
  (try dsimp only)
  repeat' (first | (simp [ite_pending, *]; done) | split)
@[simp] theorem State.plannedChange_mem (s : State) (ch : ShapeChange) :
    (s.plannedChange ch).mem = s.mem := by
  unfold State.plannedChange
  (try dsimp only)
  repeat' (first | (simp [ite_mem, *]; done) | split)
@[simp] theorem State.plannedChange_holmMem (s : State) (ch : ShapeChange) :
    (s.plannedChange ch).holmMem = s.holmMem := by
  unfold State.plannedChange
  (try dsimp only)
  repeat' (first | (simp [ite_holmMem, *]; done) | split)
@[simp] theorem State.clearIsle_pending (s : State) (i : Nat) :
    (s.clearIsle i).pending = s.pending := by rfl
@[simp] theorem State.clearIsle_memWf (s : State) (i : Nat) (hw : s.mem.wf = true) :
    (s.clearIsle i).mem.wf = true := by simp [State.clearIsle, *]
@[simp] theorem State.clearIsle_holmMem (s : State) (i : Nat) :
    (s.clearIsle i).holmMem = s.holmMem := by rfl
@[simp] theorem State.powerOffIsle_pending (s : State) (i : Nat) :
    (s.powerOffIsle i).pending = s.pending := by rfl
@[simp] theorem State.powerOffIsle_memWf (s : State) (i : Nat) (hw : s.mem.wf = true) :
    (s.powerOffIsle i).mem.wf = true := by simp [State.powerOffIsle, *]
@[simp] theorem State.powerOffIsle_holmMem (s : State) (i : Nat) :
    (s.powerOffIsle i).holmMem = s.holmMem := by rfl
@[simp] theorem State.enterFailed_pending (s : State) (i : Nat) :
    (s.enterFailed i).pending = s.pending := by simp [State.enterFailed, ite_pending]
@[simp] theorem State.enterFailed_mem (s : State) (i : Nat) :
    (s.enterFailed i).mem = s.mem := by simp [State.enterFailed, ite_mem]
@[simp] theorem State.enterFailed_holmMem (s : State) (i : Nat) :
    (s.enterFailed i).holmMem = s.holmMem := by simp [State.enterFailed, ite_holmMem]
@[simp] theorem State.isleFault_pending (s : State) (i block : Nat) :
    (s.isleFault i block).pending = s.pending := by simp [State.isleFault, ite_pending]
@[simp] theorem State.isleFault_memWf (s : State) (i block : Nat) (hw : s.mem.wf = true) :
    (s.isleFault i block).mem.wf = true := by
  unfold State.isleFault
  (try dsimp only)
  repeat' (first | (simp [ite_mem, *]; done) | split)
@[simp] theorem State.isleFault_holmMem (s : State) (i block : Nat) :
    (s.isleFault i block).holmMem = s.holmMem := by simp [State.isleFault, ite_holmMem]
@[simp] theorem State.inject1_pending (s : State) (target inst dir layer : Nat) :
    (s.inject1 target inst dir layer).1.pending = s.pending := by
  unfold State.inject1
  split
  · rfl
  · refine foldl1_pending _ ?_ _ _
    rintro ⟨s, _⟩ _
    dsimp only
    repeat' (first | (simp [*]; done) | split)
@[simp] theorem State.inject1_mem (s : State) (target inst dir layer : Nat) :
    (s.inject1 target inst dir layer).1.mem = s.mem := by
  unfold State.inject1
  split
  · rfl
  · refine foldl1_mem _ ?_ _ _
    rintro ⟨s, _⟩ _
    dsimp only
    repeat' (first | (simp [*]; done) | split)
@[simp] theorem State.inject1_holmMem (s : State) (target inst dir layer : Nat) :
    (s.inject1 target inst dir layer).1.holmMem = s.holmMem := by
  unfold State.inject1
  split
  · rfl
  · refine foldl1_holmMem _ ?_ _ _
    rintro ⟨s, _⟩ _
    dsimp only
    repeat' (first | (simp [*]; done) | split)
@[simp] theorem State.soundError_pending (s : State) (sound c : Nat) (injected : Bool) :
    (s.soundError sound c injected).pending = s.pending := by simp [State.soundError, ite_pending]
@[simp] theorem State.soundError_mem (s : State) (sound c : Nat) (injected : Bool) :
    (s.soundError sound c injected).mem = s.mem := by simp [State.soundError, ite_mem]
@[simp] theorem State.soundError_holmMem (s : State) (sound c : Nat) (injected : Bool) :
    (s.soundError sound c injected).holmMem = s.holmMem := by simp [State.soundError, ite_holmMem]
@[simp] theorem State.crossOne_pending (s : State) (c n d layer : Nat) (err : Option Nat) :
    (s.crossOne c n d layer err).1.pending = s.pending := by
  unfold State.crossOne
  (try dsimp only)
  repeat' (first | (simp [ite_pending, *]; done) | split)
@[simp] theorem State.crossOne_mem (s : State) (c n d layer : Nat) (err : Option Nat) :
    (s.crossOne c n d layer err).1.mem = s.mem := by
  unfold State.crossOne
  (try dsimp only)
  repeat' (first | (simp [ite_mem, *]; done) | split)
@[simp] theorem State.crossOne_holmMem (s : State) (c n d layer : Nat) (err : Option Nat) :
    (s.crossOne c n d layer err).1.holmMem = s.holmMem := by
  unfold State.crossOne
  (try dsimp only)
  repeat' (first | (simp [ite_holmMem, *]; done) | split)
@[simp] theorem State.crossSounds_pending (s : State) (c layer : Nat) (err : Option Nat) (path : List (Nat × Nat)) :
    (s.crossSounds c layer err path).1.pending = s.pending := by
  unfold State.crossSounds
  (try dsimp only)
  repeat' (first | (simp [ite_pending, *]; done) | split | (rw [foldl_pending]; intro _ _; try dsimp only) | (rw [foldl1_pending]; intro _ _; try dsimp only))
@[simp] theorem State.crossSounds_mem (s : State) (c layer : Nat) (err : Option Nat) (path : List (Nat × Nat)) :
    (s.crossSounds c layer err path).1.mem = s.mem := by
  unfold State.crossSounds
  (try dsimp only)
  repeat' (first | (simp [ite_mem, *]; done) | split | (rw [foldl_mem]; intro _ _; try dsimp only) | (rw [foldl1_mem]; intro _ _; try dsimp only))
@[simp] theorem State.crossSounds_holmMem (s : State) (c layer : Nat) (err : Option Nat) (path : List (Nat × Nat)) :
    (s.crossSounds c layer err path).1.holmMem = s.holmMem := by
  unfold State.crossSounds
  (try dsimp only)
  repeat' (first | (simp [ite_holmMem, *]; done) | split | (rw [foldl_holmMem]; intro _ _; try dsimp only) | (rw [foldl1_holmMem]; intro _ _; try dsimp only))
@[simp] theorem State.crossRoute_pending (s : State) (c a b layer : Nat) (err : Option Nat) :
    (s.crossRoute c a b layer err).1.pending = s.pending := by
  unfold State.crossRoute
  (try dsimp only)
  repeat' (first | (simp [ite_pending, *]; done) | split)
@[simp] theorem State.crossRoute_mem (s : State) (c a b layer : Nat) (err : Option Nat) :
    (s.crossRoute c a b layer err).1.mem = s.mem := by
  unfold State.crossRoute
  (try dsimp only)
  repeat' (first | (simp [ite_mem, *]; done) | split)
@[simp] theorem State.crossRoute_holmMem (s : State) (c a b layer : Nat) (err : Option Nat) :
    (s.crossRoute c a b layer err).1.holmMem = s.holmMem := by
  unfold State.crossRoute
  (try dsimp only)
  repeat' (first | (simp [ite_holmMem, *]; done) | split)
@[simp] theorem State.voidPort_pending (s : State) (port : Nat) :
    (s.voidPort port).pending = s.pending := by simp [State.voidPort]
@[simp] theorem State.voidPort_mem (s : State) (port : Nat) :
    (s.voidPort port).mem = s.mem := by simp [State.voidPort]
@[simp] theorem State.voidPort_holmMem (s : State) (port : Nat) :
    (s.voidPort port).holmMem = s.holmMem := by simp [State.voidPort]
@[simp] theorem State.freeAck_pending (s : State) (l : Landing) :
    (s.freeAck l).pending = s.pending := by
  unfold State.freeAck
  (try dsimp only)
  repeat' (first | (simp [*]; done) | split)
@[simp] theorem State.freeAck_mem (s : State) (l : Landing) :
    (s.freeAck l).mem = s.mem := by
  unfold State.freeAck
  (try dsimp only)
  repeat' (first | (simp [*]; done) | split)
@[simp] theorem State.freeAck_holmMem (s : State) (l : Landing) :
    (s.freeAck l).holmMem = s.holmMem := by
  unfold State.freeAck
  (try dsimp only)
  repeat' (first | (simp [*]; done) | split)
@[simp] theorem State.failPosted_pending (s : State) (port : Nat) (q : Request) (cause : Nat) :
    (s.failPosted port q cause).pending = s.pending := by simp [State.failPosted, ite_pending]
@[simp] theorem State.failPosted_mem (s : State) (port : Nat) (q : Request) (cause : Nat) :
    (s.failPosted port q cause).mem = s.mem := by simp [State.failPosted, ite_mem]
@[simp] theorem State.failPosted_holmMem (s : State) (port : Nat) (q : Request) (cause : Nat) :
    (s.failPosted port q cause).holmMem = s.holmMem := by simp [State.failPosted, ite_holmMem]
@[simp] theorem State.dropLanding_pending (s : State) (l : Landing) :
    (s.dropLanding l).pending = s.pending := by
  unfold State.dropLanding
  (try dsimp only)
  repeat' (first | (simp [*]; done) | split)
@[simp] theorem State.dropLanding_mem (s : State) (l : Landing) :
    (s.dropLanding l).mem = s.mem := by
  unfold State.dropLanding
  (try dsimp only)
  repeat' (first | (simp [*]; done) | split)
@[simp] theorem State.dropLanding_holmMem (s : State) (l : Landing) :
    (s.dropLanding l).holmMem = s.holmMem := by
  unfold State.dropLanding
  (try dsimp only)
  repeat' (first | (simp [*]; done) | split)
@[simp] theorem State.failRead_pending (s : State) (port : Nat) (q : Request) :
    (s.failRead port q).pending = s.pending := by simp [State.failRead, ite_pending]
@[simp] theorem State.failRead_mem (s : State) (port : Nat) (q : Request) :
    (s.failRead port q).mem = s.mem := by simp [State.failRead, ite_mem]
@[simp] theorem State.failRead_holmMem (s : State) (port : Nat) (q : Request) :
    (s.failRead port q).holmMem = s.holmMem := by simp [State.failRead, ite_holmMem]
@[simp] theorem State.failRequest_pending (s : State) (port : Nat) (q : Request) (cause : Nat) :
    (s.failRequest port q cause).pending = s.pending := by simp [State.failRequest, ite_pending]
@[simp] theorem State.failRequest_mem (s : State) (port : Nat) (q : Request) (cause : Nat) :
    (s.failRequest port q cause).mem = s.mem := by simp [State.failRequest, ite_mem]
@[simp] theorem State.failRequest_holmMem (s : State) (port : Nat) (q : Request) (cause : Nat) :
    (s.failRequest port q cause).holmMem = s.holmMem := by simp [State.failRequest, ite_holmMem]
@[simp] theorem State.injectFlits_pending (s : State) (target inst dir n : Nat) :
    (s.injectFlits target inst dir n).pending = s.pending := by
  induction n generalizing s with
  | zero => rfl
  | succ n ih => simp [State.injectFlits, *]
@[simp] theorem State.injectFlits_mem (s : State) (target inst dir n : Nat) :
    (s.injectFlits target inst dir n).mem = s.mem := by
  induction n generalizing s with
  | zero => rfl
  | succ n ih => simp [State.injectFlits, *]
@[simp] theorem State.injectFlits_holmMem (s : State) (target inst dir n : Nat) :
    (s.injectFlits target inst dir n).holmMem = s.holmMem := by
  induction n generalizing s with
  | zero => rfl
  | succ n ih => simp [State.injectFlits, *]
@[simp] theorem State.putFlit_pending (s : State) (port : Nat) (f : Flit) (h : Hit) :
    (s.putFlit port f h).pending = s.pending := by
  unfold State.putFlit
  (try dsimp only)
  repeat' (first | (simp [ite_pending, *]; done) | split)
@[simp] theorem State.putFlit_mem (s : State) (port : Nat) (f : Flit) (h : Hit) :
    (s.putFlit port f h).mem = s.mem := by
  unfold State.putFlit
  (try dsimp only)
  repeat' (first | (simp [ite_mem, *]; done) | split)
@[simp] theorem State.putFlit_holmMem (s : State) (port : Nat) (f : Flit) (h : Hit) :
    (s.putFlit port f h).holmMem = s.holmMem := by
  unfold State.putFlit
  (try dsimp only)
  repeat' (first | (simp [ite_holmMem, *]; done) | split)
@[simp] theorem State.sendFlit_pending (s : State) (port : Nat) (slots : List (List Byte)) :
    (s.sendFlit port slots).pending = s.pending := by simp [State.sendFlit, ite_pending]
@[simp] theorem State.sendFlit_mem (s : State) (port : Nat) (slots : List (List Byte)) :
    (s.sendFlit port slots).mem = s.mem := by simp [State.sendFlit, ite_mem]
@[simp] theorem State.sendFlit_holmMem (s : State) (port : Nat) (slots : List (List Byte)) :
    (s.sendFlit port slots).holmMem = s.holmMem := by simp [State.sendFlit, ite_holmMem]
@[simp] theorem State.sendControl_pending (s : State) (port : Nat) (link : Option LinkCmd) :
    (s.sendControl port link).pending = s.pending := by rfl
@[simp] theorem State.sendControl_mem (s : State) (port : Nat) (link : Option LinkCmd) :
    (s.sendControl port link).mem = s.mem := by rfl
@[simp] theorem State.sendControl_holmMem (s : State) (port : Nat) (link : Option LinkCmd) :
    (s.sendControl port link).holmMem = s.holmMem := by rfl
@[simp] theorem State.sendLink_pending (s : State) (port cmd lane channel : Nat) :
    (s.sendLink port cmd lane channel).pending = s.pending := by rfl
@[simp] theorem State.sendLink_mem (s : State) (port cmd lane channel : Nat) :
    (s.sendLink port cmd lane channel).mem = s.mem := by rfl
@[simp] theorem State.sendLink_holmMem (s : State) (port cmd lane channel : Nat) :
    (s.sendLink port cmd lane channel).holmMem = s.holmMem := by rfl
@[simp] theorem State.sendFull_pending (s : State) (port : Nat) (x0 : Nat) :
    (s.sendFull port x0).pending = s.pending := by
  induction x0 generalizing s with
  | zero => first | rfl | simp [State.sendFull, *]
  | succ n ih =>
    unfold State.sendFull
    (try dsimp only)
    repeat' (first | (simp [ite_pending, ih, *]; done) | split)
@[simp] theorem State.sendFull_mem (s : State) (port : Nat) (x0 : Nat) :
    (s.sendFull port x0).mem = s.mem := by
  induction x0 generalizing s with
  | zero => first | rfl | simp [State.sendFull, *]
  | succ n ih =>
    unfold State.sendFull
    (try dsimp only)
    repeat' (first | (simp [ite_mem, ih, *]; done) | split)
@[simp] theorem State.sendFull_holmMem (s : State) (port : Nat) (x0 : Nat) :
    (s.sendFull port x0).holmMem = s.holmMem := by
  induction x0 generalizing s with
  | zero => first | rfl | simp [State.sendFull, *]
  | succ n ih =>
    unfold State.sendFull
    (try dsimp only)
    repeat' (first | (simp [ite_holmMem, ih, *]; done) | split)
@[simp] theorem State.flush_pending (s : State) (port : Nat) :
    (s.flush port).pending = s.pending := by simp [State.flush, ite_pending]
@[simp] theorem State.flush_mem (s : State) (port : Nat) :
    (s.flush port).mem = s.mem := by simp [State.flush, ite_mem]
@[simp] theorem State.flush_holmMem (s : State) (port : Nat) :
    (s.flush port).holmMem = s.holmMem := by simp [State.flush, ite_holmMem]
@[simp] theorem State.transmit_pending (s : State) (port : Nat) (t : Tx) :
    (s.transmit port t).pending = s.pending := by simp [State.transmit]
@[simp] theorem State.transmit_mem (s : State) (port : Nat) (t : Tx) :
    (s.transmit port t).mem = s.mem := by simp [State.transmit]
@[simp] theorem State.transmit_holmMem (s : State) (port : Nat) (t : Tx) :
    (s.transmit port t).holmMem = s.holmMem := by simp [State.transmit]
@[simp] theorem State.pumpAnswers_pending (s : State) (port n : Nat) :
    (s.pumpAnswers port n).pending = s.pending := by
  induction n generalizing s with
  | zero => rfl
  | succ n ih =>
    unfold State.pumpAnswers
    dsimp only
    repeat' (first | (simp [ite_pending, *]; done) | split)
@[simp] theorem State.pumpAnswers_mem (s : State) (port n : Nat) :
    (s.pumpAnswers port n).mem = s.mem := by
  induction n generalizing s with
  | zero => rfl
  | succ n ih =>
    unfold State.pumpAnswers
    dsimp only
    repeat' (first | (simp [ite_mem, *]; done) | split)
@[simp] theorem State.pumpAnswers_holmMem (s : State) (port n : Nat) :
    (s.pumpAnswers port n).holmMem = s.holmMem := by
  induction n generalizing s with
  | zero => rfl
  | succ n ih =>
    unfold State.pumpAnswers
    dsimp only
    repeat' (first | (simp [ite_holmMem, *]; done) | split)
@[simp] theorem State.pumpRequests_pending (s : State) (port n : Nat) :
    (s.pumpRequests port n).pending = s.pending := by
  induction n generalizing s with
  | zero => rfl
  | succ n ih =>
    unfold State.pumpRequests
    dsimp only
    repeat' (first | (simp [ite_pending, *]; done) | split)
@[simp] theorem State.pumpRequests_mem (s : State) (port n : Nat) :
    (s.pumpRequests port n).mem = s.mem := by
  induction n generalizing s with
  | zero => rfl
  | succ n ih =>
    unfold State.pumpRequests
    dsimp only
    repeat' (first | (simp [ite_mem, *]; done) | split)
@[simp] theorem State.pumpRequests_holmMem (s : State) (port n : Nat) :
    (s.pumpRequests port n).holmMem = s.holmMem := by
  induction n generalizing s with
  | zero => rfl
  | succ n ih =>
    unfold State.pumpRequests
    dsimp only
    repeat' (first | (simp [ite_holmMem, *]; done) | split)
@[simp] theorem State.pump_pending (s : State) (port : Nat) :
    (s.pump port).pending = s.pending := by simp [State.pump]
@[simp] theorem State.pump_mem (s : State) (port : Nat) :
    (s.pump port).mem = s.mem := by simp [State.pump]
@[simp] theorem State.pump_holmMem (s : State) (port : Nat) :
    (s.pump port).holmMem = s.holmMem := by simp [State.pump]
@[simp] theorem State.request_pending (s : State) (port : Nat) (q : Request) :
    (s.request port q).pending = s.pending := by simp [State.request]
@[simp] theorem State.request_mem (s : State) (port : Nat) (q : Request) :
    (s.request port q).mem = s.mem := by simp [State.request]
@[simp] theorem State.request_holmMem (s : State) (port : Nat) (q : Request) :
    (s.request port q).holmMem = s.holmMem := by simp [State.request]
@[simp] theorem State.answer_pending (s : State) (port : Nat) (t : Tx) :
    (s.answer port t).pending = s.pending := by simp [State.answer]
@[simp] theorem State.answer_mem (s : State) (port : Nat) (t : Tx) :
    (s.answer port t).mem = s.mem := by simp [State.answer]
@[simp] theorem State.answer_holmMem (s : State) (port : Nat) (t : Tx) :
    (s.answer port t).holmMem = s.holmMem := by simp [State.answer]
@[simp] theorem State.sendFences_pending (s : State) (c run : Nat) :
    (s.sendFences c run).pending = s.pending := by simp [State.sendFences, ite_pending]
@[simp] theorem State.sendFences_mem (s : State) (c run : Nat) :
    (s.sendFences c run).mem = s.mem := by simp [State.sendFences, ite_mem]
@[simp] theorem State.sendFences_holmMem (s : State) (c run : Nat) :
    (s.sendFences c run).holmMem = s.holmMem := by simp [State.sendFences, ite_holmMem]
@[simp] theorem State.fencePoisoned_pending (s : State) (c : Nat) :
    (s.fencePoisoned c).pending = s.pending := by simp [State.fencePoisoned]
@[simp] theorem State.fencePoisoned_mem (s : State) (c : Nat) :
    (s.fencePoisoned c).mem = s.mem := by simp [State.fencePoisoned]
@[simp] theorem State.fencePoisoned_holmMem (s : State) (c : Nat) :
    (s.fencePoisoned c).holmMem = s.holmMem := by simp [State.fencePoisoned]
@[simp] theorem State.linkReset_pending (s : State) (port : Nat) (state : LinkState) :
    (s.linkReset port state).pending = s.pending := by simp [State.linkReset]
@[simp] theorem State.linkReset_mem (s : State) (port : Nat) (state : LinkState) :
    (s.linkReset port state).mem = s.mem := by simp [State.linkReset]
@[simp] theorem State.linkReset_holmMem (s : State) (port : Nat) (state : LinkState) :
    (s.linkReset port state).holmMem = s.holmMem := by simp [State.linkReset]
@[simp] theorem State.retrain_pending (s : State) (port cause : Nat) :
    (s.retrain port cause).pending = s.pending := by simp [State.retrain, ite_pending]
@[simp] theorem State.retrain_mem (s : State) (port cause : Nat) :
    (s.retrain port cause).mem = s.mem := by simp [State.retrain, ite_mem]
@[simp] theorem State.retrain_holmMem (s : State) (port cause : Nat) :
    (s.retrain port cause).holmMem = s.holmMem := by simp [State.retrain, ite_holmMem]
@[simp] theorem State.closeWindow_pending (s : State) (i : Nat) :
    (s.closeWindow i).pending = s.pending := by rfl
@[simp] theorem State.closeWindow_mem (s : State) (i : Nat) :
    (s.closeWindow i).mem = s.mem := by rfl
@[simp] theorem State.closeWindow_holmMem (s : State) (i : Nat) :
    (s.closeWindow i).holmMem = s.holmMem := by rfl
@[simp] theorem State.takeGrants_pending (s : State) (c : Nat) (keys : List Nat) :
    (s.takeGrants c keys).pending = s.pending := by rfl
@[simp] theorem State.takeGrants_mem (s : State) (c : Nat) (keys : List Nat) :
    (s.takeGrants c keys).mem = s.mem := by rfl
@[simp] theorem State.takeGrants_holmMem (s : State) (c : Nat) (keys : List Nat) :
    (s.takeGrants c keys).holmMem = s.holmMem := by rfl
@[simp] theorem State.headerSignal_pending (s : State) (c : Nat) (st : Strand) (cmd : Cmd) :
    (s.headerSignal c st cmd).pending = s.pending := by
  unfold State.headerSignal
  (try dsimp only)
  repeat' (first | (simp [ite_pending, *]; done) | split)
@[simp] theorem State.headerSignal_mem (s : State) (c : Nat) (st : Strand) (cmd : Cmd) :
    (s.headerSignal c st cmd).mem = s.mem := by
  unfold State.headerSignal
  (try dsimp only)
  repeat' (first | (simp [ite_mem, *]; done) | split)
@[simp] theorem State.headerSignal_holmMem (s : State) (c : Nat) (st : Strand) (cmd : Cmd) :
    (s.headerSignal c st cmd).holmMem = s.holmMem := by
  unfold State.headerSignal
  (try dsimp only)
  repeat' (first | (simp [ite_holmMem, *]; done) | split)
@[simp] theorem State.completeNext_pending (s : State) (c strand : Nat) :
    (s.completeNext c strand).pending = s.pending := by
  unfold State.completeNext
  (try dsimp only)
  repeat' (first | (simp [ite_pending, *]; done) | split)
@[simp] theorem State.completeNext_mem (s : State) (c strand : Nat) :
    (s.completeNext c strand).mem = s.mem := by
  unfold State.completeNext
  (try dsimp only)
  repeat' (first | (simp [ite_mem, *]; done) | split)
@[simp] theorem State.completeNext_holmMem (s : State) (c strand : Nat) :
    (s.completeNext c strand).holmMem = s.holmMem := by
  unfold State.completeNext
  (try dsimp only)
  repeat' (first | (simp [ite_holmMem, *]; done) | split)
@[simp] theorem State.flushStrand_pending (s : State) (c strand : Nat) :
    (s.flushStrand c strand).pending = s.pending := by
  unfold State.flushStrand
  (try dsimp only)
  repeat' (first | (simp [ite_pending, *]; done) | split)
@[simp] theorem State.flushStrand_mem (s : State) (c strand : Nat) :
    (s.flushStrand c strand).mem = s.mem := by
  unfold State.flushStrand
  (try dsimp only)
  repeat' (first | (simp [ite_mem, *]; done) | split)
@[simp] theorem State.flushStrand_holmMem (s : State) (c strand : Nat) :
    (s.flushStrand c strand).holmMem = s.holmMem := by
  unfold State.flushStrand
  (try dsimp only)
  repeat' (first | (simp [ite_holmMem, *]; done) | split)
@[simp] theorem State.freeStaging_pending (s : State) (c n : Nat) :
    (s.freeStaging c n).pending = s.pending := by rfl
@[simp] theorem State.freeStaging_mem (s : State) (c n : Nat) :
    (s.freeStaging c n).mem = s.mem := by rfl
@[simp] theorem State.freeStaging_holmMem (s : State) (c n : Nat) :
    (s.freeStaging c n).holmMem = s.holmMem := by rfl
@[simp] theorem State.endHalted_pending (s : State) (c code : Nat) :
    (s.endHalted c code).pending = s.pending := by
  unfold State.endHalted
  (try dsimp only)
  repeat' (first | (simp [*]; done) | split)
@[simp] theorem State.endHalted_mem (s : State) (c code : Nat) :
    (s.endHalted c code).mem = s.mem := by
  unfold State.endHalted
  (try dsimp only)
  repeat' (first | (simp [*]; done) | split)
@[simp] theorem State.endHalted_holmMem (s : State) (c code : Nat) :
    (s.endHalted c code).holmMem = s.holmMem := by
  unfold State.endHalted
  (try dsimp only)
  repeat' (first | (simp [*]; done) | split)
@[simp] theorem State.clearBad_pending (s : State) (a n : Nat) :
    (s.clearBad a n).pending = s.pending := by simp [State.clearBad, ite_pending]
@[simp] theorem State.clearBad_mem (s : State) (a n : Nat) :
    (s.clearBad a n).mem = s.mem := by simp [State.clearBad, ite_mem]
@[simp] theorem State.clearBad_holmMem (s : State) (a n : Nat) :
    (s.clearBad a n).holmMem = s.holmMem := by simp [State.clearBad, ite_holmMem]
@[simp] theorem State.storeBytes_pending (s : State) (a : Nat) (bs : List Byte) :
    (s.storeBytes a bs).pending = s.pending := by simp [State.storeBytes]
@[simp] theorem State.storeBytes_memWf (s : State) (a : Nat) (bs : List Byte) (hw : s.mem.wf = true) :
    (s.storeBytes a bs).mem.wf = true := by simp [State.storeBytes, *]
@[simp] theorem State.storeBytes_holmMem (s : State) (a : Nat) (bs : List Byte) :
    (s.storeBytes a bs).holmMem = s.holmMem := by simp [State.storeBytes]
@[simp] theorem State.storeAll_pending (s : State) (l : List (Nat × List Byte)) :
    (s.storeAll l).pending = s.pending := by simp [State.storeAll, ite_pending]
@[simp] theorem State.storeAll_memWf (s : State) (l : List (Nat × List Byte)) (hw : s.mem.wf = true) :
    (s.storeAll l).mem.wf = true := by
  unfold State.storeAll
  (try dsimp only)
  repeat' (first | (simp [*]; done) | split | (refine foldl_memWf _ ?_ _ _ ?_; intro _ _ _; try dsimp only) | (refine foldl1_memWf _ ?_ _ _ ?_; intro _ _ _; try dsimp only))
@[simp] theorem State.storeAll_holmMem (s : State) (l : List (Nat × List Byte)) :
    (s.storeAll l).holmMem = s.holmMem := by simp [State.storeAll, ite_holmMem]
@[simp] theorem State.markBad_pending (s : State) (a : Nat) :
    (s.markBad a).pending = s.pending := by rfl
@[simp] theorem State.markBad_mem (s : State) (a : Nat) :
    (s.markBad a).mem = s.mem := by rfl
@[simp] theorem State.markBad_holmMem (s : State) (a : Nat) :
    (s.markBad a).holmMem = s.holmMem := by rfl
@[simp] theorem State.countBad_pending (s : State) (a : Nat) :
    (s.countBad a).pending = s.pending := by simp [State.countBad, ite_pending]
@[simp] theorem State.countBad_mem (s : State) (a : Nat) :
    (s.countBad a).mem = s.mem := by simp [State.countBad, ite_mem]
@[simp] theorem State.countBad_holmMem (s : State) (a : Nat) :
    (s.countBad a).holmMem = s.holmMem := by simp [State.countBad, ite_holmMem]
@[simp] theorem State.raiseAccess_pending (s : State) (c : Nat) (src : Source) (f : AccessFault) (list index : Nat) (more : List Nat) :
    (s.raiseAccess c src f list index more).pending = s.pending := by
  unfold State.raiseAccess
  (try dsimp only)
  repeat' (first | (simp [ite_pending, *]; done) | split)
@[simp] theorem State.raiseAccess_mem (s : State) (c : Nat) (src : Source) (f : AccessFault) (list index : Nat) (more : List Nat) :
    (s.raiseAccess c src f list index more).mem = s.mem := by
  unfold State.raiseAccess
  (try dsimp only)
  repeat' (first | (simp [ite_mem, *]; done) | split)
@[simp] theorem State.raiseAccess_holmMem (s : State) (c : Nat) (src : Source) (f : AccessFault) (list index : Nat) (more : List Nat) :
    (s.raiseAccess c src f list index more).holmMem = s.holmMem := by
  unfold State.raiseAccess
  (try dsimp only)
  repeat' (first | (simp [ite_holmMem, *]; done) | split)
@[simp] theorem State.accessFault_pending (s : State) (c : Nat) (src : Source) (f : AccessFault) (list index : Nat) :
    (s.accessFault c src f list index).pending = s.pending := by simp [State.accessFault, ite_pending]
@[simp] theorem State.accessFault_mem (s : State) (c : Nat) (src : Source) (f : AccessFault) (list index : Nat) :
    (s.accessFault c src f list index).mem = s.mem := by simp [State.accessFault, ite_mem]
@[simp] theorem State.accessFault_holmMem (s : State) (c : Nat) (src : Source) (f : AccessFault) (list index : Nat) :
    (s.accessFault c src f list index).holmMem = s.holmMem := by simp [State.accessFault, ite_holmMem]
@[simp] theorem State.fixBurst_pending (s : State) (a : Nat) (found : ReadFinding) :
    (s.fixBurst a found).pending = s.pending := by simp [State.fixBurst, ite_pending]
@[simp] theorem State.fixBurst_memWf (s : State) (a : Nat) (found : ReadFinding) (hw : s.mem.wf = true) :
    (s.fixBurst a found).mem.wf = true := by
  unfold State.fixBurst
  (try dsimp only)
  repeat' (first | (simp [ite_mem, *]; done) | split)
@[simp] theorem State.fixBurst_holmMem (s : State) (a : Nat) (found : ReadFinding) :
    (s.fixBurst a found).holmMem = s.holmMem := by simp [State.fixBurst, ite_holmMem]
@[simp] theorem State.foundInPage_pending (s : State) (a skip page : Nat) (found : Option BurstFinding) :
    (s.foundInPage a skip page found).pending = s.pending := by
  unfold State.foundInPage
  (try dsimp only)
  repeat' (first | (simp [ite_pending, *]; done) | split)
@[simp] theorem State.foundInPage_memWf (s : State) (a skip page : Nat) (found : Option BurstFinding) (hw : s.mem.wf = true) :
    (s.foundInPage a skip page found).mem.wf = true := by
  unfold State.foundInPage
  (try dsimp only)
  repeat' (first | (simp [ite_mem, *]; done) | split)
@[simp] theorem State.foundInPage_holmMem (s : State) (a skip page : Nat) (found : Option BurstFinding) :
    (s.foundInPage a skip page found).holmMem = s.holmMem := by
  unfold State.foundInPage
  (try dsimp only)
  repeat' (first | (simp [ite_holmMem, *]; done) | split)
@[simp] theorem State.nullAccess_pending (s : State) (isle : Nat) :
    (s.nullAccess isle).pending = s.pending := by rfl
@[simp] theorem State.nullAccess_mem (s : State) (isle : Nat) :
    (s.nullAccess isle).mem = s.mem := by rfl
@[simp] theorem State.nullAccess_holmMem (s : State) (isle : Nat) :
    (s.nullAccess isle).holmMem = s.holmMem := by rfl
@[simp] theorem State.readPage_pending (s : State) (c isle : Nat) (src : Option Nat) (k : Nat) :
    (s.readPage c isle src k).1.pending = s.pending := by
  unfold State.readPage
  (try dsimp only)
  repeat' (first | (simp [ite_pending, *]; done) | split)
@[simp] theorem State.readPage_mem (s : State) (c isle : Nat) (src : Option Nat) (k : Nat) :
    (s.readPage c isle src k).1.mem = s.mem := by
  unfold State.readPage
  (try dsimp only)
  repeat' (first | (simp [ite_mem, *]; done) | split)
@[simp] theorem State.readPage_holmMem (s : State) (c isle : Nat) (src : Option Nat) (k : Nat) :
    (s.readPage c isle src k).1.holmMem = s.holmMem := by
  unfold State.readPage
  (try dsimp only)
  repeat' (first | (simp [ite_holmMem, *]; done) | split)
@[simp] theorem State.writePage_pending (s : State) (c isle : Nat) (src dst : Option Nat) (k list index : Nat) :
    (s.writePage c isle src dst k list index).1.pending = s.pending := by
  unfold State.writePage
  (try dsimp only)
  repeat' (first | (simp [ite_pending, *]; done) | split)
@[simp] theorem State.writePage_memWf (s : State) (c isle : Nat) (src dst : Option Nat) (k list index : Nat) (hw : s.mem.wf = true) :
    (s.writePage c isle src dst k list index).1.mem.wf = true := by
  unfold State.writePage
  (try dsimp only)
  repeat' (first | (simp [ite_mem, *]; done) | split)
@[simp] theorem State.writePage_holmMem (s : State) (c isle : Nat) (src dst : Option Nat) (k list index : Nat) :
    (s.writePage c isle src dst k list index).1.holmMem = s.holmMem := by
  unfold State.writePage
  (try dsimp only)
  repeat' (first | (simp [ite_holmMem, *]; done) | split)
@[simp] theorem State.holdFrame_pending (s : State) (c k n : Nat) :
    (s.holdFrame c k n).pending = s.pending := by rfl
@[simp] theorem State.holdFrame_mem (s : State) (c k n : Nat) :
    (s.holdFrame c k n).mem = s.mem := by rfl
@[simp] theorem State.holdFrame_holmMem (s : State) (c k n : Nat) :
    (s.holdFrame c k n).holmMem = s.holmMem := by rfl
@[simp] theorem State.fillImages_pending (s : State) (c : Nat) (ls : List (Nat × PageList)) :
    (s.fillImages c ls).1.pending = s.pending := by
  unfold State.fillImages
  refine foldl1_pending _ ?_ _ _
  rintro ⟨s, _⟩ _
  repeat' (first | (simp [*]; done) | split)
@[simp] theorem State.fillImages_mem (s : State) (c : Nat) (ls : List (Nat × PageList)) :
    (s.fillImages c ls).1.mem = s.mem := by
  unfold State.fillImages
  refine foldl1_mem _ ?_ _ _
  rintro ⟨s, _⟩ _
  repeat' (first | (simp [*]; done) | split)
@[simp] theorem State.fillImages_holmMem (s : State) (c : Nat) (ls : List (Nat × PageList)) :
    (s.fillImages c ls).1.holmMem = s.holmMem := by
  unfold State.fillImages
  refine foldl1_holmMem _ ?_ _ _
  rintro ⟨s, _⟩ _
  repeat' (first | (simp [*]; done) | split)
@[simp] theorem State.carryPage_pending (s : State) (c isle : Nat) (src dst : Option Nat) (list index : Nat) (err : Option Nat) :
    (s.carryPage c isle src dst list index err).1.pending = s.pending := by
  unfold State.carryPage
  (try dsimp only)
  repeat' (first | (simp [*]; done) | split)
@[simp] theorem State.carryPage_memWf (s : State) (c isle : Nat) (src dst : Option Nat) (list index : Nat) (err : Option Nat) (hw : s.mem.wf = true) :
    (s.carryPage c isle src dst list index err).1.mem.wf = true := by
  unfold State.carryPage
  (try dsimp only)
  repeat' (first | (simp [*]; done) | split)
@[simp] theorem State.carryPage_holmMem (s : State) (c isle : Nat) (src dst : Option Nat) (list index : Nat) (err : Option Nat) :
    (s.carryPage c isle src dst list index err).1.holmMem = s.holmMem := by
  unfold State.carryPage
  (try dsimp only)
  repeat' (first | (simp [*]; done) | split)
@[simp] theorem State.dropFrame_pending (s : State) (k : Nat) :
    (s.dropFrame k).pending = s.pending := by rfl
@[simp] theorem State.dropFrame_mem (s : State) (k : Nat) :
    (s.dropFrame k).mem = s.mem := by rfl
@[simp] theorem State.dropFrame_holmMem (s : State) (k : Nat) :
    (s.dropFrame k).holmMem = s.holmMem := by rfl
@[simp] theorem State.splitCopy_pending (s : State) (c isle list index a ra ri reserve : Nat) (err : Option Nat) :
    (s.splitCopy c isle list index a ra ri reserve err).1.pending = s.pending := by
  unfold State.splitCopy
  (try dsimp only)
  repeat' (first | (simp [ite_pending, *]; done) | split)
@[simp] theorem State.splitCopy_memWf (s : State) (c isle list index a ra ri reserve : Nat) (err : Option Nat) (hw : s.mem.wf = true) :
    (s.splitCopy c isle list index a ra ri reserve err).1.mem.wf = true := by
  unfold State.splitCopy
  (try dsimp only)
  repeat' (first | (simp [ite_mem, *]; done) | split)
@[simp] theorem State.splitCopy_holmMem (s : State) (c isle list index a ra ri reserve : Nat) (err : Option Nat) :
    (s.splitCopy c isle list index a ra ri reserve err).1.holmMem = s.holmMem := by
  unfold State.splitCopy
  (try dsimp only)
  repeat' (first | (simp [ite_holmMem, *]; done) | split)
@[simp] theorem State.splitPage_pending (s : State) (c isle list index reserve : Nat) (err : Option Nat) :
    (s.splitPage c isle list index reserve err).1.pending = s.pending := by
  unfold State.splitPage
  (try dsimp only)
  repeat' (first | (simp [*]; done) | split)
@[simp] theorem State.splitPage_memWf (s : State) (c isle list index reserve : Nat) (err : Option Nat) (hw : s.mem.wf = true) :
    (s.splitPage c isle list index reserve err).1.mem.wf = true := by
  unfold State.splitPage
  (try dsimp only)
  repeat' (first | (simp [*]; done) | split)
@[simp] theorem State.splitPage_holmMem (s : State) (c isle list index reserve : Nat) (err : Option Nat) :
    (s.splitPage c isle list index reserve err).1.holmMem = s.holmMem := by
  unfold State.splitPage
  (try dsimp only)
  repeat' (first | (simp [*]; done) | split)
@[simp] theorem State.foundOn_pending (s : State) (src dst : Option Nat) (k : Nat) (found : Option BurstFinding) :
    (s.foundOn src dst k found).pending = s.pending := by
  unfold State.foundOn
  (try dsimp only)
  repeat' (first | (simp [ite_pending, *]; done) | split)
@[simp] theorem State.foundOn_memWf (s : State) (src dst : Option Nat) (k : Nat) (found : Option BurstFinding) (hw : s.mem.wf = true) :
    (s.foundOn src dst k found).mem.wf = true := by
  unfold State.foundOn
  (try dsimp only)
  repeat' (first | (simp [ite_mem, *]; done) | split)
@[simp] theorem State.foundOn_holmMem (s : State) (src dst : Option Nat) (k : Nat) (found : Option BurstFinding) :
    (s.foundOn src dst k found).holmMem = s.holmMem := by
  unfold State.foundOn
  (try dsimp only)
  repeat' (first | (simp [ite_holmMem, *]; done) | split)
@[simp] theorem State.mcastWrite_pending (s : State) (c isle : Nat) (r : Run) (ops : CopyOps) (src : Option Nat) (page k : Nat) :
    (s.mcastWrite c isle r ops src page k).1.pending = s.pending := by simp [State.mcastWrite, ite_pending]
@[simp] theorem State.mcastWrite_memWf (s : State) (c isle : Nat) (r : Run) (ops : CopyOps) (src : Option Nat) (page k : Nat) (hw : s.mem.wf = true) :
    (s.mcastWrite c isle r ops src page k).1.mem.wf = true := by
  unfold State.mcastWrite
  (try dsimp only)
  repeat' (first | (simp [ite_mem, *]; done) | split)
@[simp] theorem State.mcastWrite_holmMem (s : State) (c isle : Nat) (r : Run) (ops : CopyOps) (src : Option Nat) (page k : Nat) :
    (s.mcastWrite c isle r ops src page k).1.holmMem = s.holmMem := by simp [State.mcastWrite, ite_holmMem]
@[simp] theorem State.mcastPage_pending (s : State) (c isle : Nat) (r : Run) (ops : CopyOps) (err : Option Nat) (page : Nat) :
    (s.mcastPage c isle r ops err page).1.pending = s.pending := by
  unfold State.mcastPage
  dsimp only
  split
  · simp
  · rw [foldl1_pending, foldl1_pending]
    · simp
    all_goals intro _ _; repeat' (first | (simp; done) | split)
@[simp] theorem State.mcastPage_memWf (s : State) (c isle : Nat) (r : Run) (ops : CopyOps) (err : Option Nat) (page : Nat) (hw : s.mem.wf = true) :
    (s.mcastPage c isle r ops err page).1.mem.wf = true := by
  unfold State.mcastPage
  (try dsimp only)
  repeat' (first | (simp [*]; done) | split | (refine foldl_memWf _ ?_ _ _ ?_; intro _ _ _; try dsimp only) | (refine foldl1_memWf _ ?_ _ _ ?_; intro _ _ _; try dsimp only))
@[simp] theorem State.mcastPage_holmMemWf (s : State) (c isle : Nat) (r : Run) (ops : CopyOps) (err : Option Nat) (page : Nat) (hw : s.holmMem.wf = true) :
    (s.mcastPage c isle r ops err page).1.holmMem.wf = true := by
  unfold State.mcastPage
  (try dsimp only)
  repeat' (first | (simp [*]; done) | split | (refine foldl_holmMemWf _ ?_ _ _ ?_; intro _ _ _; try dsimp only) | (refine foldl1_holmMemWf _ ?_ _ _ ?_; intro _ _ _; try dsimp only))
@[simp] theorem State.closeLine_pending (s : State) (k : Nat) (src : Source) (l : OpenLine) :
    (s.closeLine k src l).pending = s.pending := by
  unfold State.closeLine
  (try dsimp only)
  repeat' (first | (simp [ite_pending, *]; done) | split)
@[simp] theorem State.closeLine_memWf (s : State) (k : Nat) (src : Source) (l : OpenLine) (hw : s.mem.wf = true) :
    (s.closeLine k src l).mem.wf = true := by
  unfold State.closeLine
  (try dsimp only)
  repeat' (first | (simp [ite_mem, *]; done) | split)
@[simp] theorem State.closeLine_holmMem (s : State) (k : Nat) (src : Source) (l : OpenLine) :
    (s.closeLine k src l).holmMem = s.holmMem := by
  unfold State.closeLine
  (try dsimp only)
  repeat' (first | (simp [ite_holmMem, *]; done) | split)
@[simp] theorem State.slotError_pending (s : State) (k c : Nat) (x : Contribution) (held : Nat) :
    (s.slotError k c x held).pending = s.pending := by simp [State.slotError]
@[simp] theorem State.slotError_mem (s : State) (k c : Nat) (x : Contribution) (held : Nat) :
    (s.slotError k c x held).mem = s.mem := by simp [State.slotError]
@[simp] theorem State.slotError_holmMem (s : State) (k c : Nat) (x : Contribution) (held : Nat) :
    (s.slotError k c x held).holmMem = s.holmMem := by simp [State.slotError]
@[simp] theorem State.returnContribution_pending (s : State) (k c : Nat) (src : Source) (x : Contribution) :
    (s.returnContribution k c src x).pending = s.pending := by
  unfold State.returnContribution
  (try dsimp only)
  repeat' (first | (simp [ite_pending, *]; done) | split)
@[simp] theorem State.returnContribution_mem (s : State) (k c : Nat) (src : Source) (x : Contribution) :
    (s.returnContribution k c src x).mem = s.mem := by
  unfold State.returnContribution
  (try dsimp only)
  repeat' (first | (simp [ite_mem, *]; done) | split)
@[simp] theorem State.returnContribution_holmMem (s : State) (k c : Nat) (src : Source) (x : Contribution) :
    (s.returnContribution k c src x).holmMem = s.holmMem := by
  unfold State.returnContribution
  (try dsimp only)
  repeat' (first | (simp [ite_holmMem, *]; done) | split)
@[simp] theorem State.addToLine_pending (s : State) (k : Nat) (src : Source) (l : OpenLine) (x : Contribution) :
    (s.addToLine k src l x).pending = s.pending := by simp [State.addToLine, ite_pending]
@[simp] theorem State.addToLine_memWf (s : State) (k : Nat) (src : Source) (l : OpenLine) (x : Contribution) (hw : s.mem.wf = true) :
    (s.addToLine k src l x).mem.wf = true := by
  unfold State.addToLine
  (try dsimp only)
  repeat' (first | (simp [ite_mem, *]; done) | split)
@[simp] theorem State.addToLine_holmMem (s : State) (k : Nat) (src : Source) (l : OpenLine) (x : Contribution) :
    (s.addToLine k src l x).holmMem = s.holmMem := by simp [State.addToLine, ite_holmMem]
@[simp] theorem State.parkContribution_pending (s : State) (k c : Nat) (src : Source) (x : Contribution) :
    (s.parkContribution k c src x).pending = s.pending := by rfl
@[simp] theorem State.parkContribution_mem (s : State) (k c : Nat) (src : Source) (x : Contribution) :
    (s.parkContribution k c src x).mem = s.mem := by rfl
@[simp] theorem State.parkContribution_holmMem (s : State) (k c : Nat) (src : Source) (x : Contribution) :
    (s.parkContribution k c src x).holmMem = s.holmMem := by rfl
@[simp] theorem State.meetLine_pending (s : State) (k c : Nat) (src : Source) (l : OpenLine) (x : Contribution) :
    (s.meetLine k c src l x).pending = s.pending := by simp [State.meetLine, ite_pending]
@[simp] theorem State.meetLine_memWf (s : State) (k c : Nat) (src : Source) (l : OpenLine) (x : Contribution) (hw : s.mem.wf = true) :
    (s.meetLine k c src l x).mem.wf = true := by
  unfold State.meetLine
  (try dsimp only)
  repeat' (first | (simp [ite_mem, *]; done) | split)
@[simp] theorem State.meetLine_holmMem (s : State) (k c : Nat) (src : Source) (l : OpenLine) (x : Contribution) :
    (s.meetLine k c src l x).holmMem = s.holmMem := by simp [State.meetLine, ite_holmMem]
@[simp] theorem State.openFor_pending (s : State) (k c : Nat) (src : Source) (x : Contribution) :
    (s.openFor k c src x).pending = s.pending := by
  unfold State.openFor
  (try dsimp only)
  repeat' (first | (simp [ite_pending, *]; done) | split)
@[simp] theorem State.openFor_memWf (s : State) (k c : Nat) (src : Source) (x : Contribution) (hw : s.mem.wf = true) :
    (s.openFor k c src x).mem.wf = true := by
  unfold State.openFor
  (try dsimp only)
  repeat' (first | (simp [ite_mem, *]; done) | split)
@[simp] theorem State.openFor_holmMem (s : State) (k c : Nat) (src : Source) (x : Contribution) :
    (s.openFor k c src x).holmMem = s.holmMem := by
  unfold State.openFor
  (try dsimp only)
  repeat' (first | (simp [ite_holmMem, *]; done) | split)
@[simp] theorem State.takeContribution_pending (s : State) (k c : Nat) (src : Source) (x : Contribution) :
    (s.takeContribution k c src x).pending = s.pending := by
  unfold State.takeContribution
  (try dsimp only)
  repeat' (first | (simp [ite_pending, *]; done) | split)
@[simp] theorem State.takeContribution_memWf (s : State) (k c : Nat) (src : Source) (x : Contribution) (hw : s.mem.wf = true) :
    (s.takeContribution k c src x).mem.wf = true := by
  unfold State.takeContribution
  (try dsimp only)
  repeat' (first | (simp [ite_mem, *]; done) | split)
@[simp] theorem State.takeContribution_holmMem (s : State) (k c : Nat) (src : Source) (x : Contribution) :
    (s.takeContribution k c src x).holmMem = s.holmMem := by
  unfold State.takeContribution
  (try dsimp only)
  repeat' (first | (simp [ite_holmMem, *]; done) | split)
@[simp] theorem State.contribute_pending (s : State) (k c : Nat) (src : Source) (x : Contribution) :
    (s.contribute k c src x).pending = s.pending := by simp [State.contribute, ite_pending]
@[simp] theorem State.contribute_memWf (s : State) (k c : Nat) (src : Source) (x : Contribution) (hw : s.mem.wf = true) :
    (s.contribute k c src x).mem.wf = true := by
  unfold State.contribute
  (try dsimp only)
  repeat' (first | (simp [ite_mem, *]; done) | split)
@[simp] theorem State.contribute_holmMem (s : State) (k c : Nat) (src : Source) (x : Contribution) :
    (s.contribute k c src x).holmMem = s.holmMem := by simp [State.contribute, ite_holmMem]

end Sys2Proof.Machine
end

