-- ==== Sys2Proof/Laws/KeepEngines.lean ====
section
/-! SUPPORT. What the operations of engines, cores and optics leave alone: the queue of commands, and the memory and the
buffers of the Holm, which keep their canonical form where they are written. -/

namespace Sys2Proof.Machine

@[simp] theorem State.performStores_pending (s : State) (c : Nat) (src : Source) (l : List (Nat × List Byte)) :
    (s.performStores c src l).1.pending = s.pending := by
  induction l generalizing s with
  | nil => rfl
  | cons e l ih =>
    unfold State.performStores
    repeat' (first | (simp [*]; done) | split)
@[simp] theorem State.performStores_memWf (s : State) (c : Nat) (src : Source) (l : List (Nat × List Byte)) (hw : s.mem.wf = true) :
    (s.performStores c src l).1.mem.wf = true := by
  induction l generalizing s with
  | nil => exact hw
  | cons e l ih =>
    unfold State.performStores
    repeat' (first | (simp [*]; done) | split)
@[simp] theorem State.performStores_holmMem (s : State) (c : Nat) (src : Source) (l : List (Nat × List Byte)) :
    (s.performStores c src l).1.holmMem = s.holmMem := by
  induction l generalizing s with
  | nil => rfl
  | cons e l ih =>
    unfold State.performStores
    repeat' (first | (simp [*]; done) | split)
@[simp] theorem State.drainRow_pending (s : State) (c e : Nat) (o : DrainOps) (x : AuxBlock) (col r : Nat) :
    (s.drainRow c e o x col r).1.pending = s.pending := by
  unfold State.drainRow
  (try dsimp only)
  repeat' (first | (simp [*]; done) | split)
@[simp] theorem State.drainRow_memWf (s : State) (c e : Nat) (o : DrainOps) (x : AuxBlock) (col r : Nat) (hw : s.mem.wf = true) :
    (s.drainRow c e o x col r).1.mem.wf = true := by
  unfold State.drainRow
  (try dsimp only)
  repeat' (first | (simp [*]; done) | split | (refine foldl_memWf _ ?_ _ _ ?_; intro _ _ _; try dsimp only) | (refine foldl1_memWf _ ?_ _ _ ?_; intro _ _ _; try dsimp only))
@[simp] theorem State.drainRow_holmMem (s : State) (c e : Nat) (o : DrainOps) (x : AuxBlock) (col r : Nat) :
    (s.drainRow c e o x col r).1.holmMem = s.holmMem := by
  unfold State.drainRow
  (try dsimp only)
  repeat' (first | (simp [*]; done) | split)
@[simp] theorem State.dropInFlight_pending (s : State) (isle cls inst : Nat) :
    (s.dropInFlight isle cls inst).pending = s.pending := by simp [State.dropInFlight]
@[simp] theorem State.dropInFlight_mem (s : State) (isle cls inst : Nat) :
    (s.dropInFlight isle cls inst).mem = s.mem := by simp [State.dropInFlight]
@[simp] theorem State.dropInFlight_holmMem (s : State) (isle cls inst : Nat) :
    (s.dropInFlight isle cls inst).holmMem = s.holmMem := by simp [State.dropInFlight]
@[simp] theorem State.disableOx_pending (s : State) (e cause : Nat) :
    (s.disableOx e cause).pending = s.pending := by simp [State.disableOx]
@[simp] theorem State.disableOx_mem (s : State) (e cause : Nat) :
    (s.disableOx e cause).mem = s.mem := by simp [State.disableOx]
@[simp] theorem State.disableOx_holmMem (s : State) (e cause : Nat) :
    (s.disableOx e cause).holmMem = s.holmMem := by simp [State.disableOx]
@[simp] theorem State.moveHousekeeper_pending (s : State) (i n : Nat) :
    (s.moveHousekeeper i n).pending = s.pending := by simp [State.moveHousekeeper, ite_pending]
@[simp] theorem State.moveHousekeeper_mem (s : State) (i n : Nat) :
    (s.moveHousekeeper i n).mem = s.mem := by simp [State.moveHousekeeper, ite_mem]
@[simp] theorem State.moveHousekeeper_holmMem (s : State) (i n : Nat) :
    (s.moveHousekeeper i n).holmMem = s.holmMem := by simp [State.moveHousekeeper, ite_holmMem]
@[simp] theorem State.disableCore_pending (s : State) (k cause : Nat) :
    (s.disableCore k cause).pending = s.pending := by
  unfold State.disableCore
  (try dsimp only)
  repeat' (first | (simp [ite_pending, *]; done) | split)
@[simp] theorem State.disableCore_mem (s : State) (k cause : Nat) :
    (s.disableCore k cause).mem = s.mem := by
  unfold State.disableCore
  (try dsimp only)
  repeat' (first | (simp [ite_mem, *]; done) | split)
@[simp] theorem State.disableCore_holmMem (s : State) (k cause : Nat) :
    (s.disableCore k cause).holmMem = s.holmMem := by
  unfold State.disableCore
  (try dsimp only)
  repeat' (first | (simp [ite_holmMem, *]; done) | split)
@[simp] theorem State.doubleFault_pending (s : State) (k cause : Nat) :
    (s.doubleFault k cause).pending = s.pending := by simp [State.doubleFault, ite_pending]
@[simp] theorem State.doubleFault_mem (s : State) (k cause : Nat) :
    (s.doubleFault k cause).mem = s.mem := by simp [State.doubleFault, ite_mem]
@[simp] theorem State.doubleFault_holmMem (s : State) (k cause : Nat) :
    (s.doubleFault k cause).holmMem = s.holmMem := by simp [State.doubleFault, ite_holmMem]
@[simp] theorem State.trapEntry_pending (s : State) (k cause addr epc : Nat) :
    (s.trapEntry k cause addr epc).pending = s.pending := by simp [State.trapEntry, ite_pending]
@[simp] theorem State.trapEntry_mem (s : State) (k cause addr epc : Nat) :
    (s.trapEntry k cause addr epc).mem = s.mem := by simp [State.trapEntry, ite_mem]
@[simp] theorem State.trapEntry_holmMem (s : State) (k cause addr epc : Nat) :
    (s.trapEntry k cause addr epc).holmMem = s.holmMem := by simp [State.trapEntry, ite_holmMem]
@[simp] theorem State.reportException_pending (s : State) (k c cause pc addr : Nat) (f : Option AccessFault) (kind : Nat) :
    (s.reportException k c cause pc addr f kind).pending = s.pending := by
  unfold State.reportException
  (try dsimp only)
  repeat' (first | (simp [*]; done) | split)
@[simp] theorem State.reportException_mem (s : State) (k c cause pc addr : Nat) (f : Option AccessFault) (kind : Nat) :
    (s.reportException k c cause pc addr f kind).mem = s.mem := by
  unfold State.reportException
  (try dsimp only)
  repeat' (first | (simp [*]; done) | split)
@[simp] theorem State.reportException_holmMem (s : State) (k c cause pc addr : Nat) (f : Option AccessFault) (kind : Nat) :
    (s.reportException k c cause pc addr f kind).holmMem = s.holmMem := by
  unfold State.reportException
  (try dsimp only)
  repeat' (first | (simp [*]; done) | split)
@[simp] theorem State.endKernel_pending (s : State) (k : Nat) :
    (s.endKernel k).pending = s.pending := by
  unfold State.endKernel
  (try dsimp only)
  repeat' (first | (simp [*]; done) | split)
@[simp] theorem State.endKernel_mem (s : State) (k : Nat) :
    (s.endKernel k).mem = s.mem := by
  unfold State.endKernel
  (try dsimp only)
  repeat' (first | (simp [*]; done) | split)
@[simp] theorem State.endKernel_holmMem (s : State) (k : Nat) :
    (s.endKernel k).holmMem = s.holmMem := by
  unfold State.endKernel
  (try dsimp only)
  repeat' (first | (simp [*]; done) | split)
@[simp] theorem State.kernelFault_pending (s : State) (k c cause pc addr : Nat) (f : Option AccessFault) (kind : Nat) :
    (s.kernelFault k c cause pc addr f kind).pending = s.pending := by simp [State.kernelFault, ite_pending]
@[simp] theorem State.kernelFault_mem (s : State) (k c cause pc addr : Nat) (f : Option AccessFault) (kind : Nat) :
    (s.kernelFault k c cause pc addr f kind).mem = s.mem := by simp [State.kernelFault, ite_mem]
@[simp] theorem State.kernelFault_holmMem (s : State) (k c cause pc addr : Nat) (f : Option AccessFault) (kind : Nat) :
    (s.kernelFault k c cause pc addr f kind).holmMem = s.holmMem := by simp [State.kernelFault, ite_holmMem]
@[simp] theorem State.exception_pending (s : State) (k cause addr : Nat) (f : Option AccessFault) (kind : Nat) :
    (s.exception k cause addr f kind).pending = s.pending := by simp [State.exception, ite_pending]
@[simp] theorem State.exception_mem (s : State) (k cause addr : Nat) (f : Option AccessFault) (kind : Nat) :
    (s.exception k cause addr f kind).mem = s.mem := by simp [State.exception, ite_mem]
@[simp] theorem State.exception_holmMem (s : State) (k cause addr : Nat) (f : Option AccessFault) (kind : Nat) :
    (s.exception k cause addr f kind).holmMem = s.holmMem := by simp [State.exception, ite_holmMem]
@[simp] theorem State.cacheLoad_pending (s : State) (a : Nat) :
    (s.cacheLoad a).pending = s.pending := by
  unfold State.cacheLoad
  (try dsimp only)
  repeat' (first | (simp [ite_pending, *]; done) | split)
@[simp] theorem State.cacheLoad_mem (s : State) (a : Nat) :
    (s.cacheLoad a).mem = s.mem := by
  unfold State.cacheLoad
  (try dsimp only)
  repeat' (first | (simp [ite_mem, *]; done) | split)
@[simp] theorem State.cacheLoad_holmMem (s : State) (a : Nat) :
    (s.cacheLoad a).holmMem = s.holmMem := by
  unfold State.cacheLoad
  (try dsimp only)
  repeat' (first | (simp [ite_holmMem, *]; done) | split)
@[simp] theorem State.remoteRequest_pending (s : State) (k c : Nat) (port : Nat) (w : WindowOps) (n : Nat) (t : Tx) (land : Landing) :
    (s.remoteRequest k c port w n t land).pending = s.pending := by simp [State.remoteRequest]
@[simp] theorem State.remoteRequest_mem (s : State) (k c : Nat) (port : Nat) (w : WindowOps) (n : Nat) (t : Tx) (land : Landing) :
    (s.remoteRequest k c port w n t land).mem = s.mem := by simp [State.remoteRequest]
@[simp] theorem State.remoteRequest_holmMem (s : State) (k c : Nat) (port : Nat) (w : WindowOps) (n : Nat) (t : Tx) (land : Landing) :
    (s.remoteRequest k c port w n t land).holmMem = s.holmMem := by simp [State.remoteRequest]
@[simp] theorem State.rebaseLine_pending (s : State) (a : Nat) :
    (s.rebaseLine a).pending = s.pending := by
  unfold State.rebaseLine
  (try dsimp only)
  repeat' (first | (simp [ite_pending, *]; done) | split)
@[simp] theorem State.rebaseLine_mem (s : State) (a : Nat) :
    (s.rebaseLine a).mem = s.mem := by
  unfold State.rebaseLine
  (try dsimp only)
  repeat' (first | (simp [ite_mem, *]; done) | split)
@[simp] theorem State.rebaseLine_holmMem (s : State) (a : Nat) :
    (s.rebaseLine a).holmMem = s.holmMem := by
  unfold State.rebaseLine
  (try dsimp only)
  repeat' (first | (simp [ite_holmMem, *]; done) | split)
@[simp] theorem State.sleepCore_pending (s : State) (k : Nat) :
    (s.sleepCore k).pending = s.pending := by simp [State.sleepCore, ite_pending]
@[simp] theorem State.sleepCore_memWf (s : State) (k : Nat) (hw : s.mem.wf = true) :
    (s.sleepCore k).mem.wf = true := by
  unfold State.sleepCore
  (try dsimp only)
  repeat' (first | (simp [ite_mem, *]; done) | split)
@[simp] theorem State.sleepCore_holmMem (s : State) (k : Nat) :
    (s.sleepCore k).holmMem = s.holmMem := by simp [State.sleepCore, ite_holmMem]
@[simp] theorem State.retainIsle_pending (s : State) (i : Nat) :
    (s.retainIsle i).pending = s.pending := by simp [State.retainIsle]
@[simp] theorem State.retainIsle_mem (s : State) (i : Nat) :
    (s.retainIsle i).mem = s.mem := by simp [State.retainIsle]
@[simp] theorem State.retainIsle_holmMem (s : State) (i : Nat) :
    (s.retainIsle i).holmMem = s.holmMem := by simp [State.retainIsle]
@[simp] theorem State.writeCsr_pending (s : State) (c : CoreId) (n : Nat) (v : Word) :
    (s.writeCsr c n v).pending = s.pending := by
  unfold State.writeCsr
  (try dsimp only)
  repeat' (first | (simp [ite_pending, *]; done) | split)
@[simp] theorem State.writeCsr_mem (s : State) (c : CoreId) (n : Nat) (v : Word) :
    (s.writeCsr c n v).mem = s.mem := by
  unfold State.writeCsr
  (try dsimp only)
  repeat' (first | (simp [ite_mem, *]; done) | split)
@[simp] theorem State.writeCsr_holmMem (s : State) (c : CoreId) (n : Nat) (v : Word) :
    (s.writeCsr c n v).holmMem = s.holmMem := by
  unfold State.writeCsr
  (try dsimp only)
  repeat' (first | (simp [ite_holmMem, *]; done) | split)
@[simp] theorem State.laneAside_pending (s : State) (port lane : Nat) :
    (s.laneAside port lane).pending = s.pending := by simp [State.laneAside, ite_pending]
@[simp] theorem State.laneAside_mem (s : State) (port lane : Nat) :
    (s.laneAside port lane).mem = s.mem := by simp [State.laneAside, ite_mem]
@[simp] theorem State.laneAside_holmMem (s : State) (port lane : Nat) :
    (s.laneAside port lane).holmMem = s.holmMem := by simp [State.laneAside, ite_holmMem]
@[simp] theorem State.portDown_pending (s : State) (port : Nat) :
    (s.portDown port).pending = s.pending := by simp [State.portDown, ite_pending]
@[simp] theorem State.portDown_mem (s : State) (port : Nat) :
    (s.portDown port).mem = s.mem := by simp [State.portDown, ite_mem]
@[simp] theorem State.portDown_holmMem (s : State) (port : Nat) :
    (s.portDown port).holmMem = s.holmMem := by simp [State.portDown, ite_holmMem]
@[simp] theorem State.laneOut_pending (s : State) (port lane : Nat) :
    (s.laneOut port lane).pending = s.pending := by simp [State.laneOut, ite_pending]
@[simp] theorem State.laneOut_mem (s : State) (port lane : Nat) :
    (s.laneOut port lane).mem = s.mem := by simp [State.laneOut, ite_mem]
@[simp] theorem State.laneOut_holmMem (s : State) (port lane : Nat) :
    (s.laneOut port lane).holmMem = s.holmMem := by simp [State.laneOut, ite_holmMem]
@[simp] theorem State.dropLane_pending (s : State) (port lane : Nat) :
    (s.dropLane port lane).pending = s.pending := by simp [State.dropLane, ite_pending]
@[simp] theorem State.dropLane_mem (s : State) (port lane : Nat) :
    (s.dropLane port lane).mem = s.mem := by simp [State.dropLane, ite_mem]
@[simp] theorem State.dropLane_holmMem (s : State) (port lane : Nat) :
    (s.dropLane port lane).holmMem = s.holmMem := by simp [State.dropLane, ite_holmMem]
@[simp] theorem State.checkSpares_pending (s : State) (port : Nat) :
    (s.checkSpares port).pending = s.pending := by simp [State.checkSpares, ite_pending]
@[simp] theorem State.checkSpares_mem (s : State) (port : Nat) :
    (s.checkSpares port).mem = s.mem := by simp [State.checkSpares, ite_mem]
@[simp] theorem State.checkSpares_holmMem (s : State) (port : Nat) :
    (s.checkSpares port).holmMem = s.holmMem := by simp [State.checkSpares, ite_holmMem]
@[simp] theorem State.laserFailed_pending (s : State) (port n bias : Nat) :
    (s.laserFailed port n bias).pending = s.pending := by
  unfold State.laserFailed
  (try dsimp only)
  repeat' (first | (simp [*]; done) | split)
@[simp] theorem State.laserFailed_mem (s : State) (port n bias : Nat) :
    (s.laserFailed port n bias).mem = s.mem := by
  unfold State.laserFailed
  (try dsimp only)
  repeat' (first | (simp [*]; done) | split)
@[simp] theorem State.laserFailed_holmMem (s : State) (port n bias : Nat) :
    (s.laserFailed port n bias).holmMem = s.holmMem := by
  unfold State.laserFailed
  (try dsimp only)
  repeat' (first | (simp [*]; done) | split)
@[simp] theorem State.revertMove_pending (s : State) (port : Nat) (b : Substitution) :
    (s.revertMove port b).pending = s.pending := by rfl
@[simp] theorem State.revertMove_mem (s : State) (port : Nat) (b : Substitution) :
    (s.revertMove port b).mem = s.mem := by rfl
@[simp] theorem State.revertMove_holmMem (s : State) (port : Nat) (b : Substitution) :
    (s.revertMove port b).holmMem = s.holmMem := by rfl

end Sys2Proof.Machine
end

