-- ==== Sys2Proof/Laws/Cores.lean ====
section
/-! SUPPORT. Everything that one instruction of a core can do (R95, R99, R116, R117, R123). -/

namespace Sys2Proof.Machine

/-- An instruction leaves the state, traps on a wake source, raises an exception (of its fetch, of its word, of its own or of its budget),
counts a beat of its hold, or ends as its body says, where the word at PC spells it. -/
theorem instr_next {s t : State} {i : Instr} {c : CoreId} {body : State → CoreSt → Retire} (h : s.instr i c body = .next t) :
    t = s ∨ (∃ n, t = s.trapEntry c.key (0x80 + n) 0 (s.core c.key).pc.toNat) ∨
    (∃ cause addr f kind, t = s.exception c.key cause addr f kind) ∨
    (s.fetched c = some i ∧ ((∃ b, body s (s.core c.key) = .hold b) ∧ t = (s.updCore c.key fun y => { y with beats := y.beats + 1 }) ∨
      body s (s.core c.key) = .stop t ∨
      ∃ u pc beats, body s (s.core c.key) = .go u pc beats ∧ t = u.updCore c.key fun y => { y with
        pc := BitVec.ofNat 64 pc, beats := if (s.core c.key).kernel then y.beats + beats else y.beats })) := by
  unfold State.instr at h
  dsimp only at h
  split at h
  · exact .inl (by injection h with h; exact h.symm)
  split at h
  · exact .inr (.inl ⟨_, by injection h with h; exact h.symm⟩)
  split at h
  · exact .inr (.inr (.inl ⟨_, _, _, _, by injection h with h; exact h.symm⟩))
  split at h
  · exact .inr (.inr (.inl ⟨_, _, _, _, by injection h with h; exact h.symm⟩))
  split at h
  · exact .inl (by injection h with h; exact h.symm)
  next hi =>
  replace hi := Decidable.not_not.mp hi
  split at h
  · next b e =>
    split at h
    · exact .inl (by injection h with h; exact h.symm)
    split at h
    · exact .inr (.inr (.inl ⟨_, _, _, _, by injection h with h; exact h.symm⟩))
    · exact .inr (.inr (.inr ⟨hi, .inl ⟨⟨b, e⟩, by injection h with h; exact h.symm⟩⟩))
  · next e => exact .inr (.inr (.inr ⟨hi, .inr (.inl (by injection h with h; rw [← h]; exact e))⟩))
  · exact .inr (.inr (.inl ⟨_, _, _, _, by injection h with h; exact h.symm⟩))
  · next u pc beats e =>
    split at h
    · exact .inr (.inr (.inl ⟨_, _, _, _, by injection h with h; exact h.symm⟩))
    · exact .inr (.inr (.inr ⟨hi, .inr (.inr ⟨u, pc, beats, e, by injection h with h; exact h.symm⟩)⟩))

/-- An instruction that changes only the core's registers, where the core runs, has no wake trap to take, fetches the word of the
instruction, and has the beats. -/
theorem regInstr_legal {s : State} {i : Instr} {c : CoreId} {legal : Bool} {beats : Nat} {f : CoreSt → CoreSt} (hl : legal = true)
    (h : CoreReady s c i beats) :
    s.regInstr i c legal beats f = .next ((s.updCore c.key f).updCore c.key fun y => { y with
      pc := BitVec.ofNat 64 ((s.core c.key).pc.toNat + 4)
      beats := if (s.core c.key).kernel then y.beats + beats else y.beats }) := by
  obtain ⟨hr, ht, hf, hi, hb⟩ := h
  unfold State.regInstr State.instr
  simp only [hr, ht, hf, hi, hl, Bool.not_true, Bool.false_eq_true, if_false, if_true, ne_eq, not_true_eq_false, reduceCtorEq]
  rw [if_neg]
  intro h
  simp only [Bool.and_eq_true, decide_eq_true_eq] at h
  exact absurd h.2 (Nat.not_lt.mpr (hb h.1))

/-- What an instruction's body keeps, the instruction keeps. -/
theorem instr_kept {s t : State} {i : Instr} {c : CoreId} {body : State → CoreSt → Retire} (h : s.instr i c body = .next t)
    (P : State → Prop) (hs : P s) (htrap : ∀ n, P (s.trapEntry c.key (0x80 + n) 0 (s.core c.key).pc.toNat))
    (hexc : ∀ cause addr f kind, P (s.exception c.key cause addr f kind)) (hhold : ∀ f, P (s.updCore c.key f))
    (hstop : ∀ u, body s (s.core c.key) = .stop u → P u)
    (hgo : ∀ u pc beats, body s (s.core c.key) = .go u pc beats → ∀ f, P (u.updCore c.key f)) : P t := by
  obtain rfl | ⟨n, rfl⟩ | ⟨_, _, _, _, rfl⟩ | ⟨_, ⟨_, rfl⟩ | e | ⟨u, pc, beats, e, rfl⟩⟩ := instr_next h
  · exact hs
  · exact htrap n
  · exact hexc _ _ _ _
  · exact hhold _
  · exact hstop _ e
  · exact hgo _ _ _ e _

end Sys2Proof.Machine
end

