-- ==== Sys2Proof/Laws/KeepLinks.lean ====
section
/-! SUPPORT. What the operations of the dictionary server, Narrows, Strait, loading and the bridges leave alone: the queue of commands, and the memory and the
buffers of the Holm, which keep their canonical form where they are written. -/

namespace Sys2Proof.Machine

@[simp] theorem State.disarm_pending (s : State) (cause : Nat) :
    (s.disarm cause).pending = s.pending := by simp [State.disarm, ite_pending]
@[simp] theorem State.disarm_mem (s : State) (cause : Nat) :
    (s.disarm cause).mem = s.mem := by simp [State.disarm, ite_mem]
@[simp] theorem State.disarm_holmMem (s : State) (cause : Nat) :
    (s.disarm cause).holmMem = s.holmMem := by simp [State.disarm, ite_holmMem]
@[simp] theorem State.endSession_pending (s : State) (n : Nat) :
    (s.endSession n).pending = s.pending := by simp [State.endSession, ite_pending]
@[simp] theorem State.endSession_mem (s : State) (n : Nat) :
    (s.endSession n).mem = s.mem := by simp [State.endSession, ite_mem]
@[simp] theorem State.endSession_holmMem (s : State) (n : Nat) :
    (s.endSession n).holmMem = s.holmMem := by simp [State.endSession, ite_holmMem]
@[simp] theorem State.chanReset_pending (s : State) (n : Nat) :
    (s.chanReset n).pending = s.pending := by simp [State.chanReset]
@[simp] theorem State.chanReset_mem (s : State) (n : Nat) :
    (s.chanReset n).mem = s.mem := by simp [State.chanReset]
@[simp] theorem State.chanReset_holmMem (s : State) (n : Nat) :
    (s.chanReset n).holmMem = s.holmMem := by simp [State.chanReset]
@[simp] theorem State.answerReq_pending (s : State) (req : Req) (fn : Nat) (r : Reply) :
    (s.answerReq req fn r).pending = s.pending := by
  unfold State.answerReq
  (try dsimp only)
  repeat' (first | (simp [*]; done) | split)
@[simp] theorem State.answerReq_mem (s : State) (req : Req) (fn : Nat) (r : Reply) :
    (s.answerReq req fn r).mem = s.mem := by
  unfold State.answerReq
  (try dsimp only)
  repeat' (first | (simp [*]; done) | split)
@[simp] theorem State.answerReq_holmMem (s : State) (req : Req) (fn : Nat) (r : Reply) :
    (s.answerReq req fn r).holmMem = s.holmMem := by
  unfold State.answerReq
  (try dsimp only)
  repeat' (first | (simp [*]; done) | split)
@[simp] theorem State.broadcastDropped_pending (s : State) :
    (s.broadcastDropped).pending = s.pending := by rfl
@[simp] theorem State.broadcastDropped_mem (s : State) :
    (s.broadcastDropped).mem = s.mem := by rfl
@[simp] theorem State.broadcastDropped_holmMem (s : State) :
    (s.broadcastDropped).holmMem = s.holmMem := by rfl
@[simp] theorem State.serve_pending (s : State) (req : Req) (fn idx sub : Nat) (args : List Byte) (perform : State → Performed) (hperform : ∀ t, (perform t).1.pending = t.pending) :
    (s.serve req fn idx sub args perform).pending = s.pending := by
  have h := hperform s
  unfold State.serve
  dsimp only
  repeat' (first | (simp_all; done) | split)
@[simp] theorem State.serve_mem (s : State) (req : Req) (fn idx sub : Nat) (args : List Byte) (perform : State → Performed) (hperform : ∀ t, (perform t).1.mem = t.mem) :
    (s.serve req fn idx sub args perform).mem = s.mem := by
  have h := hperform s
  unfold State.serve
  dsimp only
  repeat' (first | (simp_all; done) | split)
@[simp] theorem State.serve_memWf (s : State) (req : Req) (fn idx sub : Nat) (args : List Byte) (perform : State → Performed) (hperform : ∀ t, t.mem.wf = true → (perform t).1.mem.wf = true) (hw : s.mem.wf = true) :
    (s.serve req fn idx sub args perform).mem.wf = true := by
  have h := hperform s hw
  unfold State.serve
  dsimp only
  repeat' (first | (simp_all; done) | split)
@[simp] theorem State.serve_holmMem (s : State) (req : Req) (fn idx sub : Nat) (args : List Byte) (perform : State → Performed) (hperform : ∀ t, (perform t).1.holmMem = t.holmMem) :
    (s.serve req fn idx sub args perform).holmMem = s.holmMem := by
  have h := hperform s
  unfold State.serve
  dsimp only
  repeat' (first | (simp_all; done) | split)
@[simp] theorem State.serve_holmMemWf (s : State) (req : Req) (fn idx sub : Nat) (args : List Byte) (perform : State → Performed) (hperform : ∀ t, t.holmMem.wf = true → (perform t).1.holmMem.wf = true) (hw : s.holmMem.wf = true) :
    (s.serve req fn idx sub args perform).holmMem.wf = true := by
  have h := hperform s hw
  unfold State.serve
  dsimp only
  repeat' (first | (simp_all; done) | split)
@[simp] theorem State.refuseFrame_pending (s : State) (ch : Channel) (broadcast : Bool) (control : Nat) (payload : List Byte) (e : Nat) :
    (s.refuseFrame ch broadcast control payload e).pending = s.pending := by simp [State.refuseFrame, ite_pending]
@[simp] theorem State.refuseFrame_mem (s : State) (ch : Channel) (broadcast : Bool) (control : Nat) (payload : List Byte) (e : Nat) :
    (s.refuseFrame ch broadcast control payload e).mem = s.mem := by simp [State.refuseFrame, ite_mem]
@[simp] theorem State.refuseFrame_holmMem (s : State) (ch : Channel) (broadcast : Bool) (control : Nat) (payload : List Byte) (e : Nat) :
    (s.refuseFrame ch broadcast control payload e).holmMem = s.holmMem := by simp [State.refuseFrame, ite_holmMem]
@[simp] theorem State.challenge_pending (s : State) (ch : Channel) :
    (s.challenge ch).1.pending = s.pending := by
  unfold State.challenge
  (try dsimp only)
  repeat' (first | (simp [*]; done) | split)
@[simp] theorem State.challenge_mem (s : State) (ch : Channel) :
    (s.challenge ch).1.mem = s.mem := by
  unfold State.challenge
  (try dsimp only)
  repeat' (first | (simp [*]; done) | split)
@[simp] theorem State.challenge_holmMem (s : State) (ch : Channel) :
    (s.challenge ch).1.holmMem = s.holmMem := by
  unfold State.challenge
  (try dsimp only)
  repeat' (first | (simp [*]; done) | split)
@[simp] theorem State.failResponse_pending (s : State) (ch : Channel) :
    (s.failResponse ch).pending = s.pending := by simp [State.failResponse, ite_pending]
@[simp] theorem State.failResponse_mem (s : State) (ch : Channel) :
    (s.failResponse ch).mem = s.mem := by simp [State.failResponse, ite_mem]
@[simp] theorem State.failResponse_holmMem (s : State) (ch : Channel) :
    (s.failResponse ch).holmMem = s.holmMem := by simp [State.failResponse, ite_holmMem]
@[simp] theorem State.respond_pending (s : State) (ch : Channel) (h : List Byte) :
    (s.respond ch h).1.pending = s.pending := by
  unfold State.respond
  (try dsimp only)
  repeat' (first | (simp [*]; done) | split)
@[simp] theorem State.respond_mem (s : State) (ch : Channel) (h : List Byte) :
    (s.respond ch h).1.mem = s.mem := by
  unfold State.respond
  (try dsimp only)
  repeat' (first | (simp [*]; done) | split)
@[simp] theorem State.respond_holmMem (s : State) (ch : Channel) (h : List Byte) :
    (s.respond ch h).1.holmMem = s.holmMem := by
  unfold State.respond
  (try dsimp only)
  repeat' (first | (simp [*]; done) | split)
@[simp] theorem State.rotateKey_pending (s : State) (ch : Channel) (b : List Byte) :
    (s.rotateKey ch b).1.pending = s.pending := by
  unfold State.rotateKey
  (try dsimp only)
  repeat' (first | (simp [ite_pending, *]; done) | split)
@[simp] theorem State.rotateKey_mem (s : State) (ch : Channel) (b : List Byte) :
    (s.rotateKey ch b).1.mem = s.mem := by
  unfold State.rotateKey
  (try dsimp only)
  repeat' (first | (simp [ite_mem, *]; done) | split)
@[simp] theorem State.rotateKey_holmMem (s : State) (ch : Channel) (b : List Byte) :
    (s.rotateKey ch b).1.holmMem = s.holmMem := by
  unfold State.rotateKey
  (try dsimp only)
  repeat' (first | (simp [ite_holmMem, *]; done) | split)
@[simp] theorem State.dmaWrite_pending (s : State) (p a : Nat) (bs : List Byte) :
    (s.dmaWrite p a bs).pending = s.pending := by simp [State.dmaWrite, ite_pending]
@[simp] theorem State.dmaWrite_mem (s : State) (p a : Nat) (bs : List Byte) :
    (s.dmaWrite p a bs).mem = s.mem := by simp [State.dmaWrite, ite_mem]
@[simp] theorem State.dmaWrite_holmMemWf (s : State) (p a : Nat) (bs : List Byte) (hw : s.holmMem.wf = true) :
    (s.dmaWrite p a bs).holmMem.wf = true := by
  unfold State.dmaWrite
  (try dsimp only)
  repeat' (first | (simp [ite_holmMem, *]; done) | split)
@[simp] theorem State.closeBlock_pending (s : State) (p cause : Nat) :
    (s.closeBlock p cause).pending = s.pending := by
  unfold State.closeBlock
  (try dsimp only)
  repeat' (first | (simp [*]; done) | split)
@[simp] theorem State.closeBlock_mem (s : State) (p cause : Nat) :
    (s.closeBlock p cause).mem = s.mem := by
  unfold State.closeBlock
  (try dsimp only)
  repeat' (first | (simp [*]; done) | split)
@[simp] theorem State.closeBlock_holmMemWf (s : State) (p cause : Nat) (hw : s.holmMem.wf = true) :
    (s.closeBlock p cause).holmMem.wf = true := by
  unfold State.closeBlock
  (try dsimp only)
  repeat' (first | (simp [*]; done) | split)
@[simp] theorem State.bufFull_pending (s : State) (p : Nat) :
    (s.bufFull p).pending = s.pending := by simp [State.bufFull]
@[simp] theorem State.bufFull_mem (s : State) (p : Nat) :
    (s.bufFull p).mem = s.mem := by simp [State.bufFull]
@[simp] theorem State.bufFull_holmMem (s : State) (p : Nat) :
    (s.bufFull p).holmMem = s.holmMem := by simp [State.bufFull]
@[simp] theorem State.dmaTake_put_pending (s : State) (p e place : Nat) (b : RxBlock) :
    (State.dmaTake.put p e s place b).1.pending = s.pending := by
  unfold State.dmaTake.put
  dsimp only
  repeat' (first | (simp [ite_pending, *]; done) | split)
@[simp] theorem State.dmaTake_put_mem (s : State) (p e place : Nat) (b : RxBlock) :
    (State.dmaTake.put p e s place b).1.mem = s.mem := by
  unfold State.dmaTake.put
  dsimp only
  repeat' (first | (simp [ite_mem, *]; done) | split)
@[simp] theorem State.dmaTake_put_holmMemWf (s : State) (p e place : Nat) (b : RxBlock) (hw : s.holmMem.wf = true) :
    (State.dmaTake.put p e s place b).1.holmMem.wf = true := by
  unfold State.dmaTake.put
  dsimp only
  repeat' (first | (simp [ite_holmMem, *]; done) | split)
@[simp] theorem State.dmaTake_pending (s : State) (p e : Nat) :
    (s.dmaTake p e).1.pending = s.pending := by
  unfold State.dmaTake
  (try dsimp only)
  repeat' (first | (simp [*]; done) | split)
@[simp] theorem State.dmaTake_mem (s : State) (p e : Nat) :
    (s.dmaTake p e).1.mem = s.mem := by
  unfold State.dmaTake
  (try dsimp only)
  repeat' (first | (simp [*]; done) | split)
@[simp] theorem State.dmaTake_holmMemWf (s : State) (p e : Nat) (hw : s.holmMem.wf = true) :
    (s.dmaTake p e).1.holmMem.wf = true := by
  unfold State.dmaTake
  (try dsimp only)
  repeat' (first | (simp [*]; done) | split)
@[simp] theorem State.dmaGo_pending (p : Nat) (l : List Nat) (s : State) :
    (State.dmaGo p l s).pending = s.pending := by
  induction l generalizing s with
  | nil => simp [State.dmaGo, *]
  | cons e l ih =>
    unfold State.dmaGo
    have h := State.dmaTake_pending s p e
    split <;> simp_all
@[simp] theorem State.dmaGo_mem (p : Nat) (l : List Nat) (s : State) :
    (State.dmaGo p l s).mem = s.mem := by
  induction l generalizing s with
  | nil => simp [State.dmaGo, *]
  | cons e l ih =>
    unfold State.dmaGo
    have h := State.dmaTake_mem s p e
    split <;> simp_all
@[simp] theorem State.dmaGo_holmMemWf (p : Nat) (l : List Nat) (s : State) (hw : s.holmMem.wf = true) :
    (State.dmaGo p l s).holmMem.wf = true := by
  induction l generalizing s with
  | nil => simp [State.dmaGo, *]
  | cons e l ih =>
    unfold State.dmaGo
    have h := State.dmaTake_holmMemWf s p e hw
    split <;> simp_all
@[simp] theorem State.dmaRun_pending (s : State) (p : Nat) :
    (s.dmaRun p).pending = s.pending := by simp [State.dmaRun, ite_pending]
@[simp] theorem State.dmaRun_mem (s : State) (p : Nat) :
    (s.dmaRun p).mem = s.mem := by simp [State.dmaRun, ite_mem]
@[simp] theorem State.dmaRun_holmMemWf (s : State) (p : Nat) (hw : s.holmMem.wf = true) :
    (s.dmaRun p).holmMem.wf = true := by
  unfold State.dmaRun
  (try dsimp only)
  repeat' (first | (simp [ite_holmMem, *]; done) | split)
@[simp] theorem State.placeEntry_pending (s : State) (p e : Nat) :
    (s.placeEntry p e).pending = s.pending := by simp [State.placeEntry, ite_pending]
@[simp] theorem State.placeEntry_mem (s : State) (p e : Nat) :
    (s.placeEntry p e).mem = s.mem := by simp [State.placeEntry, ite_mem]
@[simp] theorem State.placeEntry_holmMemWf (s : State) (p e : Nat) (hw : s.holmMem.wf = true) :
    (s.placeEntry p e).holmMem.wf = true := by
  unfold State.placeEntry
  (try dsimp only)
  repeat' (first | (simp [ite_holmMem, *]; done) | split)
@[simp] theorem State.nodeChanged_pending (s : State) (old : Nat) :
    (s.nodeChanged old).pending = s.pending := by simp [State.nodeChanged, ite_pending]
@[simp] theorem State.nodeChanged_mem (s : State) (old : Nat) :
    (s.nodeChanged old).mem = s.mem := by simp [State.nodeChanged, ite_mem]
@[simp] theorem State.nodeChanged_holmMem (s : State) (old : Nat) :
    (s.nodeChanged old).holmMem = s.holmMem := by simp [State.nodeChanged, ite_holmMem]
@[simp] theorem State.holmConfig_pending (s : State) (p : Nat) :
    (s.holmConfig p).pending = s.pending := by rfl
@[simp] theorem State.holmConfig_mem (s : State) (p : Nat) :
    (s.holmConfig p).mem = s.mem := by rfl
@[simp] theorem State.holmConfig_holmMem (s : State) (p : Nat) :
    (s.holmConfig p).holmMem = s.holmMem := by rfl
@[simp] theorem State.setUartOwner_pending (s : State) (p owner : Nat) :
    (s.setUartOwner p owner).pending = s.pending := by simp [State.setUartOwner, ite_pending]
@[simp] theorem State.setUartOwner_mem (s : State) (p owner : Nat) :
    (s.setUartOwner p owner).mem = s.mem := by simp [State.setUartOwner, ite_mem]
@[simp] theorem State.setUartOwner_holmMemWf (s : State) (p owner : Nat) (hw : s.holmMem.wf = true) :
    (s.setUartOwner p owner).holmMem.wf = true := by
  unfold State.setUartOwner
  (try dsimp only)
  repeat' (first | (simp [ite_holmMem, *]; done) | split)
@[simp] theorem State.resend_pending (s : State) (port : Nat) :
    (s.resend port).pending = s.pending := by simp [State.resend, ite_pending]
@[simp] theorem State.resend_mem (s : State) (port : Nat) :
    (s.resend port).mem = s.mem := by simp [State.resend, ite_mem]
@[simp] theorem State.resend_holmMem (s : State) (port : Nat) :
    (s.resend port).holmMem = s.holmMem := by simp [State.resend, ite_holmMem]
@[simp] theorem State.replay_pending (s : State) (port : Nat) :
    (s.replay port).pending = s.pending := by simp [State.replay, ite_pending]
@[simp] theorem State.replay_mem (s : State) (port : Nat) :
    (s.replay port).mem = s.mem := by simp [State.replay, ite_mem]
@[simp] theorem State.replay_holmMem (s : State) (port : Nat) :
    (s.replay port).holmMem = s.holmMem := by simp [State.replay, ite_holmMem]
@[simp] theorem State.ackNow_pending (s : State) (port : Nat) :
    (s.ackNow port).pending = s.pending := by simp [State.ackNow, ite_pending]
@[simp] theorem State.ackNow_mem (s : State) (port : Nat) :
    (s.ackNow port).mem = s.mem := by simp [State.ackNow, ite_mem]
@[simp] theorem State.ackNow_holmMem (s : State) (port : Nat) :
    (s.ackNow port).holmMem = s.holmMem := by simp [State.ackNow, ite_holmMem]
@[simp] theorem State.performed_pending (s : State) (port tag : Nat) :
    (s.performed port tag).pending = s.pending := by simp [State.performed, ite_pending]
@[simp] theorem State.performed_mem (s : State) (port tag : Nat) :
    (s.performed port tag).mem = s.mem := by simp [State.performed, ite_mem]
@[simp] theorem State.performed_holmMem (s : State) (port tag : Nat) :
    (s.performed port tag).holmMem = s.holmMem := by simp [State.performed, ite_holmMem]
@[simp] theorem State.settleHeld_pending (s : State) (port : Nat) :
    (s.settleHeld port).pending = s.pending := by
  unfold State.settleHeld
  (try dsimp only)
  repeat' (first | (simp [ite_pending, *]; done) | split)
@[simp] theorem State.settleHeld_mem (s : State) (port : Nat) :
    (s.settleHeld port).mem = s.mem := by
  unfold State.settleHeld
  (try dsimp only)
  repeat' (first | (simp [ite_mem, *]; done) | split)
@[simp] theorem State.settleHeld_holmMem (s : State) (port : Nat) :
    (s.settleHeld port).holmMem = s.holmMem := by
  unfold State.settleHeld
  (try dsimp only)
  repeat' (first | (simp [ite_holmMem, *]; done) | split)
@[simp] theorem State.refuseRequest_pending (s : State) (port : Nat) (h : Tx) (cause : Nat) (c : Option Nat) :
    (s.refuseRequest port h cause c).pending = s.pending := by simp [State.refuseRequest]
@[simp] theorem State.refuseRequest_mem (s : State) (port : Nat) (h : Tx) (cause : Nat) (c : Option Nat) :
    (s.refuseRequest port h cause c).mem = s.mem := by simp [State.refuseRequest]
@[simp] theorem State.refuseRequest_holmMem (s : State) (port : Nat) (h : Tx) (cause : Nat) (c : Option Nat) :
    (s.refuseRequest port h cause c).holmMem = s.holmMem := by simp [State.refuseRequest]
@[simp] theorem State.drained_pending (s : State) (port : Nat) (t : Tx) :
    (s.drained port t).pending = s.pending := by rfl
@[simp] theorem State.drained_mem (s : State) (port : Nat) (t : Tx) :
    (s.drained port t).mem = s.mem := by rfl
@[simp] theorem State.drained_holmMem (s : State) (port : Nat) (t : Tx) :
    (s.drained port t).holmMem = s.holmMem := by rfl
@[simp] theorem State.remoteBad_pending (s : State) (port c : Nat) (f : Option AccessFault) :
    (s.remoteBad port c f).pending = s.pending := by
  unfold State.remoteBad
  (try dsimp only)
  repeat' (first | (simp [ite_pending, *]; done) | split)
@[simp] theorem State.remoteBad_mem (s : State) (port c : Nat) (f : Option AccessFault) :
    (s.remoteBad port c f).mem = s.mem := by
  unfold State.remoteBad
  (try dsimp only)
  repeat' (first | (simp [ite_mem, *]; done) | split)
@[simp] theorem State.remoteBad_holmMem (s : State) (port c : Nat) (f : Option AccessFault) :
    (s.remoteBad port c f).holmMem = s.holmMem := by
  unfold State.remoteBad
  (try dsimp only)
  repeat' (first | (simp [ite_holmMem, *]; done) | split)
@[simp] theorem State.performRequest_pending (s : State) (port c : Nat) (t : Tx) (fault : State → Nat → State)
    (act : State → Nat → Except Nat State) (hf : ∀ u c, (fault u c).pending = u.pending)
    (hact : ∀ u c v, act u c = .ok v → v.pending = u.pending) :
    (s.performRequest port c t fault act).pending = s.pending := by
  have h0 := State.crossRoute_pending s c (sitePlace (siteOf port)) t.targetIsle (if t.kind = .token then 3 else 0) none
  unfold State.performRequest
  dsimp only
  generalize s.crossRoute c (sitePlace (siteOf port)) t.targetIsle (if t.kind = .token then 3 else 0) none = q at h0 ⊢
  split
  · simp [*]
  · split
    · rename_i u hu
      have h1 := hact _ _ _ hu
      repeat' (first | (simp [*]; done) | split)
    · simp [*]
@[simp] theorem State.admitRequest_pending (s : State) (port : Nat) (t : Tx) (fault : State → Nat → State)
    (act : State → Nat → Except Nat State) (hf : ∀ u c, (fault u c).pending = u.pending)
    (hact : ∀ u c v, act u c = .ok v → v.pending = u.pending) :
    (s.admitRequest port t fault act).pending = s.pending := by
  have h0 := State.inject1_pending (s.drained port t) 1 port 1 1
  unfold State.admitRequest
  dsimp only
  split
  · split <;> simp [*]
  · split
    · simp [*]
    · split
      · simp [*]
      · rw [State.performRequest_pending _ _ _ _ _ _ hf hact]; simp [*]
@[simp] theorem State.receive_pending (s : State) (port : Nat) (t : Tx) (fault : State → Nat → State)
    (act : State → Nat → Except Nat State) (hf : ∀ u c, (fault u c).pending = u.pending)
    (hact : ∀ u c v, act u c = .ok v → v.pending = u.pending) :
    (s.receive port t fault act).pending = s.pending := by
  unfold State.receive
  split
  · rfl
  · rw [State.flush_pending]
    rw [State.admitRequest_pending _ _ _ _ _ hf hact]; simp
@[simp] theorem State.performRequest_mem (s : State) (port c : Nat) (t : Tx) (fault : State → Nat → State)
    (act : State → Nat → Except Nat State) (hf : ∀ u c, (fault u c).mem = u.mem)
    (hact : ∀ u c v, act u c = .ok v → v.mem = u.mem) :
    (s.performRequest port c t fault act).mem = s.mem := by
  have h0 := State.crossRoute_mem s c (sitePlace (siteOf port)) t.targetIsle (if t.kind = .token then 3 else 0) none
  unfold State.performRequest
  dsimp only
  generalize s.crossRoute c (sitePlace (siteOf port)) t.targetIsle (if t.kind = .token then 3 else 0) none = q at h0 ⊢
  split
  · simp [*]
  · split
    · rename_i u hu
      have h1 := hact _ _ _ hu
      repeat' (first | (simp [*]; done) | split)
    · simp [*]
@[simp] theorem State.admitRequest_mem (s : State) (port : Nat) (t : Tx) (fault : State → Nat → State)
    (act : State → Nat → Except Nat State) (hf : ∀ u c, (fault u c).mem = u.mem)
    (hact : ∀ u c v, act u c = .ok v → v.mem = u.mem) :
    (s.admitRequest port t fault act).mem = s.mem := by
  have h0 := State.inject1_mem (s.drained port t) 1 port 1 1
  unfold State.admitRequest
  dsimp only
  split
  · split <;> simp [*]
  · split
    · simp [*]
    · split
      · simp [*]
      · rw [State.performRequest_mem _ _ _ _ _ _ hf hact]; simp [*]
@[simp] theorem State.receive_mem (s : State) (port : Nat) (t : Tx) (fault : State → Nat → State)
    (act : State → Nat → Except Nat State) (hf : ∀ u c, (fault u c).mem = u.mem)
    (hact : ∀ u c v, act u c = .ok v → v.mem = u.mem) :
    (s.receive port t fault act).mem = s.mem := by
  unfold State.receive
  split
  · rfl
  · rw [State.flush_mem]
    rw [State.admitRequest_mem _ _ _ _ _ hf hact]; simp
@[simp] theorem State.performRequest_memWf (s : State) (port c : Nat) (t : Tx) (fault : State → Nat → State)
    (act : State → Nat → Except Nat State) (hf : ∀ u c, (fault u c).mem = u.mem)
    (hact : ∀ u c v, act u c = .ok v → u.mem.wf = true → v.mem.wf = true) (hw : s.mem.wf = true) :
    (s.performRequest port c t fault act).mem.wf = true := by
  have h0 := State.crossRoute_mem s c (sitePlace (siteOf port)) t.targetIsle (if t.kind = .token then 3 else 0) none
  unfold State.performRequest
  dsimp only
  generalize s.crossRoute c (sitePlace (siteOf port)) t.targetIsle (if t.kind = .token then 3 else 0) none = q at h0 ⊢
  split
  · simp [*]
  · split
    · rename_i u hu
      have h1 := hact _ _ _ hu (by simpa [h0] using hw)
      repeat' (first | (simp [*]; done) | split)
    · simp [*]
@[simp] theorem State.admitRequest_memWf (s : State) (port : Nat) (t : Tx) (fault : State → Nat → State)
    (act : State → Nat → Except Nat State) (hf : ∀ u c, (fault u c).mem = u.mem)
    (hact : ∀ u c v, act u c = .ok v → u.mem.wf = true → v.mem.wf = true) (hw : s.mem.wf = true) :
    (s.admitRequest port t fault act).mem.wf = true := by
  have h0 := State.inject1_mem (s.drained port t) 1 port 1 1
  unfold State.admitRequest
  dsimp only
  split
  · split <;> simp [*]
  · split
    · simp [*]
    · split
      · simp [*]
      · exact State.performRequest_memWf _ _ _ _ _ _ hf hact (by simpa [h0] using hw)
@[simp] theorem State.receive_memWf (s : State) (port : Nat) (t : Tx) (fault : State → Nat → State)
    (act : State → Nat → Except Nat State) (hf : ∀ u c, (fault u c).mem = u.mem)
    (hact : ∀ u c v, act u c = .ok v → u.mem.wf = true → v.mem.wf = true) (hw : s.mem.wf = true) :
    (s.receive port t fault act).mem.wf = true := by
  unfold State.receive
  split
  · exact hw
  · rw [State.flush_mem]
    exact State.admitRequest_memWf _ _ _ _ _ hf hact (by simpa using hw)
@[simp] theorem State.performRequest_holmMem (s : State) (port c : Nat) (t : Tx) (fault : State → Nat → State)
    (act : State → Nat → Except Nat State) (hf : ∀ u c, (fault u c).holmMem = u.holmMem)
    (hact : ∀ u c v, act u c = .ok v → v.holmMem = u.holmMem) :
    (s.performRequest port c t fault act).holmMem = s.holmMem := by
  have h0 := State.crossRoute_holmMem s c (sitePlace (siteOf port)) t.targetIsle (if t.kind = .token then 3 else 0) none
  unfold State.performRequest
  dsimp only
  generalize s.crossRoute c (sitePlace (siteOf port)) t.targetIsle (if t.kind = .token then 3 else 0) none = q at h0 ⊢
  split
  · simp [*]
  · split
    · rename_i u hu
      have h1 := hact _ _ _ hu
      repeat' (first | (simp [*]; done) | split)
    · simp [*]
@[simp] theorem State.admitRequest_holmMem (s : State) (port : Nat) (t : Tx) (fault : State → Nat → State)
    (act : State → Nat → Except Nat State) (hf : ∀ u c, (fault u c).holmMem = u.holmMem)
    (hact : ∀ u c v, act u c = .ok v → v.holmMem = u.holmMem) :
    (s.admitRequest port t fault act).holmMem = s.holmMem := by
  have h0 := State.inject1_holmMem (s.drained port t) 1 port 1 1
  unfold State.admitRequest
  dsimp only
  split
  · split <;> simp [*]
  · split
    · simp [*]
    · split
      · simp [*]
      · rw [State.performRequest_holmMem _ _ _ _ _ _ hf hact]; simp [*]
@[simp] theorem State.receive_holmMem (s : State) (port : Nat) (t : Tx) (fault : State → Nat → State)
    (act : State → Nat → Except Nat State) (hf : ∀ u c, (fault u c).holmMem = u.holmMem)
    (hact : ∀ u c v, act u c = .ok v → v.holmMem = u.holmMem) :
    (s.receive port t fault act).holmMem = s.holmMem := by
  unfold State.receive
  split
  · rfl
  · rw [State.flush_holmMem]
    rw [State.admitRequest_holmMem _ _ _ _ _ hf hact]; simp
@[simp] theorem State.performRequest_holmMemWf (s : State) (port c : Nat) (t : Tx) (fault : State → Nat → State)
    (act : State → Nat → Except Nat State) (hf : ∀ u c, (fault u c).holmMem = u.holmMem)
    (hact : ∀ u c v, act u c = .ok v → u.holmMem.wf = true → v.holmMem.wf = true) (hw : s.holmMem.wf = true) :
    (s.performRequest port c t fault act).holmMem.wf = true := by
  have h0 := State.crossRoute_holmMem s c (sitePlace (siteOf port)) t.targetIsle (if t.kind = .token then 3 else 0) none
  unfold State.performRequest
  dsimp only
  generalize s.crossRoute c (sitePlace (siteOf port)) t.targetIsle (if t.kind = .token then 3 else 0) none = q at h0 ⊢
  split
  · simp [*]
  · split
    · rename_i u hu
      have h1 := hact _ _ _ hu (by simpa [h0] using hw)
      repeat' (first | (simp [*]; done) | split)
    · simp [*]
@[simp] theorem State.admitRequest_holmMemWf (s : State) (port : Nat) (t : Tx) (fault : State → Nat → State)
    (act : State → Nat → Except Nat State) (hf : ∀ u c, (fault u c).holmMem = u.holmMem)
    (hact : ∀ u c v, act u c = .ok v → u.holmMem.wf = true → v.holmMem.wf = true) (hw : s.holmMem.wf = true) :
    (s.admitRequest port t fault act).holmMem.wf = true := by
  have h0 := State.inject1_holmMem (s.drained port t) 1 port 1 1
  unfold State.admitRequest
  dsimp only
  split
  · split <;> simp [*]
  · split
    · simp [*]
    · split
      · simp [*]
      · exact State.performRequest_holmMemWf _ _ _ _ _ _ hf hact (by simpa [h0] using hw)
@[simp] theorem State.receive_holmMemWf (s : State) (port : Nat) (t : Tx) (fault : State → Nat → State)
    (act : State → Nat → Except Nat State) (hf : ∀ u c, (fault u c).holmMem = u.holmMem)
    (hact : ∀ u c v, act u c = .ok v → u.holmMem.wf = true → v.holmMem.wf = true) (hw : s.holmMem.wf = true) :
    (s.receive port t fault act).holmMem.wf = true := by
  unfold State.receive
  split
  · exact hw
  · rw [State.flush_holmMem]
    exact State.admitRequest_holmMemWf _ _ _ _ _ hf hact (by simpa using hw)
@[simp] theorem State.dropOpen_pending (s : State) (port : Nat) (q : Request) :
    (s.dropOpen port q).pending = s.pending := by rfl
@[simp] theorem State.dropOpen_mem (s : State) (port : Nat) (q : Request) :
    (s.dropOpen port q).mem = s.mem := by rfl
@[simp] theorem State.dropOpen_holmMem (s : State) (port : Nat) (q : Request) :
    (s.dropOpen port q).holmMem = s.holmMem := by rfl
@[simp] theorem State.coreData_pending (s : State) (k : Nat) (f : CoreSt → CoreSt) :
    (s.coreData k f).pending = s.pending := by rfl
@[simp] theorem State.coreData_mem (s : State) (k : Nat) (f : CoreSt → CoreSt) :
    (s.coreData k f).mem = s.mem := by rfl
@[simp] theorem State.coreData_holmMem (s : State) (k : Nat) (f : CoreSt → CoreSt) :
    (s.coreData k f).holmMem = s.holmMem := by rfl
@[simp] theorem State.landData_pending (s : State) (port : Nat) (q : Request) (data : List Byte) :
    (s.landData port q data).pending = s.pending := by
  unfold State.landData
  (try dsimp only)
  repeat' (first | (simp [ite_pending, *]; done) | split)
@[simp] theorem State.landData_memWf (s : State) (port : Nat) (q : Request) (data : List Byte) (hw : s.mem.wf = true) :
    (s.landData port q data).mem.wf = true := by
  unfold State.landData
  (try dsimp only)
  repeat' (first | (simp [ite_mem, *]; done) | split)
@[simp] theorem State.landData_holmMem (s : State) (port : Nat) (q : Request) (data : List Byte) :
    (s.landData port q data).holmMem = s.holmMem := by
  unfold State.landData
  (try dsimp only)
  repeat' (first | (simp [ite_holmMem, *]; done) | split)
@[simp] theorem State.receiveCompletion_pending (s : State) (port : Nat) (kind : TxKind) (tag cause : Nat) (data : List Byte) (act : State → State) (hact : ∀ t, (act t).pending = t.pending) :
    (s.receiveCompletion port kind tag cause data act).pending = s.pending := by
  unfold State.receiveCompletion
  (try dsimp only)
  repeat' (first | (simp [ite_pending, *]; done) | split)
@[simp] theorem State.receiveCompletion_mem (s : State) (port : Nat) (kind : TxKind) (tag cause : Nat) (data : List Byte) (act : State → State) (hact : ∀ t, (act t).mem = t.mem) :
    (s.receiveCompletion port kind tag cause data act).mem = s.mem := by
  unfold State.receiveCompletion
  (try dsimp only)
  repeat' (first | (simp [ite_mem, *]; done) | split)
@[simp] theorem State.receiveCompletion_memWf (s : State) (port : Nat) (kind : TxKind) (tag cause : Nat) (data : List Byte) (act : State → State) (hact : ∀ t, t.mem.wf = true → (act t).mem.wf = true) (hw : s.mem.wf = true) :
    (s.receiveCompletion port kind tag cause data act).mem.wf = true := by
  unfold State.receiveCompletion
  (try dsimp only)
  repeat' (first | (simp [ite_mem, *]; done) | split)
@[simp] theorem State.receiveCompletion_holmMem (s : State) (port : Nat) (kind : TxKind) (tag cause : Nat) (data : List Byte) (act : State → State) (hact : ∀ t, (act t).holmMem = t.holmMem) :
    (s.receiveCompletion port kind tag cause data act).holmMem = s.holmMem := by
  unfold State.receiveCompletion
  (try dsimp only)
  repeat' (first | (simp [ite_holmMem, *]; done) | split)
@[simp] theorem State.receiveCompletion_holmMemWf (s : State) (port : Nat) (kind : TxKind) (tag cause : Nat) (data : List Byte) (act : State → State) (hact : ∀ t, t.holmMem.wf = true → (act t).holmMem.wf = true) (hw : s.holmMem.wf = true) :
    (s.receiveCompletion port kind tag cause data act).holmMem.wf = true := by
  unfold State.receiveCompletion
  (try dsimp only)
  repeat' (first | (simp [ite_holmMem, *]; done) | split)
@[simp] theorem State.countNull_pending (s : State) (c : Nat) (o : RemoteOps) :
    (s.countNull c o).pending = s.pending := by rfl
@[simp] theorem State.countNull_mem (s : State) (c : Nat) (o : RemoteOps) :
    (s.countNull c o).mem = s.mem := by rfl
@[simp] theorem State.countNull_holmMem (s : State) (c : Nat) (o : RemoteOps) :
    (s.countNull c o).holmMem = s.holmMem := by rfl
@[simp] theorem State.sendPage_pending (s : State) (c port : Nat) (r : Run) (w : WindowOps) (page : Nat) (mk : Nat → Tx × Landing) :
    (s.sendPage c port r w page mk).pending = s.pending := by simp [State.sendPage]
@[simp] theorem State.sendPage_mem (s : State) (c port : Nat) (r : Run) (w : WindowOps) (page : Nat) (mk : Nat → Tx × Landing) :
    (s.sendPage c port r w page mk).mem = s.mem := by simp [State.sendPage]
@[simp] theorem State.sendPage_holmMem (s : State) (c port : Nat) (r : Run) (w : WindowOps) (page : Nat) (mk : Nat → Tx × Landing) :
    (s.sendPage c port r w page mk).holmMem = s.holmMem := by simp [State.sendPage]
@[simp] theorem State.sendPages_pending (s : State) (c port : Nat) (r : Run) (w : WindowOps) (kind : TxKind) (operand : Nat) (o : RemoteOps) :
    (s.sendPages c port r w kind operand o).pending = s.pending := by
  unfold State.sendPages
  refine foldl1_pending _ ?_ _ _
  intro sb k
  cases hb : sb.2
  · simp
  · simp only [Bool.not_true, Bool.false_eq_true, if_false]
    split
    · simp only [State.sendPage_pending, State.countNull_pending]
    · split
      · simp only [State.accessFault_pending]
      · simp only [State.sendPage_pending]
@[simp] theorem State.sendPages_mem (s : State) (c port : Nat) (r : Run) (w : WindowOps) (kind : TxKind) (operand : Nat) (o : RemoteOps) :
    (s.sendPages c port r w kind operand o).mem = s.mem := by
  unfold State.sendPages
  refine foldl1_mem _ ?_ _ _
  intro sb k
  cases hb : sb.2
  · simp
  · simp only [Bool.not_true, Bool.false_eq_true, if_false]
    split
    · simp only [State.sendPage_mem, State.countNull_mem]
    · split
      · simp only [State.accessFault_mem]
      · simp only [State.sendPage_mem]
@[simp] theorem State.sendPages_holmMem (s : State) (c port : Nat) (r : Run) (w : WindowOps) (kind : TxKind) (operand : Nat) (o : RemoteOps) :
    (s.sendPages c port r w kind operand o).holmMem = s.holmMem := by
  unfold State.sendPages
  refine foldl1_holmMem _ ?_ _ _
  intro sb k
  cases hb : sb.2
  · simp
  · simp only [Bool.not_true, Bool.false_eq_true, if_false]
    split
    · simp only [State.sendPage_holmMem, State.countNull_holmMem]
    · split
      · simp only [State.accessFault_holmMem]
      · simp only [State.sendPage_holmMem]
@[simp] theorem State.lambRows_pending (s : State) (c isle : Nat) (rows : List Nat) (bad : State → Nat → Option AccessFault) (stores : State → Nat → List (Nat × List Byte)) :
    (s.lambRows c isle rows bad stores).pending = s.pending := by
  have h : ∀ sb : State × Bool, (rows.foldl (fun (sb : State × Bool) r => if !sb.2 then sb else match bad sb.1 r with
      | some f => (sb.1.accessFault c (srcIn isle 4 0) f noPlace noPlace, false)
      | none => sb.1.performStores c (srcIn isle 4 0) (stores sb.1 r)) sb).1.pending = sb.1.pending := by
    intro sb
    refine foldl1_pending _ ?_ _ _
    rintro ⟨s, _⟩ _
    dsimp only
    repeat' (first | (simp [*]; done) | split)
  have h := h (s, true)
  unfold State.lambRows
  generalize rows.foldl _ (s, true) = x at h ⊢
  obtain ⟨t, ok⟩ := x
  dsimp only at h ⊢
  split <;> simp_all
@[simp] theorem State.lambRows_memWf (s : State) (c isle : Nat) (rows : List Nat) (bad : State → Nat → Option AccessFault) (stores : State → Nat → List (Nat × List Byte))
    (hw : s.mem.wf = true) :
    (s.lambRows c isle rows bad stores).mem.wf = true := by
  have h : ∀ sb : State × Bool, sb.1.mem.wf = true → (rows.foldl (fun (sb : State × Bool) r => if !sb.2 then sb else match bad sb.1 r with
      | some f => (sb.1.accessFault c (srcIn isle 4 0) f noPlace noPlace, false)
      | none => sb.1.performStores c (srcIn isle 4 0) (stores sb.1 r)) sb).1.mem.wf = true := by
    intro sb hw
    refine foldl1_memWf _ ?_ _ _ hw
    rintro ⟨s, _⟩ _ hw
    dsimp only
    repeat' (first | (simp [*]; done) | split)
  have h := h (s, true) hw
  unfold State.lambRows
  generalize rows.foldl _ (s, true) = x at h ⊢
  obtain ⟨t, ok⟩ := x
  dsimp only at h ⊢
  split <;> simp_all
@[simp] theorem State.lambRows_holmMem (s : State) (c isle : Nat) (rows : List Nat) (bad : State → Nat → Option AccessFault) (stores : State → Nat → List (Nat × List Byte)) :
    (s.lambRows c isle rows bad stores).holmMem = s.holmMem := by
  have h : ∀ sb : State × Bool, (rows.foldl (fun (sb : State × Bool) r => if !sb.2 then sb else match bad sb.1 r with
      | some f => (sb.1.accessFault c (srcIn isle 4 0) f noPlace noPlace, false)
      | none => sb.1.performStores c (srcIn isle 4 0) (stores sb.1 r)) sb).1.holmMem = sb.1.holmMem := by
    intro sb
    refine foldl1_holmMem _ ?_ _ _
    rintro ⟨s, _⟩ _
    dsimp only
    repeat' (first | (simp [*]; done) | split)
  have h := h (s, true)
  unfold State.lambRows
  generalize rows.foldl _ (s, true) = x at h ⊢
  obtain ⟨t, ok⟩ := x
  dsimp only at h ⊢
  split <;> simp_all
@[simp] theorem State.disableLamb_pending (s : State) (isle cause : Nat) :
    (s.disableLamb isle cause).pending = s.pending := by simp [State.disableLamb]
@[simp] theorem State.disableLamb_mem (s : State) (isle cause : Nat) :
    (s.disableLamb isle cause).mem = s.mem := by simp [State.disableLamb]
@[simp] theorem State.disableLamb_holmMem (s : State) (isle cause : Nat) :
    (s.disableLamb isle cause).holmMem = s.holmMem := by simp [State.disableLamb]
@[simp] theorem State.cacheLines_pending (s : State) (a n : Nat) :
    (s.cacheLines a n).pending = s.pending := by simp [State.cacheLines, ite_pending]
@[simp] theorem State.cacheLines_mem (s : State) (a n : Nat) :
    (s.cacheLines a n).mem = s.mem := by simp [State.cacheLines, ite_mem]
@[simp] theorem State.cacheLines_holmMem (s : State) (a n : Nat) :
    (s.cacheLines a n).holmMem = s.holmMem := by simp [State.cacheLines, ite_holmMem]
@[simp] theorem State.reduceFault_pending (s : State) (port k c : Nat) (x : Contribution) :
    (s.reduceFault port k c x).pending = s.pending := by
  unfold State.reduceFault
  (try dsimp only)
  repeat' (first | (simp [ite_pending, *]; done) | split)
@[simp] theorem State.reduceFault_mem (s : State) (port k c : Nat) (x : Contribution) :
    (s.reduceFault port k c x).mem = s.mem := by
  unfold State.reduceFault
  (try dsimp only)
  repeat' (first | (simp [ite_mem, *]; done) | split)
@[simp] theorem State.reduceFault_holmMem (s : State) (port k c : Nat) (x : Contribution) :
    (s.reduceFault port k c x).holmMem = s.holmMem := by
  unfold State.reduceFault
  (try dsimp only)
  repeat' (first | (simp [ite_holmMem, *]; done) | split)
@[simp] theorem State.refuseLoad_pending (s : State) (c code planId : Nat) (detail : List Byte) :
    (s.refuseLoad c code planId detail).pending = s.pending := by simp [State.refuseLoad]
@[simp] theorem State.refuseLoad_mem (s : State) (c code planId : Nat) (detail : List Byte) :
    (s.refuseLoad c code planId detail).mem = s.mem := by simp [State.refuseLoad]
@[simp] theorem State.refuseLoad_holmMem (s : State) (c code planId : Nat) (detail : List Byte) :
    (s.refuseLoad c code planId detail).holmMem = s.holmMem := by simp [State.refuseLoad]
@[simp] theorem State.placePlan_pending (s : State) (c : Nat) (p : Plan) :
    (s.placePlan c p).pending = s.pending := by rfl
@[simp] theorem State.placePlan_mem (s : State) (c : Nat) (p : Plan) :
    (s.placePlan c p).mem = s.mem := by rfl
@[simp] theorem State.placePlan_holmMem (s : State) (c : Nat) (p : Plan) :
    (s.placePlan c p).holmMem = s.holmMem := by rfl
@[simp] theorem State.admitPlan_pending (s : State) (c : Nat) (p : Plan) :
    (s.admitPlan c p).pending = s.pending := by
  unfold State.admitPlan
  (try dsimp only)
  repeat' (first | (simp [ite_pending, *]; done) | split)
@[simp] theorem State.admitPlan_mem (s : State) (c : Nat) (p : Plan) :
    (s.admitPlan c p).mem = s.mem := by
  unfold State.admitPlan
  (try dsimp only)
  repeat' (first | (simp [ite_mem, *]; done) | split)
@[simp] theorem State.admitPlan_holmMem (s : State) (c : Nat) (p : Plan) :
    (s.admitPlan c p).holmMem = s.holmMem := by
  unfold State.admitPlan
  (try dsimp only)
  repeat' (first | (simp [ite_holmMem, *]; done) | split)
@[simp] theorem State.retryLoads_pending (s : State) :
    (s.retryLoads).pending = s.pending := by
  unfold State.retryLoads
  refine foldl_pending _ ?_ _ _
  intro s _
  repeat' (first | (simp [*]; done) | split)
@[simp] theorem State.retryLoads_mem (s : State) :
    (s.retryLoads).mem = s.mem := by
  unfold State.retryLoads
  refine foldl_mem _ ?_ _ _
  intro s _
  repeat' (first | (simp [*]; done) | split)
@[simp] theorem State.retryLoads_holmMem (s : State) :
    (s.retryLoads).holmMem = s.holmMem := by
  unfold State.retryLoads
  refine foldl_holmMem _ ?_ _ _
  intro s _
  repeat' (first | (simp [*]; done) | split)
@[simp] theorem State.configError_pending (s : State) (k : Nat) :
    (s.configError k).pending = s.pending := by rfl
@[simp] theorem State.configError_mem (s : State) (k : Nat) :
    (s.configError k).mem = s.mem := by rfl
@[simp] theorem State.configError_holmMem (s : State) (k : Nat) :
    (s.configError k).holmMem = s.holmMem := by rfl
@[simp] theorem State.ringStop_pending (s : State) (c : Nat) :
    (s.ringStop c).pending = s.pending := by simp [State.ringStop]
@[simp] theorem State.ringStop_mem (s : State) (c : Nat) :
    (s.ringStop c).mem = s.mem := by simp [State.ringStop]
@[simp] theorem State.ringStop_holmMem (s : State) (c : Nat) :
    (s.ringStop c).holmMem = s.holmMem := by simp [State.ringStop]
@[simp] theorem State.hostRead_pending (s : State) (addr len : Nat) :
    (s.hostRead addr len).pending = s.pending := by rfl
@[simp] theorem State.hostRead_mem (s : State) (addr len : Nat) :
    (s.hostRead addr len).mem = s.mem := by rfl
@[simp] theorem State.hostRead_holmMem (s : State) (addr len : Nat) :
    (s.hostRead addr len).holmMem = s.holmMem := by rfl
@[simp] theorem State.unqueue_pending (s : State) (c : Nat) :
    (s.unqueue c).pending = s.pending := by rfl
@[simp] theorem State.unqueue_mem (s : State) (c : Nat) :
    (s.unqueue c).mem = s.mem := by rfl
@[simp] theorem State.unqueue_holmMem (s : State) (c : Nat) :
    (s.unqueue c).holmMem = s.holmMem := by rfl
@[simp] theorem State.dropLaunch_pending (s : State) (c : Nat) :
    (s.dropLaunch c).pending = s.pending := by
  unfold State.dropLaunch
  (try dsimp only)
  repeat' (first | (simp [ite_pending, *]; done) | split)
@[simp] theorem State.dropLaunch_mem (s : State) (c : Nat) :
    (s.dropLaunch c).mem = s.mem := by
  unfold State.dropLaunch
  (try dsimp only)
  repeat' (first | (simp [ite_mem, *]; done) | split)
@[simp] theorem State.dropLaunch_holmMem (s : State) (c : Nat) :
    (s.dropLaunch c).holmMem = s.holmMem := by
  unfold State.dropLaunch
  (try dsimp only)
  repeat' (first | (simp [ite_holmMem, *]; done) | split)
@[simp] theorem State.refuseLaunch_pending (s : State) (c status : Nat) (detail : List Byte) :
    (s.refuseLaunch c status detail).pending = s.pending := by simp [State.refuseLaunch]
@[simp] theorem State.refuseLaunch_mem (s : State) (c status : Nat) (detail : List Byte) :
    (s.refuseLaunch c status detail).mem = s.mem := by simp [State.refuseLaunch]
@[simp] theorem State.refuseLaunch_holmMem (s : State) (c status : Nat) (detail : List Byte) :
    (s.refuseLaunch c status detail).holmMem = s.holmMem := by simp [State.refuseLaunch]
@[simp] theorem State.evqVector_pending (s : State) (k : Nat) :
    (s.evqVector k).pending = s.pending := by simp [State.evqVector, ite_pending]
@[simp] theorem State.evqVector_mem (s : State) (k : Nat) :
    (s.evqVector k).mem = s.mem := by simp [State.evqVector, ite_mem]
@[simp] theorem State.evqVector_holmMem (s : State) (k : Nat) :
    (s.evqVector k).holmMem = s.holmMem := by simp [State.evqVector, ite_holmMem]
@[simp] theorem State.writeBatch_pending (s : State) (k : Nat) (rs : List Rec) :
    (s.writeBatch k rs).pending = s.pending := by rfl
@[simp] theorem State.writeBatch_mem (s : State) (k : Nat) (rs : List Rec) :
    (s.writeBatch k rs).mem = s.mem := by rfl
@[simp] theorem State.writeBatch_holmMem (s : State) (k : Nat) (rs : List Rec) :
    (s.writeBatch k rs).holmMem = s.holmMem := by rfl
@[simp] theorem State.unloadNow_pending (s : State) (c code : Nat) :
    (s.unloadNow c code).pending = s.pending := by
  unfold State.unloadNow
  (try dsimp only)
  repeat' (first | (simp [ite_pending, *]; done) | split)
@[simp] theorem State.unloadNow_mem (s : State) (c code : Nat) :
    (s.unloadNow c code).mem = s.mem := by
  unfold State.unloadNow
  (try dsimp only)
  repeat' (first | (simp [ite_mem, *]; done) | split)
@[simp] theorem State.unloadNow_holmMem (s : State) (c code : Nat) :
    (s.unloadNow c code).holmMem = s.holmMem := by
  unfold State.unloadNow
  (try dsimp only)
  repeat' (first | (simp [ite_holmMem, *]; done) | split)
@[simp] theorem State.ctxReset_pending (s : State) (c : Nat) :
    (s.ctxReset c).pending = s.pending := by rfl
@[simp] theorem State.ctxReset_mem (s : State) (c : Nat) :
    (s.ctxReset c).mem = s.mem := by rfl
@[simp] theorem State.ctxReset_holmMem (s : State) (c : Nat) :
    (s.ctxReset c).holmMem = s.holmMem := by rfl
@[simp] theorem State.setOwner_pending (s : State) (c f : Nat) :
    (s.setOwner c f).pending = s.pending := by rfl
@[simp] theorem State.setOwner_mem (s : State) (c f : Nat) :
    (s.setOwner c f).mem = s.mem := by rfl
@[simp] theorem State.setOwner_holmMem (s : State) (c f : Nat) :
    (s.setOwner c f).holmMem = s.holmMem := by rfl
@[simp] theorem State.fnReset_pending (s : State) (k : Nat) :
    (s.fnReset k).pending = s.pending := by simp [State.fnReset, ite_pending]
@[simp] theorem State.fnReset_mem (s : State) (k : Nat) :
    (s.fnReset k).mem = s.mem := by simp [State.fnReset, ite_mem]
@[simp] theorem State.fnReset_holmMem (s : State) (k : Nat) :
    (s.fnReset k).holmMem = s.holmMem := by simp [State.fnReset, ite_holmMem]
@[simp] theorem State.uartsBack_pending (s : State) (b : Nat) :
    (s.uartsBack b).pending = s.pending := by simp [State.uartsBack, ite_pending]
@[simp] theorem State.uartsBack_mem (s : State) (b : Nat) :
    (s.uartsBack b).mem = s.mem := by simp [State.uartsBack, ite_mem]
@[simp] theorem State.uartsBack_holmMemWf (s : State) (b : Nat) (hw : s.holmMem.wf = true) :
    (s.uartsBack b).holmMem.wf = true := by
  unfold State.uartsBack
  (try dsimp only)
  repeat' (first | (simp [ite_holmMem, *]; done) | split | (refine foldl_holmMemWf _ ?_ _ _ ?_; intro _ _ _; try dsimp only) | (refine foldl1_holmMemWf _ ?_ _ _ ?_; intro _ _ _; try dsimp only))
@[simp] theorem State.loseCtx_pending (s : State) (c : Nat) :
    (s.loseCtx c).pending = s.pending := by
  unfold State.loseCtx
  (try dsimp only)
  repeat' (first | (simp [ite_pending, *]; done) | split)
@[simp] theorem State.loseCtx_mem (s : State) (c : Nat) :
    (s.loseCtx c).mem = s.mem := by
  unfold State.loseCtx
  (try dsimp only)
  repeat' (first | (simp [ite_mem, *]; done) | split)
@[simp] theorem State.loseCtx_holmMem (s : State) (c : Nat) :
    (s.loseCtx c).holmMem = s.holmMem := by
  unfold State.loseCtx
  (try dsimp only)
  repeat' (first | (simp [ite_holmMem, *]; done) | split)
@[simp] theorem State.loseCard_pending (s : State) (b : Nat) :
    (s.loseCard b).pending = s.pending := by simp [State.loseCard, ite_pending]
@[simp] theorem State.loseCard_mem (s : State) (b : Nat) :
    (s.loseCard b).mem = s.mem := by simp [State.loseCard, ite_mem]
@[simp] theorem State.loseCard_holmMemWf (s : State) (b : Nat) (hw : s.holmMem.wf = true) :
    (s.loseCard b).holmMem.wf = true := by
  unfold State.loseCard
  (try dsimp only)
  repeat' (first | (simp [ite_holmMem, *]; done) | split)
@[simp] theorem State.discard_pending (s : State) (b : Nat) :
    (s.discard b).pending = s.pending := by simp [State.discard]
@[simp] theorem State.discard_mem (s : State) (b : Nat) :
    (s.discard b).mem = s.mem := by simp [State.discard]
@[simp] theorem State.discard_holmMem (s : State) (b : Nat) :
    (s.discard b).holmMem = s.holmMem := by simp [State.discard]
@[simp] theorem State.fnWrite_pending (s : State) (k : Nat) (ok : Bool) (f : FnSt → FnSt) :
    (s.fnWrite k ok f).pending = s.pending := by simp [State.fnWrite, ite_pending]
@[simp] theorem State.fnWrite_mem (s : State) (k : Nat) (ok : Bool) (f : FnSt → FnSt) :
    (s.fnWrite k ok f).mem = s.mem := by simp [State.fnWrite, ite_mem]
@[simp] theorem State.fnWrite_holmMem (s : State) (k : Nat) (ok : Bool) (f : FnSt → FnSt) :
    (s.fnWrite k ok f).holmMem = s.holmMem := by simp [State.fnWrite, ite_holmMem]
@[simp] theorem State.evqWrite_pending (s : State) (k off v : Nat) :
    (s.evqWrite k off v).pending = s.pending := by
  unfold State.evqWrite
  (try dsimp only)
  repeat' (first | (simp [ite_pending, *]; done) | split)
@[simp] theorem State.evqWrite_mem (s : State) (k off v : Nat) :
    (s.evqWrite k off v).mem = s.mem := by
  unfold State.evqWrite
  (try dsimp only)
  repeat' (first | (simp [ite_mem, *]; done) | split)
@[simp] theorem State.evqWrite_holmMem (s : State) (k off v : Nat) :
    (s.evqWrite k off v).holmMem = s.holmMem := by
  unfold State.evqWrite
  (try dsimp only)
  repeat' (first | (simp [ite_holmMem, *]; done) | split)
@[simp] theorem State.ringWrite_pending (s : State) (c off v : Nat) :
    (s.ringWrite c off v).pending = s.pending := by
  unfold State.ringWrite
  (try dsimp only)
  repeat' (first | (simp [ite_pending, *]; done) | split)
@[simp] theorem State.ringWrite_mem (s : State) (c off v : Nat) :
    (s.ringWrite c off v).mem = s.mem := by
  unfold State.ringWrite
  (try dsimp only)
  repeat' (first | (simp [ite_mem, *]; done) | split)
@[simp] theorem State.ringWrite_holmMem (s : State) (c off v : Nat) :
    (s.ringWrite c off v).holmMem = s.holmMem := by
  unfold State.ringWrite
  (try dsimp only)
  repeat' (first | (simp [ite_holmMem, *]; done) | split)
@[simp] theorem State.stage_go_pending (s : State) (c tag : Nat) (ins outs : List HostCopy) (b : List Byte) :
    (State.stage.go c tag ins outs s b).pending = s.pending := by
  unfold State.stage.go
  simp [*]
@[simp] theorem State.stage_go_mem (s : State) (c tag : Nat) (ins outs : List HostCopy) (b : List Byte) :
    (State.stage.go c tag ins outs s b).mem = s.mem := by
  unfold State.stage.go
  simp [*]
@[simp] theorem State.stage_go_holmMem (s : State) (c tag : Nat) (ins outs : List HostCopy) (b : List Byte) :
    (State.stage.go c tag ins outs s b).holmMem = s.holmMem := by
  unfold State.stage.go
  simp [*]
@[simp] theorem State.stage_pending (s : State) (c : Nat) (tag : Nat) (ins outs : List HostCopy) (buffers : HostRead) :
    (s.stage c tag ins outs buffers).pending = s.pending := by
  unfold State.stage
  (try dsimp only)
  repeat' (first | (simp [ite_pending, *]; done) | split)
@[simp] theorem State.stage_mem (s : State) (c : Nat) (tag : Nat) (ins outs : List HostCopy) (buffers : HostRead) :
    (s.stage c tag ins outs buffers).mem = s.mem := by
  unfold State.stage
  (try dsimp only)
  repeat' (first | (simp [ite_mem, *]; done) | split)
@[simp] theorem State.stage_holmMem (s : State) (c : Nat) (tag : Nat) (ins outs : List HostCopy) (buffers : HostRead) :
    (s.stage c tag ins outs buffers).holmMem = s.holmMem := by
  unfold State.stage
  (try dsimp only)
  repeat' (first | (simp [ite_holmMem, *]; done) | split)
@[simp] theorem State.readTable_pending (s : State) (present : Bool) (addr count : Nat) :
    (s.readTable present addr count).pending = s.pending := by simp [State.readTable, ite_pending]
@[simp] theorem State.readTable_mem (s : State) (present : Bool) (addr count : Nat) :
    (s.readTable present addr count).mem = s.mem := by simp [State.readTable, ite_mem]
@[simp] theorem State.readTable_holmMem (s : State) (present : Bool) (addr count : Nat) :
    (s.readTable present addr count).holmMem = s.holmMem := by simp [State.readTable, ite_holmMem]
@[simp] theorem State.refuseShort_pending (s : State) (c : Nat) (x : Shortage) :
    (s.refuseShort c x).pending = s.pending := by simp [State.refuseShort]
@[simp] theorem State.refuseShort_mem (s : State) (c : Nat) (x : Shortage) :
    (s.refuseShort c x).mem = s.mem := by simp [State.refuseShort]
@[simp] theorem State.refuseShort_holmMem (s : State) (c : Nat) (x : Shortage) :
    (s.refuseShort c x).holmMem = s.holmMem := by simp [State.refuseShort]
@[simp] theorem State.acceptRun_pending (s : State) (c : Nat) (p : Plan) (lists : Table (Table Nat)) :
    (s.acceptRun c p lists).pending = s.pending := by simp [State.acceptRun]
@[simp] theorem State.acceptRun_mem (s : State) (c : Nat) (p : Plan) (lists : Table (Table Nat)) :
    (s.acceptRun c p lists).mem = s.mem := by simp [State.acceptRun]
@[simp] theorem State.acceptRun_holmMem (s : State) (c : Nat) (p : Plan) (lists : Table (Table Nat)) :
    (s.acceptRun c p lists).holmMem = s.holmMem := by simp [State.acceptRun]
@[simp] theorem State.landPage_pending (s : State) (c : Nat) (r : Run) (d : HostCopy) (bytes : List Byte) (i : Nat) :
    (s.landPage c r d bytes i).1.pending = s.pending := by
  unfold State.landPage
  (try dsimp only)
  repeat' (first | (simp [*]; done) | split)
@[simp] theorem State.landPage_memWf (s : State) (c : Nat) (r : Run) (d : HostCopy) (bytes : List Byte) (i : Nat) (hw : s.mem.wf = true) :
    (s.landPage c r d bytes i).1.mem.wf = true := by
  unfold State.landPage
  (try dsimp only)
  repeat' (first | (simp [*]; done) | split)
@[simp] theorem State.landPage_holmMem (s : State) (c : Nat) (r : Run) (d : HostCopy) (bytes : List Byte) (i : Nat) :
    (s.landPage c r d bytes i).1.holmMem = s.holmMem := by
  unfold State.landPage
  (try dsimp only)
  repeat' (first | (simp [*]; done) | split)
@[simp] theorem State.shoreFlits_pending (s : State) (b dir pages : Nat) :
    (s.shoreFlits b dir pages).pending = s.pending := by simp [State.shoreFlits, ite_pending]
@[simp] theorem State.shoreFlits_mem (s : State) (b dir pages : Nat) :
    (s.shoreFlits b dir pages).mem = s.mem := by simp [State.shoreFlits, ite_mem]
@[simp] theorem State.shoreFlits_holmMem (s : State) (b dir pages : Nat) :
    (s.shoreFlits b dir pages).holmMem = s.holmMem := by simp [State.shoreFlits, ite_holmMem]
@[simp] theorem State.sendOut_pending (s : State) (c : Nat) (r : Run) (d : HostCopy) (i : Nat) :
    (s.sendOut c r d i).1.pending = s.pending := by
  unfold State.sendOut
  dsimp only
  split
  · simp [*]
  · split <;> simp [*]
@[simp] theorem State.sendOut_mem (s : State) (c : Nat) (r : Run) (d : HostCopy) (i : Nat) :
    (s.sendOut c r d i).1.mem = s.mem := by
  unfold State.sendOut
  dsimp only
  split
  · simp [*]
  · split <;> simp [*]
@[simp] theorem State.sendOut_holmMem (s : State) (c : Nat) (r : Run) (d : HostCopy) (i : Nat) :
    (s.sendOut c r d i).1.holmMem = s.holmMem := by
  unfold State.sendOut
  dsimp only
  split
  · simp [*]
  · split <;> simp [*]
@[simp] theorem State.bar2Out_pending (s : State) (k : Nat) (b : List Byte) :
    (s.bar2Out k b).pending = s.pending := by rfl
@[simp] theorem State.bar2Out_mem (s : State) (k : Nat) (b : List Byte) :
    (s.bar2Out k b).mem = s.mem := by rfl
@[simp] theorem State.bar2Out_holmMem (s : State) (k : Nat) (b : List Byte) :
    (s.bar2Out k b).holmMem = s.holmMem := by rfl
@[simp] theorem State.bar2None_pending (s : State) (k : Nat) (op : Bar2Op) :
    (s.bar2None k op).pending = s.pending := by
  cases op <;> simp [State.bar2None, *]
@[simp] theorem State.bar2None_mem (s : State) (k : Nat) (op : Bar2Op) :
    (s.bar2None k op).mem = s.mem := by
  cases op <;> simp [State.bar2None, *]
@[simp] theorem State.bar2None_holmMem (s : State) (k : Nat) (op : Bar2Op) :
    (s.bar2None k op).holmMem = s.holmMem := by
  cases op <;> simp [State.bar2None, *]
@[simp] theorem State.bar2Refuse_pending (s : State) (fn : FnId) (window segment offset : Nat) (op : Bar2Op) :
    (s.bar2Refuse fn window segment offset op).pending = s.pending := by simp [State.bar2Refuse]
@[simp] theorem State.bar2Refuse_mem (s : State) (fn : FnId) (window segment offset : Nat) (op : Bar2Op) :
    (s.bar2Refuse fn window segment offset op).mem = s.mem := by simp [State.bar2Refuse]
@[simp] theorem State.bar2Refuse_holmMem (s : State) (fn : FnId) (window segment offset : Nat) (op : Bar2Op) :
    (s.bar2Refuse fn window segment offset op).holmMem = s.holmMem := by simp [State.bar2Refuse]
@[simp] theorem State.updateCard_pending (s : State) (b : Nat) :
    (s.updateCard b).pending = s.pending := by simp [State.updateCard, ite_pending]
@[simp] theorem State.updateCard_mem (s : State) (b : Nat) :
    (s.updateCard b).mem = s.mem := by simp [State.updateCard, ite_mem]
@[simp] theorem State.updateCard_holmMem (s : State) (b : Nat) :
    (s.updateCard b).holmMem = s.holmMem := by simp [State.updateCard, ite_holmMem]
@[simp] theorem State.voidCard_pending (s : State) (b : Nat) :
    (s.voidCard b).pending = s.pending := by simp [State.voidCard]
@[simp] theorem State.voidCard_mem (s : State) (b : Nat) :
    (s.voidCard b).mem = s.mem := by simp [State.voidCard]
@[simp] theorem State.voidCard_holmMem (s : State) (b : Nat) :
    (s.voidCard b).holmMem = s.holmMem := by simp [State.voidCard]

end Sys2Proof.Machine
end

