-- ==== Sys2Proof/Laws/KeepUnit.lean ====
section
/-! SUPPORT. What the operations of repair, time, power, start-up and the writes of the dictionary leave alone: the queue of commands, and the memory and the
buffers of the Holm, which keep their canonical form where they are written. -/

namespace Sys2Proof.Machine

@[simp] theorem State.tryWrite_pending (ch : Channel) (idx sub : Nat) (b : List Byte) (act : State → Performed) (s : State)
    (hact : ∀ t, (act t).1.pending = t.pending) :
    (s.tryWrite ch idx sub b act).1.pending = s.pending := by
  unfold State.tryWrite
  (try dsimp only)
  repeat' (first | (simp [*]; done) | split)
@[simp] theorem State.tryWrite_mem (ch : Channel) (idx sub : Nat) (b : List Byte) (act : State → Performed) (s : State)
    (hact : ∀ t, (act t).1.mem = t.mem) :
    (s.tryWrite ch idx sub b act).1.mem = s.mem := by
  unfold State.tryWrite
  (try dsimp only)
  repeat' (first | (simp [*]; done) | split)
@[simp] theorem State.tryWrite_memWf (ch : Channel) (idx sub : Nat) (b : List Byte) (act : State → Performed) (s : State)
    (hact : ∀ t, t.mem.wf = true → (act t).1.mem.wf = true) (hw : s.mem.wf = true) :
    (s.tryWrite ch idx sub b act).1.mem.wf = true := by
  unfold State.tryWrite
  (try dsimp only)
  repeat' (first | (simp [*]; done) | split)
@[simp] theorem State.tryWrite_holmMem (ch : Channel) (idx sub : Nat) (b : List Byte) (act : State → Performed) (s : State)
    (hact : ∀ t, (act t).1.holmMem = t.holmMem) :
    (s.tryWrite ch idx sub b act).1.holmMem = s.holmMem := by
  unfold State.tryWrite
  (try dsimp only)
  repeat' (first | (simp [*]; done) | split)
@[simp] theorem State.tryWrite_holmMemWf (ch : Channel) (idx sub : Nat) (b : List Byte) (act : State → Performed) (s : State)
    (hact : ∀ t, t.holmMem.wf = true → (act t).1.holmMem.wf = true) (hw : s.holmMem.wf = true) :
    (s.tryWrite ch idx sub b act).1.holmMem.wf = true := by
  unfold State.tryWrite
  (try dsimp only)
  repeat' (first | (simp [*]; done) | split)
@[simp] theorem State.rowWrite_pending (s : State) (req : Req) (idx sub : Nat) (value : List Byte) (act : State → Performed)
    (hact : ∀ t, (act t).1.pending = t.pending) :
    (s.rowWrite req idx sub value act).1.pending = s.pending := by
  unfold State.rowWrite
  (try dsimp only)
  repeat' (first | (simp [*]; done) | split)
@[simp] theorem State.rowWrite_mem (s : State) (req : Req) (idx sub : Nat) (value : List Byte) (act : State → Performed)
    (hact : ∀ t, (act t).1.mem = t.mem) :
    (s.rowWrite req idx sub value act).1.mem = s.mem := by
  unfold State.rowWrite
  (try dsimp only)
  repeat' (first | (simp [*]; done) | split)
@[simp] theorem State.rowWrite_holmMem (s : State) (req : Req) (idx sub : Nat) (value : List Byte) (act : State → Performed)
    (hact : ∀ t, (act t).1.holmMem = t.holmMem) :
    (s.rowWrite req idx sub value act).1.holmMem = s.holmMem := by
  unfold State.rowWrite
  (try dsimp only)
  repeat' (first | (simp [*]; done) | split)
@[simp] theorem State.rowWrite_memWf (s : State) (req : Req) (idx sub : Nat) (value : List Byte) (act : State → Performed)
    (hact : ∀ t, t.mem.wf = true → (act t).1.mem.wf = true) (hw : s.mem.wf = true) :
    (s.rowWrite req idx sub value act).1.mem.wf = true := State.serve_memWf _ _ _ _ _ _ _ (fun t ht => State.tryWrite_memWf _ _ _ _ _ t hact ht) hw
@[simp] theorem State.rowWrite_holmMemWf (s : State) (req : Req) (idx sub : Nat) (value : List Byte) (act : State → Performed)
    (hact : ∀ t, t.holmMem.wf = true → (act t).1.holmMem.wf = true) (hw : s.holmMem.wf = true) :
    (s.rowWrite req idx sub value act).1.holmMem.wf = true := State.serve_holmMemWf _ _ _ _ _ _ _ (fun t ht => State.tryWrite_holmMemWf _ _ _ _ _ t hact ht) hw
@[simp] theorem State.writeSplit_pending (s : State) (i n : Nat) :
    (s.writeSplit i n).1.pending = s.pending := by
  unfold State.writeSplit
  (try dsimp only)
  repeat' (first | (simp [*]; done) | split)
@[simp] theorem State.writeSplit_mem (s : State) (i n : Nat) :
    (s.writeSplit i n).1.mem = s.mem := by
  unfold State.writeSplit
  (try dsimp only)
  repeat' (first | (simp [*]; done) | split)
@[simp] theorem State.writeSplit_holmMem (s : State) (i n : Nat) :
    (s.writeSplit i n).1.holmMem = s.holmMem := by
  unfold State.writeSplit
  (try dsimp only)
  repeat' (first | (simp [*]; done) | split)
@[simp] theorem State.writePod_pending (s : State) (n : Nat) :
    (s.writePod n).1.pending = s.pending := by
  unfold State.writePod
  (try dsimp only)
  repeat' (first | (simp [ite_pending, *]; done) | split)
@[simp] theorem State.writePod_mem (s : State) (n : Nat) :
    (s.writePod n).1.mem = s.mem := by
  unfold State.writePod
  (try dsimp only)
  repeat' (first | (simp [ite_mem, *]; done) | split)
@[simp] theorem State.writePod_holmMem (s : State) (n : Nat) :
    (s.writePod n).1.holmMem = s.holmMem := by
  unfold State.writePod
  (try dsimp only)
  repeat' (first | (simp [ite_holmMem, *]; done) | split)
@[simp] theorem State.writeObject_pending (ch : Channel) (idx sub : Nat) (b : List Byte) (s : State) :
    (s.writeObject ch idx sub b).1.pending = s.pending := by
  unfold State.writeObject
  (try dsimp only)
  repeat' (first | (simp [ite_pending, *]; done) | split)
@[simp] theorem State.writeObject_mem (ch : Channel) (idx sub : Nat) (b : List Byte) (s : State) :
    (s.writeObject ch idx sub b).1.mem = s.mem := by
  unfold State.writeObject
  (try dsimp only)
  repeat' (first | (simp [ite_mem, *]; done) | split)
@[simp] theorem State.writeObject_holmMem (ch : Channel) (idx sub : Nat) (b : List Byte) (s : State) :
    (s.writeObject ch idx sub b).1.holmMem = s.holmMem := by
  unfold State.writeObject
  (try dsimp only)
  repeat' (first | (simp [ite_holmMem, *]; done) | split)
@[simp] theorem State.disableStep_pending (s : State) (i step : Nat) :
    (s.disableStep i step).pending = s.pending := by simp [State.disableStep]
@[simp] theorem State.disableStep_mem (s : State) (i step : Nat) :
    (s.disableStep i step).mem = s.mem := by simp [State.disableStep]
@[simp] theorem State.disableStep_holmMem (s : State) (i step : Nat) :
    (s.disableStep i step).holmMem = s.holmMem := by simp [State.disableStep]
@[simp] theorem State.clearFailed_pending (s : State) (f : ClearFailure) :
    (s.clearFailed f).pending = s.pending := by
  unfold State.clearFailed
  (try dsimp only)
  repeat' (first | (simp [*]; done) | split)
@[simp] theorem State.clearFailed_memWf (s : State) (f : ClearFailure) (hw : s.mem.wf = true) :
    (s.clearFailed f).mem.wf = true := by
  unfold State.clearFailed
  (try dsimp only)
  repeat' (first | (simp [*]; done) | split)
@[simp] theorem State.clearFailed_holmMem (s : State) (f : ClearFailure) :
    (s.clearFailed f).holmMem = s.holmMem := by
  unfold State.clearFailed
  (try dsimp only)
  repeat' (first | (simp [*]; done) | split)
@[simp] theorem State.thermal_pending (s : State) (k : Nat) (temp : Int) (step : Nat) :
    (s.thermal k temp step).pending = s.pending := by simp [State.thermal, ite_pending]
@[simp] theorem State.thermal_mem (s : State) (k : Nat) (temp : Int) (step : Nat) :
    (s.thermal k temp step).mem = s.mem := by simp [State.thermal, ite_mem]
@[simp] theorem State.thermal_holmMem (s : State) (k : Nat) (temp : Int) (step : Nat) :
    (s.thermal k temp step).holmMem = s.holmMem := by simp [State.thermal, ite_holmMem]
@[simp] theorem State.protectStack_pending (s : State) (k : Nat) (temp : Int) :
    (s.protectStack k temp).pending = s.pending := by simp [State.protectStack]
@[simp] theorem State.protectStack_mem (s : State) (k : Nat) (temp : Int) :
    (s.protectStack k temp).mem = s.mem := by simp [State.protectStack]
@[simp] theorem State.protectStack_holmMem (s : State) (k : Nat) (temp : Int) :
    (s.protectStack k temp).holmMem = s.holmMem := by simp [State.protectStack]
@[simp] theorem State.trainStack_pending (s : State) (k : Nat) (failed : BitVec 32) (stackFailed : Bool) :
    (s.trainStack k failed stackFailed).pending = s.pending := by simp [State.trainStack, ite_pending]
@[simp] theorem State.trainStack_memWf (s : State) (k : Nat) (failed : BitVec 32) (stackFailed : Bool) (hw : s.mem.wf = true) :
    (s.trainStack k failed stackFailed).mem.wf = true := by simp [State.trainStack, ite_mem, *]
@[simp] theorem State.trainStack_holmMem (s : State) (k : Nat) (failed : BitVec 32) (stackFailed : Bool) :
    (s.trainStack k failed stackFailed).holmMem = s.holmMem := by simp [State.trainStack, ite_holmMem]
@[simp] theorem State.releaseDeferred_pending (s : State) (k : Nat) :
    (s.releaseDeferred k).pending = s.pending := by simp [State.releaseDeferred]
@[simp] theorem State.releaseDeferred_mem (s : State) (k : Nat) :
    (s.releaseDeferred k).mem = s.mem := by simp [State.releaseDeferred]
@[simp] theorem State.releaseDeferred_holmMem (s : State) (k : Nat) :
    (s.releaseDeferred k).holmMem = s.holmMem := by simp [State.releaseDeferred]
@[simp] theorem State.hbmRead_pending (s : State) (k off : Nat) (o : ReadOutcome) (fix : List (Nat × Nat)) :
    (s.hbmRead k off o fix).pending = s.pending := by cases o <;> simp [State.hbmRead]
@[simp] theorem State.hbmRead_holmMem (s : State) (k off : Nat) (o : ReadOutcome) (fix : List (Nat × Nat)) :
    (s.hbmRead k off o fix).holmMem = s.holmMem := by cases o <;> simp [State.hbmRead]
@[simp] theorem State.hbmRead_memWf (s : State) (k off : Nat) (o : ReadOutcome) (fix : List (Nat × Nat)) (hw : s.mem.wf = true) :
    (s.hbmRead k off o fix).mem.wf = true := by cases o <;> simp [State.hbmRead, hw, Mem.writeBytes_wf]
@[simp] theorem State.scrubHbm_pending (s : State) (k off : Nat) (found : ReadFinding) (last : Bool) :
    (s.scrubHbm k off found last).pending = s.pending := by simp [State.scrubHbm, ite_pending]
@[simp] theorem State.scrubHbm_holmMem (s : State) (k off : Nat) (found : ReadFinding) (last : Bool) :
    (s.scrubHbm k off found last).holmMem = s.holmMem := by simp [State.scrubHbm, ite_holmMem]
@[simp] theorem State.scrubHbm_memWf (s : State) (k off : Nat) (found : ReadFinding) (last : Bool) (hw : s.mem.wf = true) :
    (s.scrubHbm k off found last).mem.wf = true := by simp [State.scrubHbm, ite_mem, State.hbmRead_memWf, hw]
@[simp] theorem State.isleRead_pending (s : State) (i off : Nat) (o : ReadOutcome) (b : Nat) (cell : Fin 2 × Fin 256 × Fin 512) :
    (s.isleRead i off o b cell).pending = s.pending := by cases o <;> simp [State.isleRead]
@[simp] theorem State.isleRead_mem (s : State) (i off : Nat) (o : ReadOutcome) (b : Nat) (cell : Fin 2 × Fin 256 × Fin 512) :
    (s.isleRead i off o b cell).mem = s.mem := by cases o <;> simp [State.isleRead]
@[simp] theorem State.isleRead_holmMem (s : State) (i off : Nat) (o : ReadOutcome) (b : Nat) (cell : Fin 2 × Fin 256 × Fin 512) :
    (s.isleRead i off o b cell).holmMem = s.holmMem := by cases o <;> simp [State.isleRead]
@[simp] theorem State.scrubIsle_pending (s : State) (i off : Nat) (found : ReadFinding) (cell : Fin 2 × Fin 256 × Fin 512) (last : Bool) :
    (s.scrubIsle i off found cell last).pending = s.pending := by simp [State.scrubIsle, ite_pending]
@[simp] theorem State.scrubIsle_mem (s : State) (i off : Nat) (found : ReadFinding) (cell : Fin 2 × Fin 256 × Fin 512) (last : Bool) :
    (s.scrubIsle i off found cell last).mem = s.mem := by simp [State.scrubIsle, ite_mem]
@[simp] theorem State.scrubIsle_holmMem (s : State) (i off : Nat) (found : ReadFinding) (cell : Fin 2 × Fin 256 × Fin 512) (last : Bool) :
    (s.scrubIsle i off found cell last).holmMem = s.holmMem := by simp [State.scrubIsle, ite_holmMem]
@[simp] theorem State.scrubOx_pending (s : State) (e off : Nat) (found : ReadFinding) (last : Bool) :
    (s.scrubOx e off found last).pending = s.pending := by
  unfold State.scrubOx
  (try dsimp only)
  repeat' (first | (simp [ite_pending, *]; done) | split)
@[simp] theorem State.scrubOx_mem (s : State) (e off : Nat) (found : ReadFinding) (last : Bool) :
    (s.scrubOx e off found last).mem = s.mem := by
  unfold State.scrubOx
  (try dsimp only)
  repeat' (first | (simp [ite_mem, *]; done) | split)
@[simp] theorem State.scrubOx_holmMem (s : State) (e off : Nat) (found : ReadFinding) (last : Bool) :
    (s.scrubOx e off found last).holmMem = s.holmMem := by
  unfold State.scrubOx
  (try dsimp only)
  repeat' (first | (simp [ite_holmMem, *]; done) | split)
@[simp] theorem State.coreRead_pending (s : State) (c off : Nat) (o : ReadOutcome) :
    (s.coreRead c off o).pending = s.pending := by cases o <;> simp [State.coreRead]
@[simp] theorem State.coreRead_mem (s : State) (c off : Nat) (o : ReadOutcome) :
    (s.coreRead c off o).mem = s.mem := by cases o <;> simp [State.coreRead]
@[simp] theorem State.coreRead_holmMem (s : State) (c off : Nat) (o : ReadOutcome) :
    (s.coreRead c off o).holmMem = s.holmMem := by cases o <;> simp [State.coreRead]
@[simp] theorem State.scrubCore_pending (s : State) (c off : Nat) (found : ReadFinding) (last : Bool) :
    (s.scrubCore c off found last).pending = s.pending := by simp [State.scrubCore, ite_pending]
@[simp] theorem State.scrubCore_mem (s : State) (c off : Nat) (found : ReadFinding) (last : Bool) :
    (s.scrubCore c off found last).mem = s.mem := by simp [State.scrubCore, ite_mem]
@[simp] theorem State.scrubCore_holmMem (s : State) (c off : Nat) (found : ReadFinding) (last : Bool) :
    (s.scrubCore c off found last).holmMem = s.holmMem := by simp [State.scrubCore, ite_holmMem]
@[simp] theorem State.retireBank_pending (s : State) (i b : Nat) :
    (s.retireBank i b).pending = s.pending := by simp [State.retireBank]
@[simp] theorem State.retireBank_mem (s : State) (i b : Nat) :
    (s.retireBank i b).mem = s.mem := by simp [State.retireBank]
@[simp] theorem State.retireBank_holmMem (s : State) (i b : Nat) :
    (s.retireBank i b).holmMem = s.holmMem := by simp [State.retireBank]
@[simp] theorem State.steerColumn_pending (s : State) (i b sub col row : Nat) :
    (s.steerColumn i b sub col row).1.pending = s.pending := by
  unfold State.steerColumn
  (try dsimp only)
  repeat' (first | (simp [*]; done) | split)
@[simp] theorem State.steerColumn_mem (s : State) (i b sub col row : Nat) :
    (s.steerColumn i b sub col row).1.mem = s.mem := by
  unfold State.steerColumn
  (try dsimp only)
  repeat' (first | (simp [*]; done) | split)
@[simp] theorem State.steerColumn_holmMem (s : State) (i b sub col row : Nat) :
    (s.steerColumn i b sub col row).1.holmMem = s.holmMem := by
  unfold State.steerColumn
  (try dsimp only)
  repeat' (first | (simp [*]; done) | split)
@[simp] theorem State.cellFault_pending (s : State) (i b : Nat) (c : FailCell) :
    (s.cellFault i b c).1.pending = s.pending := by
  unfold State.cellFault
  (try dsimp only)
  repeat' (first | (simp [*]; done) | split)
@[simp] theorem State.cellFault_mem (s : State) (i b : Nat) (c : FailCell) :
    (s.cellFault i b c).1.mem = s.mem := by
  unfold State.cellFault
  (try dsimp only)
  repeat' (first | (simp [*]; done) | split)
@[simp] theorem State.cellFault_holmMem (s : State) (i b : Nat) (c : FailCell) :
    (s.cellFault i b c).1.holmMem = s.holmMem := by
  unfold State.cellFault
  (try dsimp only)
  repeat' (first | (simp [*]; done) | split)
@[simp] theorem State.columnFaults_pending (s : State) (i b : Nat) (cells : List FailCell) :
    (s.columnFaults i b cells).1.pending = s.pending := by
  unfold State.columnFaults
  simp [*]
  repeat' (first | (simp [*]; done) | split | (rw [foldl_pending]; intro _ _; dsimp only) | (rw [foldl1_pending]; intro _ _; dsimp only))
@[simp] theorem State.columnFaults_mem (s : State) (i b : Nat) (cells : List FailCell) :
    (s.columnFaults i b cells).1.mem = s.mem := by
  unfold State.columnFaults
  simp [*]
  repeat' (first | (simp [*]; done) | split | (rw [foldl_mem]; intro _ _; dsimp only) | (rw [foldl1_mem]; intro _ _; dsimp only))
@[simp] theorem State.columnFaults_holmMem (s : State) (i b : Nat) (cells : List FailCell) :
    (s.columnFaults i b cells).1.holmMem = s.holmMem := by
  unfold State.columnFaults
  simp [*]
  repeat' (first | (simp [*]; done) | split | (rw [foldl_holmMem]; intro _ _; dsimp only) | (rw [foldl1_holmMem]; intro _ _; dsimp only))
@[simp] theorem State.matmulStep_pending (s : State) (c e : Nat) (o : MatmulOps) (t : Tile) (m : MaskEntry) (r : Nat) :
    (s.matmulStep c e o t m r).1.pending = s.pending := by
  unfold State.matmulStep
  (try dsimp only)
  repeat' (first | (simp [*]; done) | split)
@[simp] theorem State.matmulStep_mem (s : State) (c e : Nat) (o : MatmulOps) (t : Tile) (m : MaskEntry) (r : Nat) :
    (s.matmulStep c e o t m r).1.mem = s.mem := by
  unfold State.matmulStep
  (try dsimp only)
  repeat' (first | (simp [*]; done) | split)
@[simp] theorem State.matmulStep_holmMem (s : State) (c e : Nat) (o : MatmulOps) (t : Tile) (m : MaskEntry) (r : Nat) :
    (s.matmulStep c e o t m r).1.holmMem = s.holmMem := by
  unfold State.matmulStep
  (try dsimp only)
  repeat' (first | (simp [*]; done) | split)
@[simp] theorem State.vectorCycle_pending (s : State) (e : EngineId) (last foreground : Bool) :
    (s.vectorCycle e last foreground).pending = s.pending := by simp [State.vectorCycle, ite_pending]
@[simp] theorem State.vectorCycle_mem (s : State) (e : EngineId) (last foreground : Bool) :
    (s.vectorCycle e last foreground).mem = s.mem := by simp [State.vectorCycle, ite_mem]
@[simp] theorem State.vectorCycle_holmMem (s : State) (e : EngineId) (last foreground : Bool) :
    (s.vectorCycle e last foreground).holmMem = s.holmMem := by simp [State.vectorCycle, ite_holmMem]
@[simp] theorem State.forceUnload_pending (s : State) (c code : Nat) :
    (s.forceUnload c code).pending = s.pending := by
  unfold State.forceUnload
  (try dsimp only)
  repeat' (first | (simp [ite_pending, *]; done) | split)
@[simp] theorem State.forceUnload_mem (s : State) (c code : Nat) :
    (s.forceUnload c code).mem = s.mem := by
  unfold State.forceUnload
  (try dsimp only)
  repeat' (first | (simp [ite_mem, *]; done) | split)
@[simp] theorem State.forceUnload_holmMem (s : State) (c code : Nat) :
    (s.forceUnload c code).holmMem = s.holmMem := by
  unfold State.forceUnload
  (try dsimp only)
  repeat' (first | (simp [ite_holmMem, *]; done) | split)
@[simp] theorem State.forceUnloads_pending (s : State) (code : Nat) (p : Nat → Plan → Bool) :
    (s.forceUnloads code p).pending = s.pending := by simp [State.forceUnloads, ite_pending]
@[simp] theorem State.forceUnloads_mem (s : State) (code : Nat) (p : Nat → Plan → Bool) :
    (s.forceUnloads code p).mem = s.mem := by simp [State.forceUnloads, ite_mem]
@[simp] theorem State.forceUnloads_holmMem (s : State) (code : Nat) (p : Nat → Plan → Bool) :
    (s.forceUnloads code p).holmMem = s.holmMem := by simp [State.forceUnloads, ite_holmMem]
@[simp] theorem State.startPace_pending (s : State) (i : Nat) :
    (s.startPace i).pending = s.pending := by rfl
@[simp] theorem State.startPace_mem (s : State) (i : Nat) :
    (s.startPace i).mem = s.mem := by rfl
@[simp] theorem State.startPace_holmMem (s : State) (i : Nat) :
    (s.startPace i).holmMem = s.holmMem := by rfl
@[simp] theorem State.powerOnIsle_pending (s : State) (i : Nat) (st : IsleState) :
    (s.powerOnIsle i st).pending = s.pending := by rfl
@[simp] theorem State.powerOnIsle_mem (s : State) (i : Nat) (st : IsleState) :
    (s.powerOnIsle i st).mem = s.mem := by rfl
@[simp] theorem State.powerOnIsle_holmMem (s : State) (i : Nat) (st : IsleState) :
    (s.powerOnIsle i st).holmMem = s.holmMem := by rfl
@[simp] theorem State.failBank_pending (s : State) (i b : Nat) :
    (s.failBank i b).pending = s.pending := by
  unfold State.failBank
  (try dsimp only)
  repeat' (first | (simp [ite_pending, *]; done) | split)
@[simp] theorem State.failBank_mem (s : State) (i b : Nat) :
    (s.failBank i b).mem = s.mem := by
  unfold State.failBank
  (try dsimp only)
  repeat' (first | (simp [ite_mem, *]; done) | split)
@[simp] theorem State.failBank_holmMem (s : State) (i b : Nat) :
    (s.failBank i b).holmMem = s.holmMem := by
  unfold State.failBank
  (try dsimp only)
  repeat' (first | (simp [ite_holmMem, *]; done) | split)
@[simp] theorem State.bringStack_pending (s : State) (k : Nat) (protect : Bool) (pcs : BitVec 32) (failed : Bool) :
    (s.bringStack k protect pcs failed).pending = s.pending := by simp [State.bringStack, ite_pending]
@[simp] theorem State.bringStack_memWf (s : State) (k : Nat) (protect : Bool) (pcs : BitVec 32) (failed : Bool) (hw : s.mem.wf = true) :
    (s.bringStack k protect pcs failed).mem.wf = true := by
  unfold State.bringStack
  (try dsimp only)
  repeat' (first | (simp [ite_mem, *]; done) | split)
@[simp] theorem State.bringStack_holmMem (s : State) (k : Nat) (protect : Bool) (pcs : BitVec 32) (failed : Bool) :
    (s.bringStack k protect pcs failed).holmMem = s.holmMem := by simp [State.bringStack, ite_holmMem]
@[simp] theorem State.takeOutcome_pending (s : State) (i : Nat) (o : RetestOutcome) :
    (s.takeOutcome i o).pending = s.pending := by simp [State.takeOutcome]
@[simp] theorem State.takeOutcome_memWf (s : State) (i : Nat) (o : RetestOutcome) (hw : s.mem.wf = true) :
    (s.takeOutcome i o).mem.wf = true := by
  unfold State.takeOutcome
  simp [*]
  repeat' (first | (simp [*]; done) | split | (refine foldl_memWf _ ?_ _ _ ?_; intro _ _ _; try dsimp only) | (refine foldl1_memWf _ ?_ _ _ ?_; intro _ _ _; try dsimp only))
@[simp] theorem State.takeOutcome_holmMem (s : State) (i : Nat) (o : RetestOutcome) :
    (s.takeOutcome i o).holmMem = s.holmMem := by simp [State.takeOutcome]
@[simp] theorem State.release_pending (s : State) (sub by_ : Nat) :
    (s.release sub by_).pending = s.pending := by simp [State.release, ite_pending]
@[simp] theorem State.release_mem (s : State) (sub by_ : Nat) :
    (s.release sub by_).mem = s.mem := by simp [State.release, ite_mem]
@[simp] theorem State.release_holmMem (s : State) (sub by_ : Nat) :
    (s.release sub by_).holmMem = s.holmMem := by simp [State.release, ite_holmMem]
@[simp] theorem State.holdReleaseOp_pending (sub by_ : Nat) (s : State) :
    (s.holdReleaseOp sub by_).1.pending = s.pending := by
  unfold State.holdReleaseOp
  (try dsimp only)
  repeat' (first | (simp [*]; done) | split)
@[simp] theorem State.holdReleaseOp_mem (sub by_ : Nat) (s : State) :
    (s.holdReleaseOp sub by_).1.mem = s.mem := by
  unfold State.holdReleaseOp
  (try dsimp only)
  repeat' (first | (simp [*]; done) | split)
@[simp] theorem State.holdReleaseOp_holmMem (sub by_ : Nat) (s : State) :
    (s.holdReleaseOp sub by_).1.holmMem = s.holmMem := by
  unfold State.holdReleaseOp
  (try dsimp only)
  repeat' (first | (simp [*]; done) | split)
@[simp] theorem State.checkSpareRows_pending (s : State) (k : Nat) :
    (s.checkSpareRows k).pending = s.pending := by simp [State.checkSpareRows, ite_pending]
@[simp] theorem State.checkSpareRows_mem (s : State) (k : Nat) :
    (s.checkSpareRows k).mem = s.mem := by simp [State.checkSpareRows, ite_mem]
@[simp] theorem State.checkSpareRows_holmMem (s : State) (k : Nat) :
    (s.checkSpareRows k).holmMem = s.holmMem := by simp [State.checkSpareRows, ite_holmMem]
@[simp] theorem State.drainOp_pending (i : Nat) (s : State) :
    (s.drainOp i).1.pending = s.pending := by
  unfold State.drainOp
  (try dsimp only)
  repeat' (first | (simp [*]; done) | split)
@[simp] theorem State.drainOp_mem (i : Nat) (s : State) :
    (s.drainOp i).1.mem = s.mem := by
  unfold State.drainOp
  (try dsimp only)
  repeat' (first | (simp [*]; done) | split)
@[simp] theorem State.drainOp_holmMem (i : Nat) (s : State) :
    (s.drainOp i).1.holmMem = s.holmMem := by
  unfold State.drainOp
  (try dsimp only)
  repeat' (first | (simp [*]; done) | split)
@[simp] theorem State.finishDrain_pending (s : State) (i : Nat) :
    (s.finishDrain i).pending = s.pending := by simp [State.finishDrain, ite_pending]
@[simp] theorem State.finishDrain_memWf (s : State) (i : Nat) (hw : s.mem.wf = true) :
    (s.finishDrain i).mem.wf = true := by simp [State.finishDrain, ite_mem, *]
@[simp] theorem State.finishDrain_holmMem (s : State) (i : Nat) :
    (s.finishDrain i).holmMem = s.holmMem := by simp [State.finishDrain, ite_holmMem]
@[simp] theorem State.forceDrain_pending (s : State) (i : Nat) :
    (s.forceDrain i).pending = s.pending := by simp [State.forceDrain, ite_pending]
@[simp] theorem State.forceDrain_mem (s : State) (i : Nat) :
    (s.forceDrain i).mem = s.mem := by simp [State.forceDrain, ite_mem]
@[simp] theorem State.forceDrain_holmMem (s : State) (i : Nat) :
    (s.forceDrain i).holmMem = s.holmMem := by simp [State.forceDrain, ite_holmMem]
@[simp] theorem State.abortOp_pending (i : Nat) (s : State) :
    (s.abortOp i).1.pending = s.pending := by
  unfold State.abortOp
  (try dsimp only)
  repeat' (first | (simp [*]; done) | split)
@[simp] theorem State.abortOp_mem (i : Nat) (s : State) :
    (s.abortOp i).1.mem = s.mem := by
  unfold State.abortOp
  (try dsimp only)
  repeat' (first | (simp [*]; done) | split)
@[simp] theorem State.abortOp_holmMem (i : Nat) (s : State) :
    (s.abortOp i).1.holmMem = s.holmMem := by
  unfold State.abortOp
  (try dsimp only)
  repeat' (first | (simp [*]; done) | split)
@[simp] theorem State.retestOp_pending (i : Nat) (s : State) :
    (s.retestOp i).1.pending = s.pending := by
  unfold State.retestOp
  (try dsimp only)
  repeat' (first | (simp [*]; done) | split)
@[simp] theorem State.retestOp_mem (i : Nat) (s : State) :
    (s.retestOp i).1.mem = s.mem := by
  unfold State.retestOp
  (try dsimp only)
  repeat' (first | (simp [*]; done) | split)
@[simp] theorem State.retestOp_holmMem (i : Nat) (s : State) :
    (s.retestOp i).1.holmMem = s.holmMem := by
  unfold State.retestOp
  (try dsimp only)
  repeat' (first | (simp [*]; done) | split)
@[simp] theorem State.loadMicrocode_pending (s : State) (i image : Nat) (ok : Bool) :
    (s.loadMicrocode i image ok).pending = s.pending := by simp [State.loadMicrocode, ite_pending]
@[simp] theorem State.loadMicrocode_mem (s : State) (i image : Nat) (ok : Bool) :
    (s.loadMicrocode i image ok).mem = s.mem := by simp [State.loadMicrocode, ite_mem]
@[simp] theorem State.loadMicrocode_holmMem (s : State) (i image : Nat) (ok : Bool) :
    (s.loadMicrocode i image ok).holmMem = s.holmMem := by simp [State.loadMicrocode, ite_holmMem]
@[simp] theorem State.failRetest_pending (s : State) (i row : Nat) :
    (s.failRetest i row).pending = s.pending := by simp [State.failRetest]
@[simp] theorem State.failRetest_memWf (s : State) (i row : Nat) (hw : s.mem.wf = true) :
    (s.failRetest i row).mem.wf = true := by simp [State.failRetest, *]
@[simp] theorem State.failRetest_holmMem (s : State) (i row : Nat) :
    (s.failRetest i row).holmMem = s.holmMem := by simp [State.failRetest]
@[simp] theorem State.rejoinOp_pending (i : Nat) (s : State) :
    (s.rejoinOp i).1.pending = s.pending := by
  unfold State.rejoinOp
  (try dsimp only)
  repeat' (first | (simp [*]; done) | split)
@[simp] theorem State.rejoinOp_mem (i : Nat) (s : State) :
    (s.rejoinOp i).1.mem = s.mem := by
  unfold State.rejoinOp
  (try dsimp only)
  repeat' (first | (simp [*]; done) | split)
@[simp] theorem State.rejoinOp_holmMem (i : Nat) (s : State) :
    (s.rejoinOp i).1.holmMem = s.holmMem := by
  unfold State.rejoinOp
  (try dsimp only)
  repeat' (first | (simp [*]; done) | split)
@[simp] theorem State.checkWear_pending (s : State) :
    (s.checkWear).pending = s.pending := by simp [State.checkWear, ite_pending]
@[simp] theorem State.checkWear_mem (s : State) :
    (s.checkWear).mem = s.mem := by simp [State.checkWear, ite_mem]
@[simp] theorem State.checkWear_holmMem (s : State) :
    (s.checkWear).holmMem = s.holmMem := by simp [State.checkWear, ite_holmMem]
@[simp] theorem State.retireSector_pending (s : State) (n cause : Nat) :
    (s.retireSector n cause).pending = s.pending := by simp [State.retireSector]
@[simp] theorem State.retireSector_mem (s : State) (n cause : Nat) :
    (s.retireSector n cause).mem = s.mem := by simp [State.retireSector]
@[simp] theorem State.retireSector_holmMem (s : State) (n cause : Nat) :
    (s.retireSector n cause).holmMem = s.holmMem := by simp [State.retireSector]
@[simp] theorem State.tireSector_pending (s : State) (n cause ms : Nat) :
    (s.tireSector n cause ms).pending = s.pending := by simp [State.tireSector, ite_pending]
@[simp] theorem State.tireSector_mem (s : State) (n cause ms : Nat) :
    (s.tireSector n cause ms).mem = s.mem := by simp [State.tireSector, ite_mem]
@[simp] theorem State.tireSector_holmMem (s : State) (n cause ms : Nat) :
    (s.tireSector n cause ms).holmMem = s.holmMem := by simp [State.tireSector, ite_holmMem]
@[simp] theorem State.servo_pending (s : State) :
    (s.servo).pending = s.pending := by rfl
@[simp] theorem State.servo_mem (s : State) :
    (s.servo).mem = s.mem := by rfl
@[simp] theorem State.servo_holmMem (s : State) :
    (s.servo).holmMem = s.holmMem := by rfl
@[simp] theorem State.stepTime_pending (s : State) (d : Int) :
    (s.stepTime d).pending = s.pending := by simp [State.stepTime]
@[simp] theorem State.stepTime_mem (s : State) (d : Int) :
    (s.stepTime d).mem = s.mem := by simp [State.stepTime]
@[simp] theorem State.stepTime_holmMem (s : State) (d : Int) :
    (s.stepTime d).holmMem = s.holmMem := by simp [State.stepTime]
@[simp] theorem State.masterLost_pending (s : State) (cause : Nat) :
    (s.masterLost cause).pending = s.pending := by
  unfold State.masterLost
  (try dsimp only)
  repeat' (first | (simp [ite_pending, *]; done) | split)
@[simp] theorem State.masterLost_mem (s : State) (cause : Nat) :
    (s.masterLost cause).mem = s.mem := by
  unfold State.masterLost
  (try dsimp only)
  repeat' (first | (simp [ite_mem, *]; done) | split)
@[simp] theorem State.masterLost_holmMem (s : State) (cause : Nat) :
    (s.masterLost cause).holmMem = s.holmMem := by
  unfold State.masterLost
  (try dsimp only)
  repeat' (first | (simp [ite_holmMem, *]; done) | split)
@[simp] theorem State.saveTime_pending (s : State) :
    (s.saveTime).pending = s.pending := by rfl
@[simp] theorem State.saveTime_mem (s : State) :
    (s.saveTime).mem = s.mem := by rfl
@[simp] theorem State.saveTime_holmMem (s : State) :
    (s.saveTime).holmMem = s.holmMem := by rfl
@[simp] theorem State.sendTo_pending (s : State) (dest : Nat) (r : Rec) :
    (s.sendTo dest r).pending = s.pending := by simp [State.sendTo, ite_pending]
@[simp] theorem State.sendTo_mem (s : State) (dest : Nat) (r : Rec) :
    (s.sendTo dest r).mem = s.mem := by simp [State.sendTo, ite_mem]
@[simp] theorem State.sendTo_holmMem (s : State) (dest : Nat) (r : Rec) :
    (s.sendTo dest r).holmMem = s.holmMem := by simp [State.sendTo, ite_holmMem]
@[simp] theorem State.rateDueAll_pending (s : State) (rate : Nat) :
    (s.rateDueAll rate).pending = s.pending := by rfl
@[simp] theorem State.rateDueAll_mem (s : State) (rate : Nat) :
    (s.rateDueAll rate).mem = s.mem := by rfl
@[simp] theorem State.rateDueAll_holmMem (s : State) (rate : Nat) :
    (s.rateDueAll rate).holmMem = s.holmMem := by rfl
@[simp] theorem State.putForce_pending (s : State) (profile cause : Nat) :
    (s.putForce profile cause).pending = s.pending := by simp [State.putForce]
@[simp] theorem State.putForce_mem (s : State) (profile cause : Nat) :
    (s.putForce profile cause).mem = s.mem := by simp [State.putForce]
@[simp] theorem State.putForce_holmMem (s : State) (profile cause : Nat) :
    (s.putForce profile cause).holmMem = s.holmMem := by simp [State.putForce]
@[simp] theorem State.settled_pending (s : State) :
    (s.settled).pending = s.pending := by
  unfold State.settled
  (try dsimp only)
  repeat' (first | (simp [ite_pending, *]; done) | split)
@[simp] theorem State.settled_mem (s : State) :
    (s.settled).mem = s.mem := by
  unfold State.settled
  (try dsimp only)
  repeat' (first | (simp [ite_mem, *]; done) | split)
@[simp] theorem State.settled_holmMem (s : State) :
    (s.settled).holmMem = s.holmMem := by
  unfold State.settled
  (try dsimp only)
  repeat' (first | (simp [ite_holmMem, *]; done) | split)
@[simp] theorem State.retarget_pending (s : State) :
    (s.retarget).pending = s.pending := by simp [State.retarget]
@[simp] theorem State.retarget_mem (s : State) :
    (s.retarget).mem = s.mem := by simp [State.retarget]
@[simp] theorem State.retarget_holmMem (s : State) :
    (s.retarget).holmMem = s.holmMem := by simp [State.retarget]
@[simp] theorem State.freeMv_pending (s : State) (lo hi : Nat) :
    (s.freeMv lo hi).2.pending = s.pending := by rfl
@[simp] theorem State.freeMv_mem (s : State) (lo hi : Nat) :
    (s.freeMv lo hi).2.mem = s.mem := by rfl
@[simp] theorem State.freeMv_holmMem (s : State) (lo hi : Nat) :
    (s.freeMv lo hi).2.holmMem = s.holmMem := by rfl
@[simp] theorem State.cap_pending (s : State) :
    (s.cap).pending = s.pending := by
  unfold State.cap
  (try dsimp only)
  repeat' (first | (simp [ite_pending, *]; done) | split)
@[simp] theorem State.cap_mem (s : State) :
    (s.cap).mem = s.mem := by
  unfold State.cap
  (try dsimp only)
  repeat' (first | (simp [ite_mem, *]; done) | split)
@[simp] theorem State.cap_holmMem (s : State) :
    (s.cap).holmMem = s.holmMem := by
  unfold State.cap
  (try dsimp only)
  repeat' (first | (simp [ite_holmMem, *]; done) | split)
@[simp] theorem State.siteOff_pending (s : State) (site : Nat) :
    (s.siteOff site).pending = s.pending := by simp [State.siteOff, ite_pending]
@[simp] theorem State.siteOff_mem (s : State) (site : Nat) :
    (s.siteOff site).mem = s.mem := by simp [State.siteOff, ite_mem]
@[simp] theorem State.siteOff_holmMem (s : State) (site : Nat) :
    (s.siteOff site).holmMem = s.holmMem := by simp [State.siteOff, ite_holmMem]
@[simp] theorem State.siteUp_pending (s : State) (site : Nat) :
    (s.siteUp site).pending = s.pending := by simp [State.siteUp, ite_pending]
@[simp] theorem State.siteUp_mem (s : State) (site : Nat) :
    (s.siteUp site).mem = s.mem := by simp [State.siteUp, ite_mem]
@[simp] theorem State.siteUp_holmMem (s : State) (site : Nat) :
    (s.siteUp site).holmMem = s.holmMem := by simp [State.siteUp, ite_holmMem]
@[simp] theorem State.isleDown_pending (s : State) (i : Nat) :
    (s.isleDown i).pending = s.pending := by simp [State.isleDown, ite_pending]
@[simp] theorem State.isleDown_memWf (s : State) (i : Nat) (hw : s.mem.wf = true) :
    (s.isleDown i).mem.wf = true := by
  unfold State.isleDown
  (try dsimp only)
  repeat' (first | (simp [ite_mem, *]; done) | split)
@[simp] theorem State.isleDown_holmMem (s : State) (i : Nat) :
    (s.isleDown i).holmMem = s.holmMem := by simp [State.isleDown, ite_holmMem]
@[simp] theorem State.emptyWafer_pending (s : State) :
    (s.emptyWafer).pending = s.pending := by simp [State.emptyWafer, ite_pending]
@[simp] theorem State.emptyWafer_memWf (s : State) (hw : s.mem.wf = true) :
    (s.emptyWafer).mem.wf = true := by
  unfold State.emptyWafer
  simp [ite_mem, *]
  repeat' (first | (simp [*]; done) | split | (refine foldl_memWf _ ?_ _ _ ?_; intro _ _ _; try dsimp only) | (refine foldl1_memWf _ ?_ _ _ ?_; intro _ _ _; try dsimp only))
@[simp] theorem State.emptyWafer_holmMem (s : State) :
    (s.emptyWafer).holmMem = s.holmMem := by simp [State.emptyWafer, ite_holmMem]
@[simp] theorem State.enterW1_pending (s : State) (cause : W1Cause) :
    (s.enterW1 cause).pending = s.pending := by simp [State.enterW1, ite_pending]
@[simp] theorem State.enterW1_memWf (s : State) (cause : W1Cause) (hw : s.mem.wf = true) :
    (s.enterW1 cause).mem.wf = true := by simp [State.enterW1, ite_mem, *]
@[simp] theorem State.enterW1_holmMem (s : State) (cause : W1Cause) :
    (s.enterW1 cause).holmMem = s.holmMem := by simp [State.enterW1, ite_holmMem]
@[simp] theorem State.capCheck_pending (s : State) :
    (s.capCheck).pending = s.pending := by
  unfold State.capCheck
  repeat' (first | (simp [ite_pending, *]; done) | split)
@[simp] theorem State.capCheck_holmMem (s : State) :
    (s.capCheck).holmMem = s.holmMem := by
  unfold State.capCheck
  repeat' (first | (simp [ite_holmMem, *]; done) | split)
@[simp] theorem State.capCheck_memWf (s : State) (hw : s.mem.wf = true) :
    (s.capCheck).mem.wf = true := by
  unfold State.capCheck
  (try dsimp only)
  repeat' (first | (simp [ite_mem, *]; done) | split)
@[simp] theorem State.lowerTo_pending (s : State) (profile cause : Nat) :
    (s.lowerTo profile cause).pending = s.pending := by simp [State.lowerTo, *]
@[simp] theorem State.lowerTo_memWf (s : State) (profile cause : Nat) (hw : s.mem.wf = true) :
    (s.lowerTo profile cause).mem.wf = true := by simp [State.lowerTo, *]
@[simp] theorem State.lowerTo_holmMem (s : State) (profile cause : Nat) :
    (s.lowerTo profile cause).holmMem = s.holmMem := by
  unfold State.lowerTo
  (try dsimp only)
  repeat' (first | (simp [*]; done) | split)
@[simp] theorem State.raiseTo_pending (s : State) (profile cause : Nat) :
    (s.raiseTo profile cause).pending = s.pending := by simp [State.raiseTo, *]
@[simp] theorem State.raiseTo_memWf (s : State) (profile cause : Nat) (hw : s.mem.wf = true) :
    (s.raiseTo profile cause).mem.wf = true := by simp [State.raiseTo, *]
@[simp] theorem State.raiseTo_holmMem (s : State) (profile cause : Nat) :
    (s.raiseTo profile cause).holmMem = s.holmMem := by
  unfold State.raiseTo
  (try dsimp only)
  repeat' (first | (simp [*]; done) | split)
@[simp] theorem State.applyProfile_pending (s : State) (cause : Nat) :
    (s.applyProfile cause).pending = s.pending := by simp [State.applyProfile, ite_pending]
@[simp] theorem State.applyProfile_memWf (s : State) (cause : Nat) (hw : s.mem.wf = true) :
    (s.applyProfile cause).mem.wf = true := by
  unfold State.applyProfile
  (try dsimp only)
  repeat' (first | (simp [ite_mem, *]; done) | split)
@[simp] theorem State.applyProfile_holmMem (s : State) (cause : Nat) :
    (s.applyProfile cause).holmMem = s.holmMem := by simp [State.applyProfile, ite_holmMem]
@[simp] theorem State.powerLost_pending (s : State) :
    (s.powerLost).pending = s.pending := by rfl
@[simp] theorem State.powerLost_memWf (s : State) :
    (s.powerLost).mem.wf = true := by rfl
@[simp] theorem State.powerLost_holmMemWf (s : State) :
    (s.powerLost).holmMem.wf = true := by rfl
@[simp] theorem State.feedGone_pending (s : State) (feed : Nat) :
    (s.feedGone feed).pending = s.pending := by simp [State.feedGone, ite_pending]
@[simp] theorem State.feedGone_memWf (s : State) (feed : Nat) (hw : s.mem.wf = true) :
    (s.feedGone feed).mem.wf = true := by
  unfold State.feedGone
  (try dsimp only)
  repeat' (first | (simp [ite_mem, *]; done) | split)
@[simp] theorem State.feedGone_holmMemWf (s : State) (feed : Nat) (hw : s.holmMem.wf = true) :
    (s.feedGone feed).holmMem.wf = true := by
  unfold State.feedGone
  (try dsimp only)
  repeat' (first | (simp [ite_holmMem, *]; done) | split)
@[simp] theorem State.feedBack_pending (s : State) (feed : Nat) :
    (s.feedBack feed).pending = s.pending := by simp [State.feedBack, *]
@[simp] theorem State.feedBack_memWf (s : State) (feed : Nat) (hw : s.mem.wf = true) :
    (s.feedBack feed).mem.wf = true := by simp [State.feedBack, *]
@[simp] theorem State.feedBack_holmMem (s : State) (feed : Nat) :
    (s.feedBack feed).holmMem = s.holmMem := by
  unfold State.feedBack
  (try dsimp only)
  repeat' (first | (simp [*]; done) | split)
@[simp] theorem State.suppliesChanged_pending (s : State) (feed : Nat) (was : Bool) :
    (s.suppliesChanged feed was).pending = s.pending := by simp [State.suppliesChanged, ite_pending]
@[simp] theorem State.suppliesChanged_memWf (s : State) (feed : Nat) (was : Bool) (hw : s.mem.wf = true) :
    (s.suppliesChanged feed was).mem.wf = true := by
  unfold State.suppliesChanged
  (try dsimp only)
  repeat' (first | (simp [ite_mem, *]; done) | split)
@[simp] theorem State.suppliesChanged_holmMemWf (s : State) (feed : Nat) (was : Bool) (hw : s.holmMem.wf = true) :
    (s.suppliesChanged feed was).holmMem.wf = true := by
  unfold State.suppliesChanged
  (try dsimp only)
  repeat' (first | (simp [ite_holmMem, *]; done) | split)
@[simp] theorem State.profileOp_pending (v : Nat) (s : State) :
    (s.profileOp v).1.pending = s.pending := by
  unfold State.profileOp
  (try dsimp only)
  repeat' (first | (simp [*]; done) | split)
@[simp] theorem State.profileOp_holmMem (v : Nat) (s : State) :
    (s.profileOp v).1.holmMem = s.holmMem := by
  unfold State.profileOp
  (try dsimp only)
  repeat' (first | (simp [*]; done) | split)
@[simp] theorem State.profileOp_memWf (v : Nat) (s : State) (hw : s.mem.wf = true) :
    (s.profileOp v).1.mem.wf = true := by
  unfold State.profileOp
  (try dsimp only)
  repeat' (first | (simp [*]; done) | split)
@[simp] theorem State.feedLimitOp_pending (feed v : Nat) (s : State) :
    (s.feedLimitOp feed v).1.pending = s.pending := by
  unfold State.feedLimitOp
  (try dsimp only)
  repeat' (first | (simp [*]; done) | split)
@[simp] theorem State.feedLimitOp_holmMem (feed v : Nat) (s : State) :
    (s.feedLimitOp feed v).1.holmMem = s.holmMem := by
  unfold State.feedLimitOp
  (try dsimp only)
  repeat' (first | (simp [*]; done) | split)
@[simp] theorem State.feedLimitOp_memWf (feed v : Nat) (s : State) (hw : s.mem.wf = true) :
    (s.feedLimitOp feed v).1.mem.wf = true := by
  unfold State.feedLimitOp
  (try dsimp only)
  repeat' (first | (simp [*]; done) | split)
@[simp] theorem State.fanCheck_pending (s : State) :
    (s.fanCheck).pending = s.pending := by simp [State.fanCheck, ite_pending]
@[simp] theorem State.fanCheck_mem (s : State) :
    (s.fanCheck).mem = s.mem := by simp [State.fanCheck, ite_mem]
@[simp] theorem State.fanCheck_holmMem (s : State) :
    (s.fanCheck).holmMem = s.holmMem := by simp [State.fanCheck, ite_holmMem]
@[simp] theorem State.wakeIsle_pending (s : State) (i : Nat) :
    (s.wakeIsle i).pending = s.pending := by simp [State.wakeIsle, ite_pending]
@[simp] theorem State.wakeIsle_mem (s : State) (i : Nat) :
    (s.wakeIsle i).mem = s.mem := by simp [State.wakeIsle, ite_mem]
@[simp] theorem State.wakeIsle_holmMem (s : State) (i : Nat) :
    (s.wakeIsle i).holmMem = s.holmMem := by simp [State.wakeIsle, ite_holmMem]
@[simp] theorem State.sitePowerOp_pending (site v : Nat) (s : State) :
    (s.sitePowerOp site v).1.pending = s.pending := by
  unfold State.sitePowerOp
  (try dsimp only)
  repeat' (first | (simp [ite_pending, *]; done) | split)
@[simp] theorem State.sitePowerOp_mem (site v : Nat) (s : State) :
    (s.sitePowerOp site v).1.mem = s.mem := by
  unfold State.sitePowerOp
  (try dsimp only)
  repeat' (first | (simp [ite_mem, *]; done) | split)
@[simp] theorem State.sitePowerOp_holmMem (site v : Nat) (s : State) :
    (s.sitePowerOp site v).1.holmMem = s.holmMem := by
  unfold State.sitePowerOp
  (try dsimp only)
  repeat' (first | (simp [ite_holmMem, *]; done) | split)
@[simp] theorem State.toW1Op_pending (s : State) :
    (s.toW1Op).1.pending = s.pending := by
  unfold State.toW1Op
  (try dsimp only)
  repeat' (first | (simp [*]; done) | split)
@[simp] theorem State.toW1Op_holmMem (s : State) :
    (s.toW1Op).1.holmMem = s.holmMem := by
  unfold State.toW1Op
  (try dsimp only)
  repeat' (first | (simp [*]; done) | split)
@[simp] theorem State.toW1Op_memWf (s : State) (hw : s.mem.wf = true) :
    (s.toW1Op).1.mem.wf = true := by
  unfold State.toW1Op
  (try dsimp only)
  repeat' (first | (simp [*]; done) | split)
@[simp] theorem State.toW3Op_pending (ch : Channel) (s : State) :
    (s.toW3Op ch).1.pending = s.pending := by
  unfold State.toW3Op
  (try dsimp only)
  repeat' (first | (simp [*]; done) | split)
@[simp] theorem State.toW3Op_memWf (ch : Channel) (s : State) (hw : s.mem.wf = true) :
    (s.toW3Op ch).1.mem.wf = true := by
  unfold State.toW3Op
  (try dsimp only)
  repeat' (first | (simp [*]; done) | split)
@[simp] theorem State.toW3Op_holmMemWf (ch : Channel) (s : State) (hw : s.holmMem.wf = true) :
    (s.toW3Op ch).1.holmMem.wf = true := by
  unfold State.toW3Op
  (try dsimp only)
  repeat' (first | (simp [*]; done) | split)
@[simp] theorem State.rejectSlot_pending (s : State) (c : SlotCheck) :
    (s.rejectSlot c).pending = s.pending := by rfl
@[simp] theorem State.rejectSlot_mem (s : State) (c : SlotCheck) :
    (s.rejectSlot c).mem = s.mem := by rfl
@[simp] theorem State.rejectSlot_holmMem (s : State) (c : SlotCheck) :
    (s.rejectSlot c).holmMem = s.holmMem := by rfl
@[simp] theorem State.reportRejected_pending (s : State) (cs : List SlotCheck) :
    (s.reportRejected cs).pending = s.pending := by simp [State.reportRejected]
@[simp] theorem State.reportRejected_mem (s : State) (cs : List SlotCheck) :
    (s.reportRejected cs).mem = s.mem := by simp [State.reportRejected]
@[simp] theorem State.reportRejected_holmMem (s : State) (cs : List SlotCheck) :
    (s.reportRejected cs).holmMem = s.holmMem := by simp [State.reportRejected]
@[simp] theorem State.chooseSlot_pending (s : State) (watchdog : Bool) :
    (s.chooseSlot watchdog).1.pending = s.pending := by
  unfold State.chooseSlot
  (try dsimp only)
  repeat' (first | (simp [*]; done) | split)
@[simp] theorem State.chooseSlot_mem (s : State) (watchdog : Bool) :
    (s.chooseSlot watchdog).1.mem = s.mem := by
  unfold State.chooseSlot
  (try dsimp only)
  repeat' (first | (simp [*]; done) | split)
@[simp] theorem State.chooseSlot_holmMem (s : State) (watchdog : Bool) :
    (s.chooseSlot watchdog).1.holmMem = s.holmMem := by
  unfold State.chooseSlot
  (try dsimp only)
  repeat' (first | (simp [*]; done) | split)
@[simp] theorem State.startSlot_pending (s : State) (rejected : List SlotCheck) (watchdog : Bool) :
    (s.startSlot rejected watchdog).1.pending = s.pending := by
  unfold State.startSlot
  (try dsimp only)
  repeat' (first | (simp [*]; done) | split)
@[simp] theorem State.startSlot_mem (s : State) (rejected : List SlotCheck) (watchdog : Bool) :
    (s.startSlot rejected watchdog).1.mem = s.mem := by
  unfold State.startSlot
  (try dsimp only)
  repeat' (first | (simp [*]; done) | split)
@[simp] theorem State.startSlot_holmMem (s : State) (rejected : List SlotCheck) (watchdog : Bool) :
    (s.startSlot rejected watchdog).1.holmMem = s.holmMem := by
  unfold State.startSlot
  (try dsimp only)
  repeat' (first | (simp [*]; done) | split)
@[simp] theorem State.tryIsle_pending (s : State) (i : Nat) (o : RetestOutcome) :
    (s.tryIsle i o).1.pending = s.pending := by
  unfold State.tryIsle
  (try dsimp only)
  repeat' (first | (simp [*]; done) | split)
@[simp] theorem State.tryIsle_holmMem (s : State) (i : Nat) (o : RetestOutcome) :
    (s.tryIsle i o).1.holmMem = s.holmMem := by
  unfold State.tryIsle
  (try dsimp only)
  repeat' (first | (simp [*]; done) | split)
@[simp] theorem State.tryIsle_memWf (s : State) (i : Nat) (o : RetestOutcome) (hw : s.mem.wf = true) :
    (s.tryIsle i o).1.mem.wf = true := by
  unfold State.tryIsle
  simp [*]
  repeat' (first | (simp [*]; done) | split | (refine foldl_memWf _ ?_ _ _ ?_; intro _ _ _; try dsimp only) | (refine foldl1_memWf _ ?_ _ _ ?_; intro _ _ _; try dsimp only))
@[simp] theorem State.bringIsle_pending (s : State) (boot : BootFacts) (i n k : Nat) :
    (s.bringIsle boot i n k).1.pending = s.pending := by
  induction k generalizing s n with
  | zero => simp [State.bringIsle, *]
  | succ k ih =>
    unfold State.bringIsle
    dsimp only
    repeat' (first | (simp [*]; done) | split)
@[simp] theorem State.bringIsle_holmMem (s : State) (boot : BootFacts) (i n k : Nat) :
    (s.bringIsle boot i n k).1.holmMem = s.holmMem := by
  induction k generalizing s n with
  | zero => simp [State.bringIsle, *]
  | succ k ih =>
    unfold State.bringIsle
    dsimp only
    repeat' (first | (simp [*]; done) | split)
@[simp] theorem State.bringIsle_memWf (s : State) (boot : BootFacts) (i n k : Nat) (hw : s.mem.wf = true) :
    (s.bringIsle boot i n k).1.mem.wf = true := by
  induction k generalizing s n with
  | zero => simp [State.bringIsle, *]
  | succ k ih =>
    have h := State.tryIsle_memWf s i (bootAttempt boot i n) hw
    unfold State.bringIsle
    dsimp only
    split
    · simp [h]
    · exact ih _ _ (State.powerOffIsle_memWf _ _ (by simp [h]))
@[simp] theorem State.wakeFromW1_pending (s : State) (boot : BootFacts) (i : Nat) :
    (s.wakeFromW1 boot i).1.pending = s.pending := by
  unfold State.wakeFromW1
  (try dsimp only)
  repeat' (first | (simp [*]; done) | split)
@[simp] theorem State.wakeFromW1_holmMem (s : State) (boot : BootFacts) (i : Nat) :
    (s.wakeFromW1 boot i).1.holmMem = s.holmMem := by
  unfold State.wakeFromW1
  (try dsimp only)
  repeat' (first | (simp [*]; done) | split)
@[simp] theorem State.wakeFromW1_memWf (s : State) (boot : BootFacts) (i : Nat) (hw : s.mem.wf = true) :
    (s.wakeFromW1 boot i).1.mem.wf = true := by
  unfold State.wakeFromW1
  (try dsimp only)
  repeat' (first | (simp [*]; done) | split)
@[simp] theorem State.bringIsles_pending (s : State) (one : State → Nat → State × Option Nat) (isles : List Nat)
    (hone : ∀ t x0, (one t x0).1.pending = t.pending) :
    (s.bringIsles one isles).1.pending = s.pending := by
  unfold State.bringIsles
  refine foldl1_pending _ ?_ _ _
  rintro ⟨s, _⟩ _
  have h := hone s ‹_›
  dsimp only
  split <;> simp_all
@[simp] theorem State.bringIsles_mem (s : State) (one : State → Nat → State × Option Nat) (isles : List Nat)
    (hone : ∀ t x0, (one t x0).1.mem = t.mem) :
    (s.bringIsles one isles).1.mem = s.mem := by
  unfold State.bringIsles
  refine foldl1_mem _ ?_ _ _
  rintro ⟨s, _⟩ _
  have h := hone s ‹_›
  dsimp only
  split <;> simp_all
@[simp] theorem State.bringIsles_holmMem (s : State) (one : State → Nat → State × Option Nat) (isles : List Nat)
    (hone : ∀ t x0, (one t x0).1.holmMem = t.holmMem) :
    (s.bringIsles one isles).1.holmMem = s.holmMem := by
  unfold State.bringIsles
  refine foldl1_holmMem _ ?_ _ _
  rintro ⟨s, _⟩ _
  have h := hone s ‹_›
  dsimp only
  split <;> simp_all
@[simp] theorem State.bringIsles_memWf (s : State) (one : State → Nat → State × Option Nat) (isles : List Nat)
    (hone : ∀ t x0, t.mem.wf = true → (one t x0).1.mem.wf = true) (hw : s.mem.wf = true) :
    (s.bringIsles one isles).1.mem.wf = true := by
  unfold State.bringIsles
  refine foldl1_memWf _ ?_ _ _ hw
  rintro ⟨s, _⟩ _ hw
  have h := hone s ‹_›
  dsimp only
  split <;> simp_all
@[simp] theorem State.bringIsles_holmMemWf (s : State) (one : State → Nat → State × Option Nat) (isles : List Nat)
    (hone : ∀ t x0, t.holmMem.wf = true → (one t x0).1.holmMem.wf = true) (hw : s.holmMem.wf = true) :
    (s.bringIsles one isles).1.holmMem.wf = true := by
  unfold State.bringIsles
  refine foldl1_holmMemWf _ ?_ _ _ hw
  rintro ⟨s, _⟩ _ hw
  have h := hone s ‹_›
  dsimp only
  split <;> simp_all
@[simp] theorem State.publishFirst_pending (s : State) (mask : Nat) (out : List Nat) :
    (s.publishFirst mask out).pending = s.pending := by simp [State.publishFirst, ite_pending]
@[simp] theorem State.publishFirst_mem (s : State) (mask : Nat) (out : List Nat) :
    (s.publishFirst mask out).mem = s.mem := by simp [State.publishFirst, ite_mem]
@[simp] theorem State.publishFirst_holmMem (s : State) (mask : Nat) (out : List Nat) :
    (s.publishFirst mask out).holmMem = s.holmMem := by simp [State.publishFirst, ite_holmMem]
@[simp] theorem State.releaseIsles_pending (s : State) (isles : List Nat) :
    (s.releaseIsles isles).pending = s.pending := by simp [State.releaseIsles]
@[simp] theorem State.releaseIsles_mem (s : State) (isles : List Nat) :
    (s.releaseIsles isles).mem = s.mem := by simp [State.releaseIsles]
@[simp] theorem State.releaseIsles_holmMem (s : State) (isles : List Nat) :
    (s.releaseIsles isles).holmMem = s.holmMem := by simp [State.releaseIsles]
@[simp] theorem State.switchTaken_pending (s : State) :
    (s.switchTaken).pending = s.pending := by simp [State.switchTaken, ite_pending]
@[simp] theorem State.switchTaken_mem (s : State) :
    (s.switchTaken).mem = s.mem := by simp [State.switchTaken, ite_mem]
@[simp] theorem State.switchTaken_holmMem (s : State) :
    (s.switchTaken).holmMem = s.holmMem := by simp [State.switchTaken, ite_holmMem]
@[simp] theorem State.stepDone_pending (s : State) (n : Nat) :
    (s.stepDone n).pending = s.pending := by rfl
@[simp] theorem State.stepDone_mem (s : State) (n : Nat) :
    (s.stepDone n).mem = s.mem := by rfl
@[simp] theorem State.stepDone_holmMem (s : State) (n : Nat) :
    (s.stepDone n).holmMem = s.holmMem := by rfl
@[simp] theorem State.bringUp_pending (s : State) (boot : BootFacts) (first steps : Bool) (one : State → Nat → State × Option Nat) (isles : List Nat)
    (hone : ∀ t x0, (one t x0).1.pending = t.pending) :
    (s.bringUp boot first steps one isles).pending = s.pending := by
  unfold State.bringUp
  (try dsimp only)
  repeat' (first | (simp [ite_pending, *]; done) | split)
@[simp] theorem State.bringUp_holmMem (s : State) (boot : BootFacts) (first steps : Bool) (one : State → Nat → State × Option Nat) (isles : List Nat)
    (hone : ∀ t x0, (one t x0).1.holmMem = t.holmMem) :
    (s.bringUp boot first steps one isles).holmMem = s.holmMem := by
  unfold State.bringUp
  (try dsimp only)
  repeat' (first | (simp [ite_holmMem, *]; done) | split)
@[simp] theorem State.bringUp_memWf (s : State) (boot : BootFacts) (first steps : Bool) (one : State → Nat → State × Option Nat) (isles : List Nat)
    (hone : ∀ t x0, t.mem.wf = true → (one t x0).1.mem.wf = true) (hw : s.mem.wf = true) :
    (s.bringUp boot first steps one isles).mem.wf = true := by
  unfold State.bringUp
  dsimp only
  refine State.capCheck_memWf _ ?_
  simp only [ite_mem, State.stepDone_mem, ite_self, State.reshape_mem, State.releaseIsles_mem, State.publishFirst_mem, foldl_mem,
    State.updSound_mem, implies_true]
  refine State.bringIsles_memWf _ _ _ hone ?_
  simp [ite_mem, hw]
@[simp] theorem State.startWafer_pending (s : State) (boot : BootFacts) (first : Bool) :
    (s.startWafer boot first).pending = s.pending := by simp [State.startWafer, ite_pending]
@[simp] theorem State.startWafer_holmMem (s : State) (boot : BootFacts) (first : Bool) :
    (s.startWafer boot first).holmMem = s.holmMem := by simp [State.startWafer, ite_holmMem]
@[simp] theorem State.startWafer_memWf (s : State) (boot : BootFacts) (first : Bool) (hw : s.mem.wf = true) :
    (s.startWafer boot first).mem.wf = true := by
  unfold State.startWafer
  exact State.bringUp_memWf _ _ _ _ _ _ (fun t i ht => State.bringIsle_memWf t _ _ _ _ ht) (by simp [ite_mem, hw])
@[simp] theorem State.startService_pending (s : State) (boot : BootFacts) :
    (s.startService boot).pending = s.pending := by simp [State.startService, ite_pending]
@[simp] theorem State.startService_holmMem (s : State) (boot : BootFacts) :
    (s.startService boot).holmMem = s.holmMem := by simp [State.startService, ite_holmMem]
@[simp] theorem State.startService_memWf (s : State) (boot : BootFacts) (hw : s.mem.wf = true) :
    (s.startService boot).mem.wf = true := by
  unfold State.startService
  (try dsimp only)
  repeat' (first | (simp [ite_mem, *]; done) | split)
@[simp] theorem State.exitW1_pending (s : State) (boot : BootFacts) :
    (s.exitW1 boot).pending = s.pending := by simp [State.exitW1, ite_pending]
@[simp] theorem State.exitW1_holmMem (s : State) (boot : BootFacts) :
    (s.exitW1 boot).holmMem = s.holmMem := by simp [State.exitW1, ite_holmMem]
@[simp] theorem State.exitW1_memWf (s : State) (boot : BootFacts) (hw : s.mem.wf = true) :
    (s.exitW1 boot).mem.wf = true := by
  unfold State.exitW1
  simp only [ite_mem, State.emit_mem, ite_self]
  split
  · exact State.startService_memWf _ _ hw
  · exact State.bringUp_memWf _ _ _ _ _ _ (fun t i ht => State.wakeFromW1_memWf t _ _ ht) hw
@[simp] theorem State.lastReset_pending (s : State) (kind cause : Nat) :
    (s.lastReset kind cause).pending = s.pending := by rfl
@[simp] theorem State.lastReset_mem (s : State) (kind cause : Nat) :
    (s.lastReset kind cause).mem = s.mem := by rfl
@[simp] theorem State.lastReset_holmMem (s : State) (kind cause : Nat) :
    (s.lastReset kind cause).holmMem = s.holmMem := by rfl
@[simp] theorem State.stopHolm_pending (s : State) (cause : RestartCause) :
    (s.stopHolm cause).pending = s.pending := by simp [State.stopHolm]
@[simp] theorem State.stopHolm_mem (s : State) (cause : RestartCause) :
    (s.stopHolm cause).mem = s.mem := by simp [State.stopHolm]
@[simp] theorem State.stopHolm_holmMem (s : State) (cause : RestartCause) :
    (s.stopHolm cause).holmMem = s.holmMem := by simp [State.stopHolm]
@[simp] theorem State.restartBoard_pending (s : State) (cause : RestartCause) :
    (s.restartBoard cause).pending = s.pending := by simp [State.restartBoard, ite_pending]
@[simp] theorem State.restartBoard_mem (s : State) (cause : RestartCause) :
    (s.restartBoard cause).mem = s.mem := by simp [State.restartBoard, ite_mem]
@[simp] theorem State.restartBoard_holmMem (s : State) (cause : RestartCause) :
    (s.restartBoard cause).holmMem = s.holmMem := by simp [State.restartBoard, ite_holmMem]
@[simp] theorem State.toW0Op_pending (boot : BootFacts) (s : State) :
    (s.toW0Op boot).1.pending = s.pending := by
  unfold State.toW0Op
  (try dsimp only)
  repeat' (first | (simp [*]; done) | split)
@[simp] theorem State.toW0Op_holmMem (boot : BootFacts) (s : State) :
    (s.toW0Op boot).1.holmMem = s.holmMem := by
  unfold State.toW0Op
  (try dsimp only)
  repeat' (first | (simp [*]; done) | split)
@[simp] theorem State.toW0Op_memWf (boot : BootFacts) (s : State) (hw : s.mem.wf = true) :
    (s.toW0Op boot).1.mem.wf = true := by
  unfold State.toW0Op
  (try dsimp only)
  repeat' (first | (simp [*]; done) | split)
@[simp] theorem State.loadSettings_pending (s : State) :
    (s.loadSettings).pending = s.pending := by rfl
@[simp] theorem State.loadSettings_mem (s : State) :
    (s.loadSettings).mem = s.mem := by rfl
@[simp] theorem State.loadSettings_holmMem (s : State) :
    (s.loadSettings).holmMem = s.holmMem := by rfl
@[simp] theorem State.startHolm_pending (s : State) (usable : Bool) :
    (s.startHolm usable).pending = s.pending := by rfl
@[simp] theorem State.startHolm_mem (s : State) (usable : Bool) :
    (s.startHolm usable).mem = s.mem := by rfl
@[simp] theorem State.startHolm_holmMem (s : State) (usable : Bool) :
    (s.startHolm usable).holmMem = s.holmMem := by rfl
@[simp] theorem State.freeValue_pending (s : State) (bits : Nat) :
    (s.freeValue bits).2.pending = s.pending := by rfl
@[simp] theorem State.freeValue_mem (s : State) (bits : Nat) :
    (s.freeValue bits).2.mem = s.mem := by rfl
@[simp] theorem State.freeValue_holmMem (s : State) (bits : Nat) :
    (s.freeValue bits).2.holmMem = s.holmMem := by rfl
@[simp] theorem State.coldStart_pending (s : State) (boot : BootFacts) :
    (s.coldStart boot).pending = s.pending := by
  unfold State.coldStart
  (try dsimp only)
  repeat' (first | (simp [ite_pending, *]; done) | split)
@[simp] theorem State.coldStart_memWf (s : State) (boot : BootFacts) :
    (s.coldStart boot).mem.wf = true := by
  unfold State.coldStart
  (try dsimp only)
  repeat' (first | (simp [ite_mem, *]; done) | split)
@[simp] theorem State.coldStart_holmMemWf (s : State) (boot : BootFacts) :
    (s.coldStart boot).holmMem.wf = true := by
  unfold State.coldStart
  (try dsimp only)
  repeat' (first | (simp [ite_holmMem, *]; done) | split)
@[simp] theorem State.warmResetOp_pending (ch : Channel) (boot : BootFacts) (s : State) :
    (s.warmResetOp ch boot).1.pending = s.pending := by simp [State.warmResetOp, ite_pending]
@[simp] theorem State.warmResetOp_holmMem (ch : Channel) (boot : BootFacts) (s : State) :
    (s.warmResetOp ch boot).1.holmMem = s.holmMem := by simp [State.warmResetOp, ite_holmMem]
@[simp] theorem State.warmResetOp_memWf (ch : Channel) (boot : BootFacts) (s : State) (hw : s.mem.wf = true) :
    (s.warmResetOp ch boot).1.mem.wf = true := by
  unfold State.warmResetOp
  (try dsimp only)
  repeat' (first | (simp [ite_mem, *]; done) | split)
@[simp] theorem State.holmRestartOp_pending (s : State) :
    (s.holmRestartOp).1.pending = s.pending := by simp [State.holmRestartOp]
@[simp] theorem State.holmRestartOp_mem (s : State) :
    (s.holmRestartOp).1.mem = s.mem := by simp [State.holmRestartOp]
@[simp] theorem State.holmRestartOp_holmMem (s : State) :
    (s.holmRestartOp).1.holmMem = s.holmMem := by simp [State.holmRestartOp]
@[simp] theorem State.boardRestartOp_pending (s : State) :
    (s.boardRestartOp).1.pending = s.pending := by simp [State.boardRestartOp]
@[simp] theorem State.boardRestartOp_mem (s : State) :
    (s.boardRestartOp).1.mem = s.mem := by simp [State.boardRestartOp]
@[simp] theorem State.boardRestartOp_holmMem (s : State) :
    (s.boardRestartOp).1.holmMem = s.holmMem := by simp [State.boardRestartOp]
@[simp] theorem State.bridgeRestartOp_pending (b : Nat) (s : State) :
    (s.bridgeRestartOp b).1.pending = s.pending := by
  unfold State.bridgeRestartOp
  (try dsimp only)
  repeat' (first | (simp [*]; done) | split)
@[simp] theorem State.bridgeRestartOp_mem (b : Nat) (s : State) :
    (s.bridgeRestartOp b).1.mem = s.mem := by
  unfold State.bridgeRestartOp
  (try dsimp only)
  repeat' (first | (simp [*]; done) | split)
@[simp] theorem State.bridgeRestartOp_holmMemWf (b : Nat) (s : State) (hw : s.holmMem.wf = true) :
    (s.bridgeRestartOp b).1.holmMem.wf = true := by
  unfold State.bridgeRestartOp
  (try dsimp only)
  repeat' (first | (simp [*]; done) | split)
@[simp] theorem State.stageBeginOp_pending (v : Nat) (s : State) :
    (s.stageBeginOp v).1.pending = s.pending := by rfl
@[simp] theorem State.stageBeginOp_mem (v : Nat) (s : State) :
    (s.stageBeginOp v).1.mem = s.mem := by rfl
@[simp] theorem State.stageBeginOp_holmMem (v : Nat) (s : State) :
    (s.stageBeginOp v).1.holmMem = s.holmMem := by rfl
@[simp] theorem State.stageDataOp_pending (b : List Byte) (s : State) :
    (s.stageDataOp b).1.pending = s.pending := by
  unfold State.stageDataOp
  (try dsimp only)
  repeat' (first | (simp [*]; done) | split)
@[simp] theorem State.stageDataOp_mem (b : List Byte) (s : State) :
    (s.stageDataOp b).1.mem = s.mem := by
  unfold State.stageDataOp
  (try dsimp only)
  repeat' (first | (simp [*]; done) | split)
@[simp] theorem State.stageDataOp_holmMem (b : List Byte) (s : State) :
    (s.stageDataOp b).1.holmMem = s.holmMem := by
  unfold State.stageDataOp
  (try dsimp only)
  repeat' (first | (simp [*]; done) | split)
@[simp] theorem State.stageEndOp_pending (s : State) :
    (s.stageEndOp).1.pending = s.pending := by
  unfold State.stageEndOp
  (try dsimp only)
  repeat' (first | (simp [*]; done) | split)
@[simp] theorem State.stageEndOp_mem (s : State) :
    (s.stageEndOp).1.mem = s.mem := by
  unfold State.stageEndOp
  (try dsimp only)
  repeat' (first | (simp [*]; done) | split)
@[simp] theorem State.stageEndOp_holmMem (s : State) :
    (s.stageEndOp).1.holmMem = s.holmMem := by
  unfold State.stageEndOp
  (try dsimp only)
  repeat' (first | (simp [*]; done) | split)
@[simp] theorem State.activateOp_pending (n : Nat) (s : State) :
    (s.activateOp n).1.pending = s.pending := by
  unfold State.activateOp
  (try dsimp only)
  repeat' (first | (simp [*]; done) | split)
@[simp] theorem State.activateOp_mem (n : Nat) (s : State) :
    (s.activateOp n).1.mem = s.mem := by
  unfold State.activateOp
  (try dsimp only)
  repeat' (first | (simp [*]; done) | split)
@[simp] theorem State.activateOp_holmMem (n : Nat) (s : State) :
    (s.activateOp n).1.holmMem = s.holmMem := by
  unfold State.activateOp
  (try dsimp only)
  repeat' (first | (simp [*]; done) | split)
@[simp] theorem State.confirm_pending (s : State) (cause : Nat) :
    (s.confirm cause).pending = s.pending := by
  unfold State.confirm
  (try dsimp only)
  repeat' (first | (simp [ite_pending, *]; done) | split)
@[simp] theorem State.confirm_mem (s : State) (cause : Nat) :
    (s.confirm cause).mem = s.mem := by
  unfold State.confirm
  (try dsimp only)
  repeat' (first | (simp [ite_mem, *]; done) | split)
@[simp] theorem State.confirm_holmMem (s : State) (cause : Nat) :
    (s.confirm cause).holmMem = s.holmMem := by
  unfold State.confirm
  (try dsimp only)
  repeat' (first | (simp [ite_holmMem, *]; done) | split)
@[simp] theorem State.confirmOp_pending (s : State) :
    (s.confirmOp).1.pending = s.pending := by simp [State.confirmOp]
@[simp] theorem State.confirmOp_mem (s : State) :
    (s.confirmOp).1.mem = s.mem := by simp [State.confirmOp]
@[simp] theorem State.confirmOp_holmMem (s : State) :
    (s.confirmOp).1.holmMem = s.holmMem := by simp [State.confirmOp]
@[simp] theorem State.commitOp_pending (s : State) :
    (s.commitOp).1.pending = s.pending := by
  unfold State.commitOp
  (try dsimp only)
  repeat' (first | (simp [*]; done) | split)
@[simp] theorem State.commitOp_mem (s : State) :
    (s.commitOp).1.mem = s.mem := by
  unfold State.commitOp
  (try dsimp only)
  repeat' (first | (simp [*]; done) | split)
@[simp] theorem State.commitOp_holmMem (s : State) :
    (s.commitOp).1.holmMem = s.holmMem := by
  unfold State.commitOp
  (try dsimp only)
  repeat' (first | (simp [*]; done) | split)
@[simp] theorem State.readMember_pending (ch : Channel) (idx sub : Nat) (s : State) :
    (s.readMember ch idx sub).1.pending = s.pending := by
  have h := State.challenge_pending s ch
  unfold State.readMember
  repeat' (first | (simp [*]; done) | split | simp_all)
@[simp] theorem State.readMember_mem (ch : Channel) (idx sub : Nat) (s : State) :
    (s.readMember ch idx sub).1.mem = s.mem := by
  have h := State.challenge_mem s ch
  unfold State.readMember
  repeat' (first | (simp [*]; done) | split | simp_all)
@[simp] theorem State.readMember_holmMem (ch : Channel) (idx sub : Nat) (s : State) :
    (s.readMember ch idx sub).1.holmMem = s.holmMem := by
  have h := State.challenge_holmMem s ch
  unfold State.readMember
  repeat' (first | (simp [*]; done) | split | simp_all)
@[simp] theorem State.readOp_pending (ch : Channel) (idx sub : Nat) (s : State) :
    (s.readOp ch idx sub).1.pending = s.pending := by
  have h := State.readMember_pending ch idx sub s
  unfold State.readOp
  split
  · split <;> simp_all
  · simp_all
@[simp] theorem State.readOp_mem (ch : Channel) (idx sub : Nat) (s : State) :
    (s.readOp ch idx sub).1.mem = s.mem := by
  have h := State.readMember_mem ch idx sub s
  unfold State.readOp
  split
  · split <;> simp_all
  · simp_all
@[simp] theorem State.readOp_holmMem (ch : Channel) (idx sub : Nat) (s : State) :
    (s.readOp ch idx sub).1.holmMem = s.holmMem := by
  have h := State.readMember_holmMem ch idx sub s
  unfold State.readOp
  split
  · split <;> simp_all
  · simp_all
@[simp] theorem State.segment_pending (ch : Channel) (idx sub offset count : Nat) (s : State) :
    (s.segment ch idx sub offset count).1.pending = s.pending := by
  unfold State.segment
  (try dsimp only)
  repeat' (first | (simp [*]; done) | split)
@[simp] theorem State.segment_mem (ch : Channel) (idx sub offset count : Nat) (s : State) :
    (s.segment ch idx sub offset count).1.mem = s.mem := by
  unfold State.segment
  (try dsimp only)
  repeat' (first | (simp [*]; done) | split)
@[simp] theorem State.segment_holmMem (ch : Channel) (idx sub offset count : Nat) (s : State) :
    (s.segment ch idx sub offset count).1.holmMem = s.holmMem := by
  unfold State.segment
  (try dsimp only)
  repeat' (first | (simp [*]; done) | split)
@[simp] theorem State.readBlockOp_pending (ch : Channel) (idx sub offset count : Nat) (s : State) :
    (s.readBlockOp ch idx sub offset count).1.pending = s.pending := by
  have h := State.readMember_pending ch idx sub s
  unfold State.readBlockOp
  repeat' (first | (simp [*]; done) | split | simp_all)
@[simp] theorem State.readBlockOp_mem (ch : Channel) (idx sub offset count : Nat) (s : State) :
    (s.readBlockOp ch idx sub offset count).1.mem = s.mem := by
  have h := State.readMember_mem ch idx sub s
  unfold State.readBlockOp
  repeat' (first | (simp [*]; done) | split | simp_all)
@[simp] theorem State.readBlockOp_holmMem (ch : Channel) (idx sub offset count : Nat) (s : State) :
    (s.readBlockOp ch idx sub offset count).1.holmMem = s.holmMem := by
  have h := State.readMember_holmMem ch idx sub s
  unfold State.readBlockOp
  repeat' (first | (simp [*]; done) | split | simp_all)
@[simp] theorem State.notifyOp_pending (ch : Channel) (taken : Nat) (s : State) :
    (s.notifyOp ch taken).1.pending = s.pending := by
  unfold State.notifyOp
  (try dsimp only)
  repeat' (first | (simp [*]; done) | split)
@[simp] theorem State.notifyOp_mem (ch : Channel) (taken : Nat) (s : State) :
    (s.notifyOp ch taken).1.mem = s.mem := by
  unfold State.notifyOp
  (try dsimp only)
  repeat' (first | (simp [*]; done) | split)
@[simp] theorem State.notifyOp_holmMem (ch : Channel) (taken : Nat) (s : State) :
    (s.notifyOp ch taken).1.holmMem = s.holmMem := by
  unfold State.notifyOp
  (try dsimp only)
  repeat' (first | (simp [*]; done) | split)
@[simp] theorem State.saveOp_pending (s : State) :
    (s.saveOp).1.pending = s.pending := by rfl
@[simp] theorem State.saveOp_mem (s : State) :
    (s.saveOp).1.mem = s.mem := by rfl
@[simp] theorem State.saveOp_holmMem (s : State) :
    (s.saveOp).1.holmMem = s.holmMem := by rfl
@[simp] theorem State.restoreOp_pending (s : State) :
    (s.restoreOp).1.pending = s.pending := by rfl
@[simp] theorem State.restoreOp_mem (s : State) :
    (s.restoreOp).1.mem = s.mem := by rfl
@[simp] theorem State.restoreOp_holmMem (s : State) :
    (s.restoreOp).1.holmMem = s.holmMem := by rfl
@[simp] theorem State.laneMoveOp_pending (v : Nat) (s : State) :
    (s.laneMoveOp v).1.pending = s.pending := by
  unfold State.laneMoveOp
  (try dsimp only)
  repeat' (first | (simp [*]; done) | split)
@[simp] theorem State.laneMoveOp_mem (v : Nat) (s : State) :
    (s.laneMoveOp v).1.mem = s.mem := by
  unfold State.laneMoveOp
  (try dsimp only)
  repeat' (first | (simp [*]; done) | split)
@[simp] theorem State.laneMoveOp_holmMem (v : Nat) (s : State) :
    (s.laneMoveOp v).1.holmMem = s.holmMem := by
  unfold State.laneMoveOp
  (try dsimp only)
  repeat' (first | (simp [*]; done) | split)
@[simp] theorem State.uartOut_pending (s : State) (p v : Nat) :
    (s.uartOut p v).pending = s.pending := by rfl
@[simp] theorem State.uartOut_mem (s : State) (p v : Nat) :
    (s.uartOut p v).mem = s.mem := by rfl
@[simp] theorem State.uartOut_holmMem (s : State) (p v : Nat) :
    (s.uartOut p v).holmMem = s.holmMem := by rfl
@[simp] theorem State.rxDma_pending (s : State) (p : Nat) (en : Bool) :
    (s.rxDma p en).pending = s.pending := by simp [State.rxDma, ite_pending]
@[simp] theorem State.rxDma_mem (s : State) (p : Nat) (en : Bool) :
    (s.rxDma p en).mem = s.mem := by simp [State.rxDma, ite_mem]
@[simp] theorem State.rxDma_holmMemWf (s : State) (p : Nat) (en : Bool) (hw : s.holmMem.wf = true) :
    (s.rxDma p en).holmMem.wf = true := by
  unfold State.rxDma
  (try dsimp only)
  repeat' (first | (simp [ite_holmMem, *]; done) | split)
@[simp] theorem State.ownerOp_pending (v : Nat) (s : State) :
    (s.ownerOp v).1.pending = s.pending := by
  unfold State.ownerOp
  (try dsimp only)
  repeat' (first | (simp [*]; done) | split)
@[simp] theorem State.ownerOp_mem (v : Nat) (s : State) :
    (s.ownerOp v).1.mem = s.mem := by
  unfold State.ownerOp
  (try dsimp only)
  repeat' (first | (simp [*]; done) | split)
@[simp] theorem State.ownerOp_holmMem (v : Nat) (s : State) :
    (s.ownerOp v).1.holmMem = s.holmMem := by
  unfold State.ownerOp
  (try dsimp only)
  repeat' (first | (simp [*]; done) | split)
@[simp] theorem State.baudOp_pending (v : Nat) (s : State) :
    (s.baudOp v).1.pending = s.pending := by rfl
@[simp] theorem State.baudOp_mem (v : Nat) (s : State) :
    (s.baudOp v).1.mem = s.mem := by rfl
@[simp] theorem State.baudOp_holmMem (v : Nat) (s : State) :
    (s.baudOp v).1.holmMem = s.holmMem := by rfl
@[simp] theorem State.afterWrite_pending (s : State) (idx sub v : Nat) :
    (s.afterWrite idx sub v).pending = s.pending := by simp [State.afterWrite, ite_pending]
@[simp] theorem State.afterWrite_mem (s : State) (idx sub v : Nat) :
    (s.afterWrite idx sub v).mem = s.mem := by simp [State.afterWrite, ite_mem]
@[simp] theorem State.afterWrite_holmMemWf (s : State) (idx sub v : Nat) (hw : s.holmMem.wf = true) :
    (s.afterWrite idx sub v).holmMem.wf = true := by
  unfold State.afterWrite
  (try dsimp only)
  repeat' (first | (simp [ite_holmMem, *]; done) | split)
@[simp] theorem State.writeThen_pending (s : State) (req : Req) (idx sub : Nat) (value : List Byte) (act : State → Performed)
    (hact : ∀ t, (act t).1.pending = t.pending) :
    (s.writeThen req idx sub value act).pending = s.pending := by
  unfold State.writeThen
  (try dsimp only)
  repeat' (first | (simp [ite_pending, *]; done) | split)
@[simp] theorem State.writeThen_mem (s : State) (req : Req) (idx sub : Nat) (value : List Byte) (act : State → Performed)
    (hact : ∀ t, (act t).1.mem = t.mem) :
    (s.writeThen req idx sub value act).mem = s.mem := by
  unfold State.writeThen
  (try dsimp only)
  repeat' (first | (simp [ite_mem, *]; done) | split)
@[simp] theorem State.writeThen_memWf (s : State) (req : Req) (idx sub : Nat) (value : List Byte) (act : State → Performed)
    (hact : ∀ t, t.mem.wf = true → (act t).1.mem.wf = true) (hw : s.mem.wf = true) :
    (s.writeThen req idx sub value act).mem.wf = true := by
  have h := State.rowWrite_memWf s req idx sub value act hact hw
  unfold State.writeThen
  dsimp only
  split
  · rw [State.afterWrite_mem]; exact h
  · exact h
@[simp] theorem State.writeThen_holmMemWf (s : State) (req : Req) (idx sub : Nat) (value : List Byte) (act : State → Performed)
    (hact : ∀ t, t.holmMem.wf = true → (act t).1.holmMem.wf = true) (hw : s.holmMem.wf = true) :
    (s.writeThen req idx sub value act).holmMem.wf = true := by
  have h := State.rowWrite_holmMemWf s req idx sub value act hact hw
  unfold State.writeThen
  dsimp only
  split
  · exact State.afterWrite_holmMemWf _ _ _ _ h
  · exact h
@[simp] theorem State.writeRxCtrl_pending (s : State) (p v : Nat) :
    (s.writeRxCtrl p v).pending = s.pending := by simp [State.writeRxCtrl, ite_pending]
@[simp] theorem State.writeRxCtrl_mem (s : State) (p v : Nat) :
    (s.writeRxCtrl p v).mem = s.mem := by simp [State.writeRxCtrl, ite_mem]
@[simp] theorem State.writeRxCtrl_holmMemWf (s : State) (p v : Nat) (hw : s.holmMem.wf = true) :
    (s.writeRxCtrl p v).holmMem.wf = true := by
  unfold State.writeRxCtrl
  (try dsimp only)
  repeat' (first | (simp [ite_holmMem, *]; done) | split)
@[simp] theorem State.uartWrite_pending (s : State) (p off v : Nat) :
    (s.uartWrite p off v).pending = s.pending := by
  unfold State.uartWrite
  (try dsimp only)
  repeat' (first | (simp [*]; done) | split)
@[simp] theorem State.uartWrite_mem (s : State) (p off v : Nat) :
    (s.uartWrite p off v).mem = s.mem := by
  unfold State.uartWrite
  (try dsimp only)
  repeat' (first | (simp [*]; done) | split)
@[simp] theorem State.uartWrite_holmMemWf (s : State) (p off v : Nat) (hw : s.holmMem.wf = true) :
    (s.uartWrite p off v).holmMem.wf = true := by
  unfold State.uartWrite
  (try dsimp only)
  repeat' (first | (simp [*]; done) | split)
@[simp] theorem State.pointOp_pending (n sub : Nat) (b : List Byte) (s : State) :
    (s.pointOp n sub b).1.pending = s.pending := by
  unfold State.pointOp
  (try dsimp only)
  repeat' (first | (simp [*]; done) | split)
@[simp] theorem State.pointOp_mem (n sub : Nat) (b : List Byte) (s : State) :
    (s.pointOp n sub b).1.mem = s.mem := by
  unfold State.pointOp
  (try dsimp only)
  repeat' (first | (simp [*]; done) | split)
@[simp] theorem State.pointOp_holmMem (n sub : Nat) (b : List Byte) (s : State) :
    (s.pointOp n sub b).1.holmMem = s.holmMem := by
  unfold State.pointOp
  (try dsimp only)
  repeat' (first | (simp [*]; done) | split)
@[simp] theorem State.armOp_pending (ch : Channel) (s : State) :
    (s.armOp ch).1.pending = s.pending := by
  unfold State.armOp
  (try dsimp only)
  repeat' (first | (simp [*]; done) | split)
@[simp] theorem State.armOp_mem (ch : Channel) (s : State) :
    (s.armOp ch).1.mem = s.mem := by
  unfold State.armOp
  (try dsimp only)
  repeat' (first | (simp [*]; done) | split)
@[simp] theorem State.armOp_holmMem (ch : Channel) (s : State) :
    (s.armOp ch).1.holmMem = s.holmMem := by
  unfold State.armOp
  (try dsimp only)
  repeat' (first | (simp [*]; done) | split)
@[simp] theorem State.disarmOp_pending (s : State) :
    (s.disarmOp).1.pending = s.pending := by simp [State.disarmOp]
@[simp] theorem State.disarmOp_mem (s : State) :
    (s.disarmOp).1.mem = s.mem := by simp [State.disarmOp]
@[simp] theorem State.disarmOp_holmMem (s : State) :
    (s.disarmOp).1.holmMem = s.holmMem := by simp [State.disarmOp]
@[simp] theorem State.loopLink_pending (s : State) (target inst : Nat) :
    (s.loopLink target inst).pending = s.pending := by simp [State.loopLink, ite_pending]
@[simp] theorem State.loopLink_mem (s : State) (target inst : Nat) :
    (s.loopLink target inst).mem = s.mem := by simp [State.loopLink, ite_mem]
@[simp] theorem State.loopLink_holmMem (s : State) (target inst : Nat) :
    (s.loopLink target inst).holmMem = s.holmMem := by simp [State.loopLink, ite_holmMem]
@[simp] theorem State.startLoop_pending (s : State) (target inst mode : Nat) :
    (s.startLoop target inst mode).pending = s.pending := by simp [State.startLoop]
@[simp] theorem State.startLoop_mem (s : State) (target inst mode : Nat) :
    (s.startLoop target inst mode).mem = s.mem := by simp [State.startLoop]
@[simp] theorem State.startLoop_holmMem (s : State) (target inst mode : Nat) :
    (s.startLoop target inst mode).holmMem = s.holmMem := by simp [State.startLoop]
@[simp] theorem State.endLoop_pending (s : State) (target inst bits errors : Nat) :
    (s.endLoop target inst bits errors).pending = s.pending := by simp [State.endLoop]
@[simp] theorem State.endLoop_mem (s : State) (target inst bits errors : Nat) :
    (s.endLoop target inst bits errors).mem = s.mem := by simp [State.endLoop]
@[simp] theorem State.endLoop_holmMem (s : State) (target inst bits errors : Nat) :
    (s.endLoop target inst bits errors).holmMem = s.holmMem := by simp [State.endLoop]
@[simp] theorem State.loopOp_pending (idx target inst v : Nat) (busy : Bool) (s : State) :
    (s.loopOp idx target inst v busy).1.pending = s.pending := by
  unfold State.loopOp
  (try dsimp only)
  repeat' (first | (simp [*]; done) | split)
@[simp] theorem State.loopOp_mem (idx target inst v : Nat) (busy : Bool) (s : State) :
    (s.loopOp idx target inst v busy).1.mem = s.mem := by
  unfold State.loopOp
  (try dsimp only)
  repeat' (first | (simp [*]; done) | split)
@[simp] theorem State.loopOp_holmMem (idx target inst v : Nat) (busy : Bool) (s : State) :
    (s.loopOp idx target inst v busy).1.holmMem = s.holmMem := by
  unfold State.loopOp
  (try dsimp only)
  repeat' (first | (simp [*]; done) | split)
@[simp] theorem State.straitLoopOp_pending (port v : Nat) (s : State) :
    (s.straitLoopOp port v).1.pending = s.pending := by simp [State.straitLoopOp]
@[simp] theorem State.straitLoopOp_mem (port v : Nat) (s : State) :
    (s.straitLoopOp port v).1.mem = s.mem := by simp [State.straitLoopOp]
@[simp] theorem State.straitLoopOp_holmMem (port v : Nat) (s : State) :
    (s.straitLoopOp port v).1.holmMem = s.holmMem := by simp [State.straitLoopOp]
@[simp] theorem State.shoreLoopOp_pending (b v : Nat) (s : State) :
    (s.shoreLoopOp b v).1.pending = s.pending := by simp [State.shoreLoopOp]
@[simp] theorem State.shoreLoopOp_mem (b v : Nat) (s : State) :
    (s.shoreLoopOp b v).1.mem = s.mem := by simp [State.shoreLoopOp]
@[simp] theorem State.shoreLoopOp_holmMem (b v : Nat) (s : State) :
    (s.shoreLoopOp b v).1.holmMem = s.holmMem := by simp [State.shoreLoopOp]
@[simp] theorem State.soundLoopOp_pending (n v : Nat) (s : State) :
    (s.soundLoopOp n v).1.pending = s.pending := by simp [State.soundLoopOp]
@[simp] theorem State.soundLoopOp_mem (n v : Nat) (s : State) :
    (s.soundLoopOp n v).1.mem = s.mem := by simp [State.soundLoopOp]
@[simp] theorem State.soundLoopOp_holmMem (n v : Nat) (s : State) :
    (s.soundLoopOp n v).1.holmMem = s.holmMem := by simp [State.soundLoopOp]
@[simp] theorem State.locateOp_pending (v : Nat) (s : State) :
    (s.locateOp v).1.pending = s.pending := by rfl
@[simp] theorem State.locateOp_mem (v : Nat) (s : State) :
    (s.locateOp v).1.mem = s.mem := by rfl
@[simp] theorem State.locateOp_holmMem (v : Nat) (s : State) :
    (s.locateOp v).1.holmMem = s.holmMem := by rfl
@[simp] theorem State.lampTestOp_pending (s : State) :
    (s.lampTestOp).1.pending = s.pending := by rfl
@[simp] theorem State.lampTestOp_mem (s : State) :
    (s.lampTestOp).1.mem = s.mem := by rfl
@[simp] theorem State.lampTestOp_holmMem (s : State) :
    (s.lampTestOp).1.holmMem = s.holmMem := by rfl
@[simp] theorem State.waferOp_pending (ch : Channel) (v : Nat) (s : State) :
    (s.waferOp ch v).1.pending = s.pending := by
  unfold State.waferOp
  (try dsimp only)
  repeat' (first | (simp [*]; done) | split)
@[simp] theorem State.waferOp_memWf (ch : Channel) (v : Nat) (s : State) (hw : s.mem.wf = true) :
    (s.waferOp ch v).1.mem.wf = true := by
  unfold State.waferOp
  (try dsimp only)
  repeat' (first | (simp [*]; done) | split)
@[simp] theorem State.waferOp_holmMemWf (ch : Channel) (v : Nat) (s : State) (hw : s.holmMem.wf = true) :
    (s.waferOp ch v).1.holmMem.wf = true := by
  unfold State.waferOp
  (try dsimp only)
  repeat' (first | (simp [*]; done) | split)
@[simp] theorem State.resetOp_pending (ch : Channel) (sub : Nat) (s : State) :
    (s.resetOp ch sub).1.pending = s.pending := by
  unfold State.resetOp
  (try dsimp only)
  repeat' (first | (simp [*]; done) | split)
@[simp] theorem State.resetOp_memWf (ch : Channel) (sub : Nat) (s : State) (hw : s.mem.wf = true) :
    (s.resetOp ch sub).1.mem.wf = true := by
  unfold State.resetOp
  (try dsimp only)
  repeat' (first | (simp [*]; done) | split)
@[simp] theorem State.resetOp_holmMemWf (ch : Channel) (sub : Nat) (s : State) (hw : s.holmMem.wf = true) :
    (s.resetOp ch sub).1.holmMem.wf = true := by
  unfold State.resetOp
  (try dsimp only)
  repeat' (first | (simp [*]; done) | split)
@[simp] theorem State.serviceOp_pending (i v : Nat) (s : State) :
    (State.serviceOp i v s).1.pending = s.pending := by
  unfold State.serviceOp
  repeat' (first | (simp [*]; done) | split)
@[simp] theorem State.serviceOp_mem (i v : Nat) (s : State) :
    (State.serviceOp i v s).1.mem = s.mem := by
  unfold State.serviceOp
  repeat' (first | (simp [*]; done) | split)
@[simp] theorem State.serviceOp_holmMem (i v : Nat) (s : State) :
    (State.serviceOp i v s).1.holmMem = s.holmMem := by
  unfold State.serviceOp
  repeat' (first | (simp [*]; done) | split)
@[simp] theorem State.ownWrite_pending (ch : Channel) (idx sub : Nat) (b : List Byte) (s : State) :
    (s.ownWrite ch idx sub b).1.pending = s.pending := by
  unfold State.ownWrite
  (try dsimp only)
  repeat' (first | (simp [*]; done) | split)
@[simp] theorem State.ownWrite_memWf (ch : Channel) (idx sub : Nat) (b : List Byte) (s : State) (hw : s.mem.wf = true) :
    (s.ownWrite ch idx sub b).1.mem.wf = true := by
  unfold State.ownWrite
  (try dsimp only)
  repeat' (first | (simp [*]; done) | split)
@[simp] theorem State.ownWrite_holmMemWf (ch : Channel) (idx sub : Nat) (b : List Byte) (s : State) (hw : s.holmMem.wf = true) :
    (s.ownWrite ch idx sub b).1.holmMem.wf = true := by
  unfold State.ownWrite
  (try dsimp only)
  repeat' (first | (simp [*]; done) | split)
@[simp] theorem State.applyWrite_pending (ch : Channel) (idx sub : Nat) (b : List Byte) (s : State) :
    (s.applyWrite ch idx sub b).1.pending = s.pending := by
  unfold State.applyWrite
  (try dsimp only)
  repeat' (first | (simp [*]; done) | split)
@[simp] theorem State.applyWrite_memWf (ch : Channel) (idx sub : Nat) (b : List Byte) (s : State) (hw : s.mem.wf = true) :
    (s.applyWrite ch idx sub b).1.mem.wf = true := by
  unfold State.applyWrite
  (try dsimp only)
  repeat' (first | (simp [*]; done) | split)
@[simp] theorem State.applyWrite_holmMemWf (ch : Channel) (idx sub : Nat) (b : List Byte) (s : State) (hw : s.holmMem.wf = true) :
    (s.applyWrite ch idx sub b).1.holmMem.wf = true := by
  unfold State.applyWrite
  (try dsimp only)
  repeat' (first | (simp [*]; done) | split)
@[simp] theorem State.setBlock_pending (s : State) (ch : Channel) (b : Option Block) :
    (s.setBlock ch b).pending = s.pending := by rfl
@[simp] theorem State.setBlock_mem (s : State) (ch : Channel) (b : Option Block) :
    (s.setBlock ch b).mem = s.mem := by rfl
@[simp] theorem State.setBlock_holmMem (s : State) (ch : Channel) (b : Option Block) :
    (s.setBlock ch b).holmMem = s.holmMem := by rfl
@[simp] theorem State.writeBlockOp_pending (ch : Channel) (idx sub offset bflags : Nat) (data : List Byte) (s : State) :
    (s.writeBlockOp ch idx sub offset bflags data).1.pending = s.pending := by
  unfold State.writeBlockOp
  (try dsimp only)
  repeat' (first | (simp [*]; done) | split)
@[simp] theorem State.writeBlockOp_memWf (ch : Channel) (idx sub offset bflags : Nat) (data : List Byte) (s : State) (hw : s.mem.wf = true) :
    (s.writeBlockOp ch idx sub offset bflags data).1.mem.wf = true := by
  unfold State.writeBlockOp
  split
  · exact hw
  · split
    · simp [hw]
    · simp [hw]
    · split
      · simp [hw]
      · split
        · simp [hw]
        · exact State.tryWrite_memWf _ _ _ _ _ _ (fun t ht => State.applyWrite_memWf _ _ _ _ _ ht) (by simp [hw])
@[simp] theorem State.writeBlockOp_holmMemWf (ch : Channel) (idx sub offset bflags : Nat) (data : List Byte) (s : State) (hw : s.holmMem.wf = true) :
    (s.writeBlockOp ch idx sub offset bflags data).1.holmMem.wf = true := by
  unfold State.writeBlockOp
  split
  · exact hw
  · split
    · simp [hw]
    · simp [hw]
    · split
      · simp [hw]
      · split
        · simp [hw]
        · exact State.tryWrite_holmMemWf _ _ _ _ _ _ (fun t ht => State.applyWrite_holmMemWf _ _ _ _ _ ht) (by simp [hw])
@[simp] theorem State.unmask_pending (s : State) (k v : Nat) :
    (s.unmask k v).pending = s.pending := by simp [State.unmask, ite_pending]
@[simp] theorem State.unmask_mem (s : State) (k v : Nat) :
    (s.unmask k v).mem = s.mem := by simp [State.unmask, ite_mem]
@[simp] theorem State.unmask_holmMem (s : State) (k v : Nat) :
    (s.unmask k v).holmMem = s.holmMem := by simp [State.unmask, ite_holmMem]
@[simp] theorem State.bar0Write_pending (s : State) (fn : FnId) (o v : Nat) :
    (s.bar0Write fn o v).pending = s.pending := by
  unfold State.bar0Write
  (try dsimp only)
  repeat' (first | (simp [ite_pending, *]; done) | split)
@[simp] theorem State.bar0Write_mem (s : State) (fn : FnId) (o v : Nat) :
    (s.bar0Write fn o v).mem = s.mem := by
  unfold State.bar0Write
  (try dsimp only)
  repeat' (first | (simp [ite_mem, *]; done) | split)
@[simp] theorem State.bar0Write_holmMemWf (s : State) (fn : FnId) (o v : Nat) (hw : s.holmMem.wf = true) :
    (s.bar0Write fn o v).holmMem.wf = true := by
  unfold State.bar0Write
  (try dsimp only)
  repeat' (first | (simp [ite_holmMem, *]; done) | split)
@[simp] theorem tick_pending (s : State) :
    (tick s).pending = s.pending := by simp [tick, ite_pending]
@[simp] theorem tick_mem (s : State) :
    (tick s).mem = s.mem := by simp [tick, ite_mem]
@[simp] theorem tick_holmMem (s : State) :
    (tick s).holmMem = s.holmMem := by simp [tick, ite_holmMem]

end Sys2Proof.Machine
end

