-- ==== Sys2Proof/Laws/Dictionary.lean ====
section
/-! SUPPORT. What an accepted WRITE of a row does, said once (R316, R325 to R329). -/

namespace Sys2Proof.Machine

/-- The reply goes into the channel, and out of N0 or into the mailbox. -/
theorem State.answerReq_only (s : State) (req : Req) (fn : Nat) (r : Reply) :
    s.answerReq req fn r =
      { s with dict := (s.answerReq req fn r).dict, fns := (s.answerReq req fn r).fns, out := (s.answerReq req fn r).out } := by
  unfold State.answerReq State.vector
  cases req.ch
  · rfl
  · dsimp only
    split <;> rfl

@[simp] theorem State.answerReq_answer (s : State) (req : Req) (fn : Nat) (r : Reply) :
    ((s.answerReq req fn r).chan req.ch.num).answer = some r := by
  unfold State.answerReq
  dsimp only
  cases req.ch <;> simp only [State.vector] <;> (repeat' split) <;> simp [State.chan, State.updChan, State.updFn]

@[simp] theorem State.answerReq_stored (s : State) (req : Req) (fn : Nat) (r : Reply) :
    ((s.answerReq req fn r).chan req.ch.num).stored = (s.chan req.ch.num).stored := by
  unfold State.answerReq
  dsimp only
  cases req.ch <;> simp only [State.vector] <;> (repeat' split) <;> simp [State.chan, State.updChan, State.updFn]

/-- A request that is heard, is no broadcast and repeats nothing, with the server ready: it is performed, stored and answered. -/
theorem serve_fresh (s : State) (req : Req) (fn idx sub : Nat) (args : List Byte) (perform : State → Performed) (hb : req.broadcast = false)
    (hp : s.performs req fn idx sub args = true) :
    s.serve req fn idx sub args perform =
      let p := perform s
      let reply := match p.2 with
        | .ok b => ⟨false, b⟩
        | .error e => errorReply e idx sub
      (p.1.updChan req.ch.num fun c => { c with
        stored := some ⟨req.seq, fn, idx, sub, reply⟩
        performed := if reply.error then c.performed else satAdd 32 c.performed 1
        errors := if reply.error then satAdd 32 c.errors 1 else c.errors }).answerReq req fn reply := by
  simp only [State.performs, hb, Bool.and_eq_true, Bool.false_eq_true, if_false, Bool.not_eq_true'] at hp
  obtain ⟨⟨⟨hh, hk⟩, hr⟩, hn⟩ := hp
  have hf : (s.chan req.ch.num).stored.filter
      (fun q => q.seq == req.seq && q.fn == fn && q.index == idx && q.sub == sub) = none := by
    cases e : (s.chan req.ch.num).stored with
    | none => rfl
    | some q =>
      rw [e] at hn
      simp only [Option.any_some] at hn
      simp [Option.filter, hn]
  unfold State.serve
  simp only [hh, hk, hb, hr, Bool.not_true, Bool.or_self, Bool.false_eq_true, if_false]
  split
  · next q e => exact absurd (hf.symm.trans e) (by simp)
  · rfl

/-- An accepted write is its row's effect. -/
theorem tryWrite_accepted (ch : Channel) (idx sub : Nat) (b : List Byte) (act : State → Performed) (s : State)
    (h : s.checkWrite ch idx sub b = none) : State.tryWrite ch idx sub b act s = act s := by
  unfold State.tryWrite
  rw [h]

/-- An accepted write whose row does its effect: the state after it, stored and answered with an empty reply. -/
theorem rowWrite_done (s t : State) (req : Req) (idx sub : Nat) (value : List Byte) (act : State → Performed)
    (h : Accepted s req idx sub value) (ha : act s = (t, .ok [])) :
    s.rowWrite req idx sub value act =
      ((t.updChan req.ch.num fun c => { c with
        stored := some ⟨req.seq, 2, idx, sub, ⟨false, []⟩⟩, performed := satAdd 32 c.performed 1 }).answerReq req 2 ⟨false, []⟩, true) := by
  obtain ⟨⟨hb, hp⟩, hc⟩ := h
  unfold State.rowWrite
  rw [serve_fresh s req 2 idx sub value _ hb hp, tryWrite_accepted _ _ _ _ _ _ hc, ha]
  simp [hp, Performed.ok]

/-- An accepted write that its row refuses with an error code. -/
theorem rowWrite_refused (s t : State) (req : Req) (idx sub : Nat) (value : List Byte) (act : State → Performed) (e : Nat)
    (h : Accepted s req idx sub value) (ha : act s = (t, .error e)) :
    s.rowWrite req idx sub value act =
      ((t.updChan req.ch.num fun c => { c with
        stored := some ⟨req.seq, 2, idx, sub, errorReply e idx sub⟩, errors := satAdd 32 c.errors 1 }).answerReq req 2
          (errorReply e idx sub), false) := by
  obtain ⟨⟨hb, hp⟩, hc⟩ := h
  unfold State.rowWrite
  rw [serve_fresh s req 2 idx sub value _ hb hp, tryWrite_accepted _ _ _ _ _ _ hc, ha]
  simp [errorReply, Performed.ok]

/-- The reply of an accepted write whose row does its effect. -/
theorem rowWrite_answers (s t : State) (req : Req) (idx sub : Nat) (value : List Byte) (act : State → Performed)
    (h : Accepted s req idx sub value) (ha : act s = (t, .ok [])) : Done (s.rowWrite req idx sub value act).1 req idx sub := by
  rw [rowWrite_done s t req idx sub value act h ha]
  exact ⟨State.answerReq_answer _ _ _ _, by rw [State.answerReq_stored]; simp⟩

end Sys2Proof.Machine
end

