-- ==== Sys2Proof/Laws/Hash.lean ====
section
/-! SUPPORT. Lengths of digests. -/

namespace Sys2Proof.Machine

theorem Sha.round_length (h : Sha) {v : List Nat} (k w : Nat) (hv : v.length = 8) : (h.round v k w).length = 8 := by
  match v, hv with
  | [_, _, _, _, _, _, _, _], _ => rfl

theorem Sha.compress_length (h : Sha) (ks win : List Nat) {v : List Nat} (hv : v.length = 8) : (h.compress ks win v).length = 8 := by
  induction ks generalizing win v with
  | nil => exact hv
  | cons k ks ih => exact ih _ (h.round_length _ _ hv)

theorem length_beBytes (n v : Nat) : (beBytes n v).length = n := by simp [beBytes]

theorem Sha.fold_length (h : Sha) (bs : List (List Byte)) {v : List Nat} (hv : v.length = 8) :
    (bs.foldl (fun v b =>
      let win := (List.range 16).map fun i => ofBe (slice b (i * (h.w / 8)) (h.w / 8))
      (v.zip (h.compress h.consts win v)).map fun xy => h.add [xy.1, xy.2]) v).length = 8 := by
  induction bs generalizing v with
  | nil => exact hv
  | cons b bs ih =>
    refine ih ?_
    simp [hv, h.compress_length h.consts _ hv]

theorem flatMap_length {α β : Type} (f : α → List β) (k : Nat) (l : List α) (hf : ∀ a, (f a).length = k) :
    (l.flatMap f).length = l.length * k := by
  induction l with
  | nil => simp
  | cons a l ih => simp [ih, hf, Nat.succ_mul, Nat.add_comm]

theorem sha256_length (m : List Byte) : (sha256 m).length = 32 := by
  have init : ((primes.take 8).map (rootFrac 32 2)).length = 8 := by rw [List.length_map]; decide +kernel
  simp only [sha256, Sha.digest, List.length_take]
  rw [flatMap_length _ (sha256Of.w / 8) _ (fun a => length_beBytes _ a), Sha.fold_length sha256Of _ init]
  decide

/-- A response of the handshake has 32 bytes. -/
theorem hmac256_length (key m : List Byte) : (hmac256 key m).length = 32 := sha256_length _

end Sys2Proof.Machine
end

