-- ==== Sys2Proof/Laws/Records.lean ====
section
/-! SUPPORT. Everything that an event can change (R370, R376 to R378, R444), and a halt (R49). -/

namespace Sys2Proof.Machine

/-- What records reach: the recorder, the notification queues, the event queues, and the events held while the Holm restarts. -/
def OnlyRecords (s t : State) : Prop := t = { s with recd := t.recd, dict := t.dict, fns := t.fns, boot := t.boot }

theorem OnlyRecords.refl (s : State) : OnlyRecords s s := rfl

theorem OnlyRecords.trans {s t u : State} (h : OnlyRecords s t) (k : OnlyRecords t u) : OnlyRecords s u := by
  unfold OnlyRecords at *
  rw [k, h]

theorem OnlyRecords.foldl {α : Type} {f : State → α → State} (h : ∀ s a, OnlyRecords s (f s a)) (l : List α) (s : State) :
    OnlyRecords s (l.foldl f s) := by
  induction l generalizing s with
  | nil => exact .refl s
  | cons a l ih => exact (h s a).trans (ih _)

theorem State.offer_only (s : State) (dest : Nat) (r : Rec) (take : State → State) (h : ∀ t, OnlyRecords t (take t)) :
    OnlyRecords s (s.offer dest r take) := by
  unfold State.offer
  dsimp only
  split
  · exact OnlyRecords.trans (t := { s with recd := _ }) rfl (h _)
  · rfl

theorem State.toFn_only (s : State) (k : Nat) (r : Rec) : OnlyRecords s (s.toFn k r) := rfl
theorem State.toChan_only (s : State) (n : Nat) (r : Rec) : OnlyRecords s (s.toChan n r) := rfl
theorem State.toConsole_only (s : State) (r : Rec) : OnlyRecords s (s.toConsole r) := rfl
theorem State.toStore_only (s : State) (r : Rec) : OnlyRecords s (s.toStore r) := rfl

theorem State.offerFns_only (s : State) (r : Rec) : OnlyRecords s (s.offerFns r) := by
  unfold State.offerFns
  split
  · exact State.offer_only _ _ _ _ fun t => t.toFn_only _ _
  · refine OnlyRecords.foldl (fun s k => ?_) _ _
    split
    · exact State.offer_only _ _ _ _ fun t => t.toFn_only _ _
    · exact .refl _

theorem State.offerChans_only (s : State) (r : Rec) : OnlyRecords s (s.offerChans r) := by
  unfold State.offerChans
  split
  · exact .refl _
  · refine OnlyRecords.foldl (fun s n => ?_) _ _
    split
    · exact State.offer_only _ _ _ _ fun t => t.toChan_only _ _
    · exact .refl _

theorem State.deliver_only (s : State) (r : Rec) : OnlyRecords s (s.deliver r) := by
  unfold State.deliver
  dsimp only
  refine ((s.offerFns_only r).trans (State.offerChans_only _ r)).trans ?_
  generalize (s.offerFns r).offerChans r = t
  have h : OnlyRecords t (if (t.obj 0x9000 2 = 0 && decide (t.obj 0x9005 3 ≤ r.severity)) = true then
      t.offer destConsole r (·.toConsole r) else t) := by
    split
    · exact State.offer_only _ _ _ _ fun t => t.toConsole_only _
    · exact .refl _
  split
  · exact h.trans (State.offer_only _ _ _ _ fun t => t.toStore_only _)
  · exact h

theorem State.occur_only (s : State) (r : Rec) : OnlyRecords s (s.occur r) := by
  unfold State.occur
  dsimp only
  split
  · exact (s.deliver_only r).trans rfl
  · split
    · exact (s.deliver_only _).trans rfl
    · rfl

theorem State.holdEvent_only (s : State) (r : Rec) : OnlyRecords s (s.holdEvent r) := by
  unfold State.holdEvent
  dsimp only
  split
  · rfl
  · split <;> rfl

/-- An event reaches the recorder and its queues, and changes nothing else of the machine. -/
theorem State.emit_only (s : State) (code sev : Nat) (src : Source) (job : Option Nat) (vals : List Nat) :
    OnlyRecords s (s.emit code sev src job vals) := by
  unfold State.emit
  dsimp only
  split
  · exact s.holdEvent_only _
  · split
    · exact s.occur_only _
    · exact .refl _

/-- With no recorder running, an event forms no record. -/
theorem State.emit_silent (s : State) (code sev : Nat) (src : Source) (job : Option Nat) (vals : List Nat)
    (hr : s.boot.restarting = false) (hu : s.boot.holmUp = false ∨ s.boot.recovery = true) : s.emit code sev src job vals = s := by
  unfold State.emit
  rcases hu with h | h <;> simp [hr, h]

/-- A halt marks the run of the job, and discards what the reduce adders hold of it. -/
theorem State.haltJob_only (s : State) (c code : Nat) :
    s.haltJob c code = { s with ctxs := (s.haltJob c code).ctxs, adders := (s.haltJob c code).adders } := by
  unfold State.haltJob
  split <;> rfl

/-- The run that a halt leaves. -/
theorem State.haltJob_run (s : State) (c code : Nat) (r : Run) (h : s.activeRun c = some r) :
    ((s.haltJob c code).ctx c).run = some { r with halted := some code } := by
  unfold State.haltJob
  rw [h]
  have hr : (s.ctx c).run = some r := by
    unfold State.activeRun at h
    split at h
    · next r' e => split at h <;> simp_all
    · simp at h
  simp only [State.ctx] at hr
  simp only [State.dropReduces, State.updRun, State.updCtx, State.ctx, Table.get_upd_same, hr, Option.map_some]

end Sys2Proof.Machine
end

