-- ==== Sys2Proof/Tests/Slice0.lean ====
section
/-! SUPPORT. Tests of the model: ill-formed commands, single commands on small states, and states that meet the hypotheses of the
statements of Certificates/Slice0/Obligations.lean (theorems named witness_…). -/

namespace Sys2Proof.Tests

set_option Elab.async false

open Machine

/-! ### Ill-formed commands: one for each check of WellFormed.lean -/

def ch0 : Req := ⟨.n0, true, false⟩
def hdr (len : BitVec 16) (addr : Word) : ReqHeader := ⟨⟨1, 0, 1⟩, 0, 1, addr, len⟩
def allOk : RetestOutcome := ⟨0, true, 0xF, 0xFFFF, BitVec.allOnes 64, true, 0, [], 0⟩

theorem test_refuses_strand_1600 : (Instr.nop 0 1600).wellFormed = false ∧ (Instr.nop 0 1599).wellFormed = true := by decide
theorem test_refuses_zero_denominator : (Instr.paceWindowClose 0 1 0).wellFormed = false := by decide
theorem test_refuses_stint_twice :
    (Instr.stintGrant ⟨0, 0⟩ [⟨1, 0⟩, ⟨1, 0⟩]).wellFormed = false ∧ (Instr.stintGrant ⟨0, 0⟩ []).wellFormed = false := by decide
theorem test_refuses_failure_twice : (Instr.leaseClearDone 0 [⟨0, 1, 3⟩, ⟨0, 1, 3⟩]).wellFormed = false := by decide
theorem test_refuses_short_contribution : (Instr.reduceContribution 0 ⟨0, 2⟩ ⟨0, 0, 1, false, 0, 1, [5]⟩).wellFormed = false := by decide
theorem test_refuses_wide_lane :
    (Instr.reduceContribution 0 ⟨0, 2⟩ ⟨0, 0, 1, false, 1, 1, List.replicate 32 0x10000⟩).wellFormed = false := by decide
theorem test_refuses_request_over_4KiB :
    (Instr.straitRead 0 (hdr 64 0xFF0)).wellFormed = false ∧ (Instr.straitRead 0 (hdr 64 0xFC0)).wellFormed = true := by decide
theorem test_refuses_short_entry : (Instr.entryFetch 0 (.data [0])).wellFormed = false ∧ (Instr.entryFetch 0 .failed).wellFormed = true := by
  decide
theorem test_refuses_empty_bar2_read : (Instr.bar2Access ⟨0, 0⟩ 0 0 0 (.read 0)).wellFormed = false := by decide
theorem test_refuses_four_attempts :
    (Instr.coldPowerUp ⟨[], true, [⟨0, [allOk, allOk, allOk, allOk]⟩], [], 25⟩).wellFormed = false ∧
    (Instr.coldPowerUp ⟨[], true, [⟨0, [allOk]⟩, ⟨0, [allOk]⟩], [], 25⟩).wellFormed = false := by decide
theorem test_refuses_long_value : (Instr.save ch0 (List.replicate 238 0)).wellFormed = false := by decide +kernel
theorem test_refuses_long_block : (Instr.writeBlock ch0 ⟨0x5010, 1⟩ 0 0 (List.replicate 233 0)).wellFormed = false := by decide +kernel
theorem test_refuses_more_errors_than_bits : (Instr.loopbackDurationExpiry 3 4).wellFormed = false := by decide
theorem test_refuses_long_lane_number : (Instr.soundLaneSteering 0 65536 0 true).wellFormed = false := by decide
theorem test_refuses_activity_zero : (Instr.backgroundOverdue 0 0 0 0).wellFormed = false := by decide
theorem test_refuses_empty_read_data : (Instr.completionReadData 0 0 []).wellFormed = false := by decide

/-! ### One command on a small state -/

/-- The unit before its first power-up, its 64 isles licensed. -/
def fresh : State := {}

/-- The command answers a next state, of which `p` holds. -/
def after (c : Instr) (s : State) (p : State → Bool) : Bool := match exec c s with
  | .next t => p t
  | _ => false

def c0 : CoreId := ⟨0, 0⟩
/-- Reset, with the registers of core 0 of isle 0. -/
def atCore (x : CoreSt) : State := { fresh with cores := ({} : Table CoreSt).put 0 x }
def regs (l : List Word) : Table Word := Table.ofList 1 l

/-- The words of the formats of 05, Table 4. -/
def wA (major fn : Nat) (f : FmtA) : Nat := (((major * 32 + f.d.toNat) * 32 + f.a.toNat) * 32 + f.b.toNat) * 2048 + fn
def wI (major : Nat) (f : FmtI) : Nat := ((major * 32 + f.d.toNat) * 32 + f.a.toNat) * 65536 + f.imm.toNat
def wM (major : Nat) (f : FmtM) : Nat :=
  ((((major * 32 + f.d.toNat) * 32 + f.a.toNat) * 4 + f.size.toNat) * 2 + if f.sx then 1 else 0) * 8192 + f.imm.toNat
def wB (major : Nat) (f : FmtB) : Nat := ((major * 32 + f.a.toNat) * 32 + f.b.toNat) * 65536 + f.off.toNat
def wV (major fn : Nat) (f : FmtV) : Nat :=
  (((((major * 16 + f.vd.toNat) * 16 + f.va.toNat) * 16 + f.vb.toNat) * 8 + f.p.toNat) * 8 + f.etype.toNat) * 256 + fn
def wVM (major : Nat) (f : FmtVM) : Nat :=
  ((((major * 16 + f.vd.toNat) * 32 + f.a.toNat) * 8 + f.p.toNat) * 8 + f.etype.toNat) * 2048 + f.imm.toNat
def wX (major fn : Nat) (f : FmtX) : Nat :=
  ((((major * 16 + f.vd.toNat) * 32 + f.g.toNat) * 64 + f.lane.toNat) * 8 + f.etype.toNat) * 256 + fn
/-- The state with a word where core 0 of isle 0 fetches. -/
def spell (w : Nat) (s : State) : State := { s with mem := s.mem.writeLe (coreAddr 0 (s.core 0).pc.toNat) 4 w }

/-- 05, Tables 4 and 12: words written out field by field; the all-zero word, an unassigned MAJOR and an unassigned FN spell nothing. -/
theorem test_bantam_words :
    decodeBantam c0 0x04220801 = some (.add c0 ⟨1, 2, 1⟩) ∧ decodeBantam c0 0x0BE1FFFF = some (.addi c0 ⟨31, 1, 0xFFFF⟩) ∧
    decodeBantam c0 0x4461DFFF = some (.stl c0 ⟨3, 1, 3, false, 0x1FFF⟩) ∧ decodeBantam c0 0xC0448401 = some (.vadd c0 ⟨1, 1, 2, 0, 4⟩) ∧
    decodeBantam c0 0xE8000001 = some (.halt c0 ⟨0, 0, 0⟩) ∧ decodeBantam c0 0 = none ∧ decodeBantam c0 0xFC000000 = none ∧
    decodeBantam c0 0x04220816 = none := by decide +kernel

/-- R107: −8 / 3 rounds toward zero; division by zero gives all ones. -/
theorem test_div : after (.div c0 ⟨4, 1, 2⟩) (spell (wA 1 0x0E ⟨4, 1, 2⟩) (atCore { g := regs [-8, 3] }))
      (fun t => (t.core 0).greg 4 == -2 && (t.core 0).pc == 4) = true ∧
    after (.div c0 ⟨4, 1, 3⟩) (spell (wA 1 0x0E ⟨4, 1, 3⟩) (atCore { g := regs [-8, 3] })) (fun t => (t.core 0).greg 4 == -1) = true := by
  decide +kernel

/-! ### States that meet the hypotheses of the statements -/

def cmd0 : Cmd := {
  opcode := 0, cls := 1, yield := false, flags := 0, waitCounter := 0, waitTarget := 0, waitMode := 0, sigCounter := 3,
  sigIsle := 0, sigInc := 1, sigMode := 0, ops := List.replicate 20 0 }
def strand0 (cls : Nat) (cmds : List Cmd) : Strand := ⟨0, cls, 0, 0, cmds.length, cmds⟩
def lease0 : LeaseEntry := {
  isle := 0, flags := 3, ox := 0xF, bantam := 0xFFFF, ways := 0, pcs := 2 ^ 64 - 1, tokenBase := 0,
  tokenSpan := 4096, shares := [], scratchBase := 0, scratchSpan := 16 }
def header0 : PlanHeader := {
  magic := 0, format := 0, profile := 1, epoch := 0, length := 0, leaseOff := 0, leaseCount := 1,
  strandCount := 0, strandOff := 0, listOff := 0, listCount := 0, tokenOff := 0, tokenCount := 0, weaveNs := 0, pathBeats := 0,
  pathXfer := 0, pathStints := 0, pathWindow := 0, pathStrait := 0, boundNs := 0, planId := 7 }
/-- A command with its operand fields, (bytes, value) each. -/
def cmdOf (cls opcode flags : Nat) (fields : List (Nat × Nat)) : Cmd :=
  { cmd0 with cls := cls, opcode := opcode, flags := flags, ops := ((fields.flatMap fun (f : Nat × Nat) => leBytes f.1 f.2) ++ List.replicate 20 0).take 20 }
def plan0 (strands : List Strand) : Plan := ⟨header0, [lease0], strands, [], []⟩
def run0 : Run := { number := 1, tag := 0, start := 0, accepted := true }
def withRun (p : Plan) (r : Run) (s : State) : State :=
  { s with ctxs := s.ctxs.put 0 { state := .running, plan := some p, run := some r } }
/-- The run `r` of context 0, with every command of its one strand, of class `cls`, in flight. -/
def doing (cls : Nat) (cmds : List Cmd) (r : Run := run0) : State :=
  withRun (plan0 [strand0 cls cmds]) { r with strands := ({} : Table StrandRun).put 0 ⟨cmds.length, 0⟩ } fresh
/-- Context 0 runs a plan that leases isle 0. -/
def running : State := withRun (plan0 []) run0 fresh
/-- A core in kernel mode of the run of context 0, with `budget` beats. -/
def kernelCore (budget : Nat) (l : List Word) : CoreSt :=
  { status := 1, pc := 0x1000, budget := budget, job := some 0, g := regs l, hbmOn := true, hbmLeft := 64 }
def inKernel (x : CoreSt) : State := { running with cores := ({} : Table CoreSt).put 0 x }

/-- An instruction runs from its word. -/
def ran {F : Type} (i : CoreId → F → Instr) (w : F → Nat) (f : F) (s : State) (p : State → Bool) : Bool := after (i c0 f) (spell (w f) s) p
/-- An instruction is ready, from its word. -/
def Ready {F : Type} (i : CoreId → F → Instr) (w : F → Nat) (f : F) (s : State) (beats : Nat) : Prop := CoreReady (spell (w f) s) c0 (i c0 f) beats

theorem witness_ScalarResults : Ready .divu (wA 1 0x0F) ⟨31, 2, 1⟩ (inKernel (kernelCore 34 [5, 7])) 34 ∧
    Ready .sari (wI 8) ⟨1, 1, 63⟩ fresh 1 ∧
    (⟨31, 1, 0⟩ : FmtA).b = 0 ∧ (⟨31, 1, 63⟩ : FmtI).imm.toNat < 64 ∧ (⟨31, 0, 0xFFFF⟩ : FmtI).a = 0 ∧
    ran .divu (wA 1 0x0F) ⟨31, 2, 1⟩ (inKernel (kernelCore 34 [5, 7])) (fun t => (t.core 0).greg 31 == 1 && (t.core 0).beats == 34) = true ∧
    ran .lui (wI 0x0A) ⟨31, 0, 0x8000⟩ fresh (fun t => (t.core 0).greg 31 == 0xFFFFFFFF80000000) = true ∧
    ran .sari (wI 8) ⟨1, 1, 63⟩ (atCore { g := regs [-1] }) (fun t => (t.core 0).greg 1 == -1) = true ∧
    ran .clz (wA 1 0x14) ⟨2, 1, 0⟩ (atCore { g := regs [1] }) (fun t => (t.core 0).greg 2 == 63) = true ∧
    ran .addi (wI 2) ⟨0, 1, 0xFFFF⟩ (atCore { g := regs [1] }) (fun t => (t.core 0).greg 0 == 0 && (t.core 0).pc == 4) = true := by
  unfold Ready CoreReady; decide +kernel

theorem witness_BranchesAndJumps : Ready .jr (wA 0x28 0) ⟨1, 1, 0⟩ (inKernel (kernelCore 2 [0x2000, 7])) 2 ∧ (⟨1, 1, 0⟩ : FmtA).b = 0 ∧
    ran .blt (wB 0x22) ⟨1, 2, 0xFFFF⟩ (atCore { g := regs [-1, 0], pc := 0x100 }) (fun t => (t.core 0).pc == 0xFC) = true ∧
    ran .bltu (wB 0x24) ⟨1, 2, 0xFFFF⟩ (atCore { g := regs [-1, 0], pc := 0x100 }) (fun t => (t.core 0).pc == 0x104) = true ∧
    ran .call (0x27 * 2 ^ 26 + BitVec.toNat ·) 0x3FFFFFF (atCore { pc := 0x100 })
      (fun t => (t.core 0).pc == 0xFC && (t.core 0).greg 31 == 0x104) = true ∧
    ran .jr (wA 0x28 0) ⟨1, 1, 0⟩ (inKernel (kernelCore 2 [0x2000, 7])) (fun t => (t.core 0).pc == 0x2000 && (t.core 0).greg 1 == 0x1004)
      = true := by
  unfold Ready CoreReady; decide +kernel

theorem witness_VectorLaneResults : (⟨1, 2, 0, 0, 3⟩ : FmtV).etype ≠ 7 ∧ (⟨1, 2, 0, 0, 3⟩ : FmtV).etype.toNat < 4 ∧
    (⟨1, 2, 0, 0, 3⟩ : FmtV).vb = 0 ∧ Ready .vfma (wV 0x30 4) ⟨1, 2, 0, 0, 3⟩ (inKernel (kernelCore 4 [])) 4 ∧
    ran .vadd (wV 0x30 1) ⟨1, 2, 2, 1, 0⟩ (atCore { v := ({} : Table (BitVec 512)).put 2 0x80FF, p := ({} : Table Word).put 1 1 })
      (fun t => (t.core 0).vreg 1 == 0xFE) = true ∧
    ran .vneg (wV 0x30 0x0E) ⟨1, 2, 0, 0, 3⟩ (atCore { v := ({} : Table (BitVec 512)).put 2 1 })
      (fun t => (t.core 0).vreg 1 == 0xFFFFFFFFFFFFFFFF) = true := by
  unfold Ready CoreReady; decide +kernel

theorem witness_VectorReductionsAndComparisons : (⟨7, 1, 0, 0, 6⟩ : FmtV).vb = 0 ∧ (⟨7, 1, 0, 0, 6⟩ : FmtV).etype ≠ 7 ∧
    (⟨7, 1, 0, 0, 6⟩ : FmtV).vd.toNat ≠ 0 ∧ (⟨7, 1, 0, 0, 6⟩ : FmtV).vd.toNat < 8 ∧
    Ready .vredmin (wV 0x30 0x12) ⟨7, 1, 0, 0, 6⟩ (inKernel (kernelCore 12 [])) 12 ∧
    (List.range (512 / laneBits 6)).filter (bit (((inKernel (kernelCore 12 [])).core 0).preg 0).toNat) ≠ [] ∧
    laneNan 6 0x3C00 = false ∧ (⟨7, 1, 2, 0, 3⟩ : FmtV).etype.toNat < 4 ∧
    ran .vredsum (wV 0x30 0x10) ⟨7, 1, 0, 1, 2⟩
      (atCore { v := ({} : Table (BitVec 512)).put 1 0x500000003FFFFFFFF, p := ({} : Table Word).put 1 3 })
      (fun t => (t.core 0).vreg 7 == 2) = true ∧
    ran .vcmpLt (wV 0x31 3) ⟨7, 1, 2, 0, 3⟩ (atCore { v := ({} : Table (BitVec 512)).put 1 0xFFFFFFFFFFFFFFFF })
      (fun t => (t.core 0).preg 7 == 1) = true := by
  unfold Ready CoreReady; decide +kernel

theorem witness_VectorConversionsAndMoves : GateFn.ofCode 11 = some .clamp ∧ (⟨1, 2, 0, 0, 4⟩ : FmtV).etype = 4 ∧
    Fmt.ofCode (⟨1, 2, 6, 0, 0⟩ : FmtV).vb.toNat = some .int8 ∧ Fmt.ofCode (0x81 % 128) = some .fp32 ∧
    (⟨1, 2, 7, 6⟩ : FmtX).etype ≠ 7 ∧ (⟨1, 2, 31, 6⟩ : FmtX).lane.toNat < 512 / laneBits 6 ∧ (⟨7, 2, 0, 0⟩ : FmtX).vd.toNat < 8 ∧
    Ready (.vgate · 11) (wV 0x32 11) ⟨1, 2, 0, 0, 4⟩ (inKernel (kernelCore 8 [])) 8 ∧
    ran (.vgate · 1) (wV 0x32 1) ⟨1, 2, 0, 0, 4⟩ (atCore { v := ({} : Table (BitVec 512)).put 2 0xBF8000003F800000 })
      (fun t => (t.core 0).vreg 1 == 0x3F800000) = true ∧
    ran .extract (wX 0x34 3) ⟨1, 2, 31, 1⟩ (atCore { v := ({} : Table (BitVec 512)).put 1 (0x8000 <<< 496) })
      (fun t => (t.core 0).greg 2 == 0xFFFFFFFFFFFF8000) = true := by
  unfold Ready CoreReady; decide +kernel

theorem witness_LocalLoadsAndStores : (0x2EFF8 : Nat) % 8 = 0 ∧ 0x2EFF8 + 8 ≤ 0x2F000 ∧ 0x2FFC0 % 64 = 0 ∧ 0x2FFC0 + 64 ≤ 0x30000 ∧
    Ready .ldl (wM 0x10) ⟨3, 1, 3, false, 0⟩ (inKernel (kernelCore 2 [0x2EFF8])) 2 ∧
    ((inKernel (kernelCore 2 [0x2EFF8])).core 0).greg 1 + (0 : BitVec 13).signExtend 64 = 0x2EFF8 ∧
    fresh.badIn (coreAddr 0 0x3EFF8) 8 = none ∧ bit ((fresh.core 0).preg 0).toNat 0 = true ∧
    bit ((fresh.core 0).preg 1).toNat 0 = false ∧
    ran .stl (wM 0x11) ⟨2, 1, 3, false, 0⟩ (inKernel (kernelCore 1 [0x2EFF8, -2]))
      (fun t => t.mem.readLe (coreAddr 0 0x3EFF8) 8 == 0xFFFFFFFFFFFFFFFE) = true ∧
    ran .ldl (wM 0x10) ⟨3, 1, 1, true, 0x1FFE⟩
      { inKernel (kernelCore 2 [0x102]) with mem := ({} : Mem).writeLe (coreAddr 0 0x10100) 2 0x8001 }
      (fun t => (t.core 0).greg 3 == 0xFFFFFFFFFFFF8001) = true ∧
    ran .vstl (wVM 0x19) ⟨1, 1, 1, 3, 0⟩ (atCore {
      g := regs [64], v := ({} : Table (BitVec 512)).put 1 (BitVec.allOnes 512), p := ({} : Table Word).put 1 0x82 })
      (fun t => t.mem.readLe (coreAddr 0 0x10048) 8 == 2 ^ 64 - 1 && t.mem.readLe (coreAddr 0 0x10040) 8 == 0) = true := by
  unfold Ready CoreReady; decide +kernel

/-- Address of byte `o` of the isle store of isle 0. -/
def storeAt (o : Nat) : Nat := gaddr 0 2 o

/-- A core in kernel mode whose job is in the owner register of every pseudo-channel of isle 0. -/
def owning (x : CoreSt) : State := { inKernel x with pcOwner := Table.ofList 0 (List.replicate 64 0) }
def stg0 : FmtM := ⟨2, 1, 3, false, 0⟩
def stgAt : State := spell (wM 0x13 stg0) (owning (kernelCore 24 [0x100, 9]))

theorem witness_GlobalLoadsAndStores : unitOf (2 ^ 26) = running.unitNo ∧
    (owning (kernelCore 24 [])).mayAccess (kernelCore 24 []) (localOf 0x100) = true ∧ classOf (localOf 0x100) < 2 ∧
    64 ≤ (kernelCore 24 []).hbmLeft ∧ running.inject.armed = false ∧ CoreReady stgAt c0 (.stg c0 stg0) 24 ∧
    (∃ u l b, stgAt.access 0 (stgAt.core 0) 0x100 8 8 .write (stgAt.writeFault · 8) = .here u l b ∧
      stgAt.readFault l 64 = none ∧ u.sharedAt l = false ∧ b = 0) ∧
    stgAt.foundFault 0x100 64 .intact = none ∧ (rsRead .intact).1 ≠ .corrected ∧
    (∃ i, i < 64 / (laneBits 3 / 8) ∧ bit (BitVec.allOnes 64).toNat i = true) ∧
    after (.stg c0 stg0) stgAt
      (fun t => t.mem.readLe 0x100 8 == 9 && (t.core 0).outstanding == [⟨1, true⟩] && (t.core 0).hbmLeft == 56) = true ∧
    ran (fun c f => .vldg c ⟨f, .intact⟩) (wVM 0x1A) ⟨1, 1, 0, 3, 0⟩ { owning (kernelCore 24 [0x100]) with mem := ⟨[(0x108, 3)]⟩ }
      (fun t => (t.core 0).vreg 1 == 3 <<< 64 && (t.core 0).hbmLeft == 0) = true := by
  refine ⟨by decide, by decide +kernel, by decide, by decide, by decide, by unfold CoreReady; decide +kernel, ⟨_, _, _, rfl, ?_⟩,
    by decide +kernel, by decide +kernel, ⟨0, by decide, by decide⟩, by decide +kernel, by decide +kernel⟩
  decide +kernel

/-- An atomic of core 0 with its operands in g1, g2 and g3. -/
def amoAt (fn : Nat) (f : FmtA) (b d : Word) : State :=
  spell (wA 0x14 fn f) (inKernel (kernelCore 24 [BitVec.ofNat 64 (storeAt 64), b, d]))

theorem witness_AtomicsOnIsleStores : unitOf (storeAt 64) = running.unitNo ∧ classOf (storeAt 64) = 2 ∧ storeAt 64 % 8 = 0 ∧
    CoreReady (amoAt 0x0B ⟨3, 1, 2⟩ (-1) 5) c0 (.amoCas c0 true ⟨3, 1, 2⟩) 24 ∧
    (∃ u l b, (amoAt 0x0B ⟨3, 1, 2⟩ (-1) 5).access 0 ((amoAt 0x0B ⟨3, 1, 2⟩ (-1) 5).core 0) (storeAt 64) 8 8 .write
        (fun l => ((amoAt 0x0B ⟨3, 1, 2⟩ (-1) 5).readFault l 8).orElse fun _ => (amoAt 0x0B ⟨3, 1, 2⟩ (-1) 5).writeFault l 8) = .here u l b ∧
      (u.adder 2).lines.find? 64 = none ∧ (u.ctx 0).run = some run0) ∧
    after (.amoAdd c0 false ⟨4, 1, 2⟩) { amoAt 0x02 ⟨4, 1, 2⟩ (-1) 5 with
        mem := (amoAt 0x02 ⟨4, 1, 2⟩ (-1) 5).mem.writeLe (storeAt 64) 8 0x100000000 }
      (fun t => t.mem.readLe (storeAt 64) 8 == 0x1FFFFFFFF && (t.core 0).greg 4 == 0) = true ∧
    after (.amoCas c0 true ⟨3, 1, 2⟩) { amoAt 0x0B ⟨3, 1, 2⟩ (-1) 5 with
        mem := (amoAt 0x0B ⟨3, 1, 2⟩ (-1) 5).mem.writeLe (storeAt 64) 8 5 }
      (fun t => t.mem.readLe (storeAt 64) 8 == 2 ^ 64 - 1 && (t.core 0).greg 3 == 5) = true ∧
    after (.amoFadd32 c0 ⟨4, 1, 2⟩) (amoAt 0x0C ⟨4, 1, 2⟩ 0x3F800000 0)
      (fun t => t.mem.readLe (storeAt 64) 4 == 0x3F800000 && ((t.ctx 0).run.any (·.nonRepro))) = true := by
  refine ⟨by decide, by decide, by decide, by unfold CoreReady; decide +kernel, ⟨_, _, _, rfl, ?_⟩, ?_⟩ <;> decide +kernel

theorem witness_TokenInstructionsAndFences :
    (inKernel (kernelCore 4 [0xFFF, 1])).tokenPlace (kernelCore 4 []) 0xFFF true = .ok (0, 4095) ∧
    (inKernel (kernelCore 52 [0x1001, 1023])).tokenPlace {} 0x1001 true = .ok (1, 1) ∧
    (∀ o ∈ (kernelCore 4 []).accesses, 2 < o.scope) ∧ Ready .tread (wA 0x38 3) ⟨3, 1, 0⟩ (inKernel (kernelCore 8 [0xFFF, 1])) 8 ∧
    (inKernel (kernelCore 4 [])).activeRun 0 = some run0 ∧ (kernelCore 4 []).job = some 0 ∧ ((atCore {}).core 0).job = none ∧
    (inKernel (kernelCore 4 [])).jobHalted (kernelCore 4 []) = false ∧ (3 : BitVec 16).toNat = 3 ∧
    ran .tsig (wA 0x38 1) ⟨0, 1, 2⟩ (inKernel (kernelCore 4 [0xFFF, 1023])) (fun t => t.token 0 4095 == 1023 && (t.core 0).pc == 0x1004)
      = true ∧
    ran .tread (wA 0x38 3) ⟨3, 1, 0⟩ { inKernel (kernelCore 8 [0xFFF]) with tokens := ({} : Table Nat).put 4095 65535 }
      (fun t => (t.core 0).greg 3 == 65535) = true ∧
    ran .twait (wA 0x38 2) ⟨0, 1, 2⟩ (inKernel (kernelCore 4 [0xFFF, 0])) (fun t => (t.core 0).pc == 0x1004) = true ∧
    Ready .twait (wA 0x38 2) ⟨0, 1, 2⟩ (inKernel (kernelCore 4 [0xFFF, 65535])) 0 ∧
    ran .twait (wA 0x38 2) ⟨0, 1, 2⟩ (inKernel (kernelCore 4 [0xFFF, 65535])) (fun t => (t.core 0).pc == 0x1000 &&
      (t.core 0).twait == some (4095, 65535)) = true ∧
    ran .fence (wI 0x39) ⟨0, 0, 3⟩ (atCore {}) (fun t => (t.core 0).pc == 4) = true := by
  refine ⟨rfl, rfl, ?_⟩; unfold Ready CoreReady; decide +kernel

/-- A core in keeper mode, with a trap table entry 0x100 for BRK. -/
def keeper (x : CoreSt) : State := { atCore x with mem := ({} : Mem).writeLe (coreAddr 0 (0x3F000 + 32)) 4 0x100 }

theorem witness_ModesTrapsAndControlRegisters : Ready .halt (wA 0x3A 1) ⟨0, 0, 0⟩ (inKernel (kernelCore 2 [])) 0 ∧
    Ready .brk (wA 0x3A 3) ⟨0, 0, 0⟩ (keeper {}) 2 ∧ Ready .csrw (wI 0x3C) ⟨0, 1, 0x013⟩ (keeper {}) 2 ∧
    ((inKernel (kernelCore 2 [])).core 0).kernel = true ∧ running.postedOpen 0 1 = false ∧ ((keeper {}).core 0).kernel = false ∧
    bit ((keeper {}).core 0).status.toNat 2 = false ∧
    (keeper {}).mem.readLe (coreAddr c0.key (0x10000 + ((keeper {}).core 0).trapTab.toNat + 32)) 4 = 0x100 ∧
    (({ wakeMask := 1, wakeCause := 1 } : CoreSt).wakeMask &&& 1 ≠ 0) ∧ (({} : CoreSt).wakeMask &&& 0 = 0 ∧ ({} : CoreSt).pmode &&& 7 = 0) ∧
    (atCore {}).csr c0 {} 0x30 = some 0 ∧ (inKernel (kernelCore 2 [])).csr c0 (kernelCore 2 []) 0x20 = some 0 ∧
    ran .halt (wA 0x3A 1) ⟨0, 0, 0⟩ (inKernel (kernelCore 1 []))
      (fun t => (t.core 0).kernel == false && (t.core 0).draining == [⟨0, 0x1000, []⟩]) = true ∧
    ran .wait (wA 0x3A 2) ⟨0, 0, 0⟩ (atCore { wakeMask := 8, wakeCause := 4 }) (fun t => (t.core 0).power == .nap) = true ∧
    ran .brk (wA 0x3A 3) ⟨0, 0, 0⟩ (keeper { status := 2, pc := 8 })
      (fun t => (t.core 0).pc == 0x100 && (t.core 0).epc == 8 && (t.core 0).status == 4 && (t.core 0).saved == 2) = true ∧
    ran .resume (wA 0x3A 4) ⟨0, 0, 0⟩ (atCore { status := 4, epc := 12, saved := 2 })
      (fun t => (t.core 0).pc == 12 && (t.core 0).status == 2) = true ∧
    ran .csrw (wI 0x3C) ⟨0, 1, 0x012⟩ (atCore { g := regs [1], wakeCause := 3 }) (fun t => (t.core 0).wakeCause == 2) = true ∧
    ran .csrw (wI 0x3C) ⟨0, 1, 0x000⟩ (atCore { g := regs [7] }) (fun t => (t.core 0).status == 6) = true ∧
    ran .ring (wA 0x3A 5) ⟨0, 1, 0⟩ (atCore { g := regs [15] }) (fun t => (t.core 15).wakeCause == 4) = true := by
  unfold Ready CoreReady; decide +kernel

def kernelOps0 : KernelOps := ⟨true, true, false, 0x1000, 64, 1, 0x2EFC0, 4, 0⟩
def kernelCmd0 : Cmd := cmdOf 2 1 3 [(2, 0x1000), (2, 64), (4, 1), (4, 0x2EFC0), (4, 4)]

/-- A kernel in its implicit fence, the last command of strand 0 of the run. -/
def fencing : State := { doing 2 [kernelCmd0] with cores := ({} : Table CoreSt).put 0 { draining := [⟨0, 0x1000, []⟩] } }
/-- A kernel of the run that executes an instruction. -/
def stalled : State := inKernel (kernelCore 2 [])

theorem witness_KernelsAndCoreEvents : kernelValid kernelOps0 = true ∧ kernelReserved kernelOps0 = true ∧ kernelFits kernelOps0 = true ∧
    ((doing 2 [kernelCmd0]).activeRun 0).isSome = true ∧ ((doing 2 [kernelCmd0]).engineOp 0 2 0 0 (.kernel kernelOps0)).isSome = true ∧
    (running.core 0).kernel = false ∧ (running.core 0).disabled = false ∧
    (running.core 0).power = .run ∧ (fencing.core 0).draining = [⟨0, 0x1000, []⟩] ∧
    (fencing.ctx 0).run.any (fun r => (r.strand 0).completed < (r.strand 0).started && !r.poisoned) = true ∧
    fencing.postedOpen 0 1 = false ∧ (plan0 [strand0 2 []]).coreStrand 0 = some 0 ∧ kernelCmd0.sigMode = 0 ∧
    (({ power := .off, wakeMask := 4, wakeCause := 4 } : CoreSt).power ≠ .run) ∧ fresh.power.isle.get .i3 0 = .i3 ∧
    (stalled.core 0).job = some 0 ∧ (stalled.core 0).runs = true ∧ stalled.atTwait (stalled.core 0) = false ∧
    after (.kernel 0 c0 kernelOps0) (doing 2 [kernelCmd0]) (fun t => (t.core 0).greg 1 == 0x2EFC0 && (t.core 0).greg 2 == 64 &&
      (t.core 0).kernel && (t.core 0).hbmLeft == 4096) = true ∧
    after (.kernelComplete c0) fencing (fun t => (t.core 0).draining == [] && (t.ctx 0).run.any (fun r => (r.strand 0).completed == 1)) = true ∧
    after (.coreWake c0) { atCore { power := .off, wakeMask := 4, wakeCause := 4 } with
        power := { fresh.power with isle := ({} : Table IslePower).put 0 .i0 } }
      (fun t => (t.core 0).power == .run && (t.core 0).cause == 12) = true ∧
    after (.bantamStall c0) stalled
      (fun t => (t.core 0).disabled && (t.isle 0).bantam == 0xFFFE && (t.ctx 0).run.any (·.halted == some 0x252)) = true := by
  decide +kernel

/-- The run of context 0 with one strand of class `cls`, of which the counts are given. -/
def strands (cls : Nat) (cmds : List Cmd) (started completed : Nat) : State :=
  withRun (plan0 [strand0 cls cmds]) { run0 with strands := ({} : Table StrandRun).put 0 ⟨started, completed⟩ } fresh
def oneStrand (cmd : Cmd) (started completed : Nat) : State := strands 1 [cmd] started completed

theorem witness_StrandsStartAndComplete :
    (oneStrand { cmd0 with waitMode := 1, waitTarget := 1 } 0 0).waitMet (strand0 1 []) { cmd0 with waitMode := 1, waitTarget := 0 } = true ∧
    (oneStrand cmd0 0 0).granted 0 run0 (strand0 1 []) 0 cmd0 = true ∧ (strands 1 (List.replicate 33 cmd0) 31 0).strandOf 0 0 ≠ none ∧
    (oneStrand cmd0 0 0).strandIdle (strand0 1 []) = false ∧ (oneStrand cmd0 0 0).placeFree (strand0 1 []) cmd0 = true ∧
    31 - 0 < queueDepth 1 ∧ (oneStrand { cmd0 with sigMode := 1 } 1 0).activeRun 0 ≠ none ∧ ((20000 : BitVec 32).toNat ≤ 500000) ∧
    (∀ r, (oneStrand cmd0 1 0).doneWaiting 0 r (strand0 1 []) cmd0 = true) ∧
    ({ doing 1 [cmdOf 6 2 0 [(4, 20000)]] with windows := ({} : Table Nat).put (windowKey 0 1 0) 9 } : State).doneWaiting 0 run0 (strand0 1 [])
      (cmdOf 6 2 0 [(4, 20000)]) = false ∧ (cmdOf 6 2 0 [(4, 20000)]).op = some (.bgWindow (20000 : BitVec 32).toNat) ∧
    after (.commandWaitMet 0 0) (strands 1 (List.replicate 33 cmd0) 31 0) (fun t => (t.ctx 0).run.any (fun r => (r.strand 0).started == 32)) = true ∧
    after (.commandWaitMet 0 0) (strands 1 (List.replicate 33 cmd0) 32 0) (fun t => (t.ctx 0).run.any (fun r => (r.strand 0).started == 32)) = true ∧
    after (.commandComplete 0 0) (oneStrand { cmd0 with sigMode := 1 } 1 0) (fun t => t.token 0 3 == 1 && t.flying == []) = true ∧
    after (.commandComplete 0 0) (oneStrand { cmd0 with sigMode := 1, sigIsle := 1 } 1 0) (fun t => t.flying == [⟨0, 1, 0, 1, 3, 1⟩]) = true ∧
    after (.bgWindow 0 0 20000) (doing 1 [cmdOf 6 2 0 [(4, 20000)]]) (fun t => t.windows.get 0 (windowKey 0 1 0) == 5000) = true := by
  refine ⟨by decide +kernel, by decide +kernel, by decide +kernel, by decide +kernel, by decide +kernel, by decide, by decide +kernel, by decide,
    fun _ => rfl, ?_⟩
  decide +kernel

/-- A token message of context 0 from isle `src` to counter 5 of isle 0, in flight over a shape of isles 0 and 1. -/
def flying (src run inc : Nat) (s : State) : State := { s with flying := [⟨0, run, src, 0, 5, inc⟩], shape := { cur := { mask := 3 } } }

theorem witness_TokenMessagesAndPaceWindows : running.activeRun 0 = some run0 ∧ run0.number = (1 : BitVec 16).toNat ∧
    (flying 0 1 1 running).messageOf 0 (1 : BitVec 16).toNat 0 5 1 = some ⟨0, 1, 0, 0, 5, 1⟩ ∧ running.inject.armed = false ∧
    (∃ d, (0, d) ∈ placeSounds ((flying 1 1 1 running).tableOf 0) 1 0) ∧
    fresh.activeRun 0 = none ∧ run0.number ≠ (2 : BitVec 16).toNat ∧ (1000 : Nat) * 1 ≤ 1000 ∧ fresh.floor = 1000 ∧
    ({ fresh.power with isle := ({} : Table IslePower).put 0 .i0 } : PowerSt).isle.get .i3 0 = .i0 ∧
    (fresh.isle 0).pace.window = 0 ∧
    after (.tokenMessage 0 1 0 5 1 none) (flying 0 1 1 { running with tokens := ({} : Table Nat).put 5 65534 }) (fun t => t.token 0 5 == 65535 &&
      (t.activeRun 0).isSome && t.flying == []) = true ∧
    after (.tokenMessage 0 1 0 5 2 none) (flying 0 1 2 { running with tokens := ({} : Table Nat).put 5 65534 }) (fun t => t.token 0 5 == 65535 &&
      (t.ctx 0).run.any (·.halted == some 0x620)) = true ∧
    after (.tokenMessage 0 1 0 5 1 (some 0)) (flying 1 1 1 running) (fun t => t.token 0 5 == 0 && (t.ctx 0).run.any (·.halted == some 0x223))
      = true ∧
    after (.tokenMessage 0 2 0 5 1 none) (flying 0 2 1 running) (fun t => t.token 0 5 == 0 && (t.isle 0).stale == 1) = true ∧
    after (.paceWindowClose 0 1999 2) { fresh with power := { fresh.power with isle := ({} : Table IslePower).put 0 .i0 } }
      (fun t => (t.isle 0).pace.now == 999 && (t.isle 0).pace.lowWindows == 1) = true ∧
    after (.paceWindowClose 0 2000 2) { fresh with power := { fresh.power with isle := ({} : Table IslePower).put 0 .i0 } }
      (fun t => (t.isle 0).pace.now == 1000 && (t.isle 0).pace.lowWindows == 0) = true := by
  refine ⟨rfl, rfl, rfl, rfl, ?_, ?_⟩
  · exact ⟨1, by decide +kernel⟩
  · decide +kernel

/-- R47, R122: a kernel that waits in TWAIT for a counter that nothing signals is a deadlock; one whose counter has come is none. -/
theorem test_kernel_wait_deadlocks :
    let r := { run0 with strands := ({} : Table StrandRun).put 0 ⟨1, 0⟩ }
    let p := plan0 [strand0 2 [{ cmd0 with cls := 2, opcode := 1 }]]
    let s (n : Nat) := { withRun p r fresh with
      cores := ({} : Table CoreSt).put 0 { kernelCore 4 [] with twait := some (7, 2) }, tokens := ({} : Table Nat).put 7 n }
    (s 1).deadlocked 0 p r = true ∧ (s 2).deadlocked 0 p r = false := by decide +kernel

theorem witness_RunsEndAndLeasesReturn : fresh.boot.restarting = false ∧
    (oneStrand { cmd0 with waitMode := 1, waitTarget := 1 } 0 0).deadlocked 0 (plan0 [strand0 1 [{ cmd0 with waitMode := 1, waitTarget := 1 }]])
      { run0 with strands := ({} : Table StrandRun).put 0 ⟨0, 0⟩ } = true ∧
    (withRun (plan0 []) { run0 with halted := some 0x622 } fresh).quiet 0 = true ∧ run0.finished (plan0 []) = true ∧
    running.postedOpen 0 1 = false ∧
    after .tokenDeadlockCheck (oneStrand { cmd0 with waitMode := 1, waitTarget := 1 } 0 0)
      (fun t => (t.ctx 0).run.any (·.halted == some 0x622)) = true ∧
    after (.jobHaltComplete 0) (withRun (plan0 []) { run0 with halted := some 0x622 } fresh)
      (fun t => (t.ctx 0).state == .empty && (t.ctx 0).run == none && (t.ctx 0).cons == 1 && (t.ctx 0).clearing.length == 1) = true ∧
    after (.runEnd 0) running (fun t => (t.ctx 0).state == .loaded && (t.ctx 0).run == none && (t.ctx 0).account.runs == 1) = true := by
  decide +kernel

theorem witness_OperandsRefusedAtLoadStop : (kernelValid { kernelOps0 with entry := 0xFFC } && kernelReserved kernelOps0 && kernelFits kernelOps0)
      = false ∧ (19999 : BitVec 32).toNat < 20000 ∧ 500000 < (500001 : BitVec 32).toNat ∧ 4096 < (4097 : BitVec 16).toNat ∧
    (wloadValid ⟨0, 0, 1, 128⟩ && wloadFits ⟨0, 0, 1, 128⟩) = false ∧ (accloadValid ⟨0, 0, 1, 0, 0⟩ && accloadFits ⟨0, 0, 1, 0, 0⟩) = false ∧
    (masksetValid ⟨1, 0, 1⟩ && masksetFits ⟨1, 0, 1⟩) = false ∧
    (matmulValid ⟨false, false, 0, 128, 0, 0, 1, 0⟩ && matmulFits ⟨false, false, 0, 128, 0, 0, 1, 0⟩) = false ∧
    lgeomValid (.win 0 1 1 1 1 1) = false ∧ (lwloadValid ⟨5, 0, 64⟩ && lwloadFits ⟨5, 0, 64⟩) = false ∧ (fresh.lamb 0).dst = none ∧
    classLimit 2 ≤ (0x4000000 : BitVec 48).toNat ∧ windowValid 0 ⟨9, 0, 1, 1, 0, 1⟩ = false ∧
    rsignalValid 0 ⟨0, 0, 0, 1⟩ = false ∧ remoteValid 0 ⟨false, 0, 0, 0, 0, 0, 0, false⟩ = false := by
  decide +kernel

/-! Memory of the tests: no frame is shared, no stack is away. -/

theorem unshared {s : State} (h : s.frames = {}) (a : Nat) : s.sharedAt a = false := by
  simp [State.sharedAt, State.frame, h, Table.get, Table.find?, listFind]

theorem all_present {s : State} (h : s.hbm = {}) (a : Nat) : s.stackRefuses a = false := by
  simp [State.stackRefuses, State.stack, h, Table.get, Table.find?, listFind]

/-- The run of context 0 with list 0, of one HBM page at `a`, and list 9, a reserve of one page at 0x10000. -/
def lists (a : Nat) : Run :=
  { run0 with lists := (({} : Table (Table Nat)).put 0 (({} : Table Nat).put 0 a)).put 9 (({} : Table Nat).put 2 0x10000) }
/-- That run with commands in flight on a strand of the page mover, the COUNT of the frame at 0x20000 and a byte in the page. -/
def flock (cmds : List Cmd) (count : Nat) : State :=
  { doing 4 cmds (lists 0x20000) with
    frames := (({} : Table Frame).put 1 { count := 1 }).put 2 { count := count }, mem := ⟨[(0x2FFFF, 7)]⟩ }
def splitOps0 : SplitOps := ⟨0, 0, 1, 9⟩
def flockCmds : List Cmd := [cmdOf 6 0x10 0 [(4, 0), (4, 1), (2, 3)], cmdOf 6 0x11 0 [(4, 0), (2, 0), (2, 1), (4, 9)], cmdOf 6 0x12 0 [(4, 0), (4, 1)]]

theorem witness_FrameCountsFollowForkSplitAndRelease :
    ([PlanOp.fork ⟨0, 1, 3⟩, .release ⟨0, 1⟩, .split splitOps0].all fun o => ((flock flockCmds 1).controlOf 0 o).any fun q =>
      q.1.lists == (lists 0x20000).lists && q.2.isle == 0) = true ∧
    (flock [] (65535 - 4096)).overCount 4096 [2] = none ∧ ((lists 0x20000).lists.get {} 0).keys.Nodup ∧
    (∀ k, (flock [] 1).stackRefuses (frameAddr k) = false) ∧ (flock [] 2).mem.wf = true ∧ (flock [] 2).holmMem.wf = true ∧
    (flock [] 2).inWindow (windowKey 0 4 0) = false ∧
    (lists 0x20000).entry 0 0 = some 0x20000 ∧ ((lists 0x20000).lists.get {} 9).rows.head? = some (2, 0x10000) ∧
    frameKey 0x20000 = 2 ∧ (flock [] 2).readFault 0x20000 65536 = none ∧ (flock [] 2).writeFault 0x10000 65536 = none ∧
    copySkip 0x20000 0x10000 = 0 ∧
    after (.fork 0 ⟨0, 1, 3⟩) (flock flockCmds 1)
      (fun t => (t.frame 2).count == 4 && (t.ctx 0).run.any (fun r => r.entry 3 0 == some 0x20000)) = true ∧
    after (.release 0 ⟨0, 1⟩) (flock flockCmds 1) (fun t => (t.frame 2).count == 0 && (t.ctx 0).run.any (fun r => r.entry 0 0 == none)) = true ∧
    after (.split 0 ⟨splitOps0, none⟩) (flock flockCmds 1)
      (fun t => (t.ctx 0).run.any (fun r => r.entry 0 0 == some 0x20000 && r.entry 9 2 == none)) = true ∧
    after (.split 0 ⟨splitOps0, none⟩) (flock flockCmds 2) (fun t => (t.ctx 0).run.any (fun r => r.entry 0 0 == some 0x10000 && r.entry 9 2 == none) &&
      (t.frame 2).count == 1 && (t.frame 1).count == 1 && t.mem.read 0x1FFFF == 7) = true := by
  refine ⟨by decide +kernel, by decide +kernel, by decide, fun k => all_present rfl _, ?_⟩
  decide +kernel

def copyOps0 : CopyOps := ⟨true, false, 0, 0x30000, 1, false, 0, 0⟩
/-- MCAST of a page to offset 0x30000 of the HBM of isles 0 and 1. -/
def mcastOps0 : CopyOps := ⟨true, false, 0, 0x30000, 1, false, 2, 0⟩

/-- Both in flight. -/
def moving : State := flock [cmdOf 4 1 1 [(8, 0), (8, 0x30000), (2, 1)], cmdOf 4 2 1 [(8, 0), (8, 0x30000), (2, 1), (1, 4)]] 1

theorem witness_PageMoverMovesPages : moving.mem.wf = true ∧ moving.inject.armed = false ∧ moving.bad.rows = [] ∧
    (∀ a, moving.stackRefuses a = false) ∧ (moving.moverRuns 0 0 (.copy copyOps0)).isSome = true ∧
    (moving.moverRuns 0 0 (.mcast mcastOps0)).isSome = true ∧ isleOf 0x20000 = runIsle mcastOps0 0 ∧
    (∀ k, k < 1 → (lists 0x20000).sidePage true 0 k = some 0x20000) ∧
    (∀ k, k < 1 → (lists 0x20000).sidePage false 0x30000 k = some 0x30000 ∧ moving.sharedIn 0x30000 65536 = none ∧ copySkip 0x20000 0x30000 = 0) ∧
    (∀ i k, i < 2 → k < 1 → (lists 0x20000).mcastPage mcastOps0 i k = some (i * 2 ^ 52 + 0x30000) ∧
      moving.sharedIn (i * 2 ^ 52 + 0x30000) 65536 = none ∧ copySkip 0x20000 (i * 2 ^ 52 + 0x30000) = 0) ∧
    after (.copy 0 0 copyOps0 ⟨none, none⟩) moving (fun t => t.mem.cells == [(0x2FFFF, 7), (0x3FFFF, 7)]) = true ∧
    after (.mcast 0 0 mcastOps0 none) { moving with shape := { cur := { mask := 3 } } }
      (fun t => t.mem.cells == [(0x2FFFF, 7), (0x3FFFF, 7), (2 ^ 52 + 0x3FFFF, 7)]) = true := by
  refine ⟨?_, rfl, rfl, all_present rfl, by decide +kernel, by decide +kernel, rfl, ?_, ?_, ?_, ?_⟩
  · decide
  · intro k hk; obtain rfl : k = 0 := by omega
    rfl
  · intro k hk; obtain rfl : k = 0 := by omega
    decide +kernel
  · intro i k hi hk; obtain rfl : k = 0 := by omega
    obtain rfl | rfl : i = 0 ∨ i = 1 := by omega
    · decide +kernel
    · decide +kernel
  · decide +kernel

def e0 : EngineId := ⟨0, 0⟩
/-- Commands of an engine, of each kind. -/
def oxCmds : List Cmd := [
  cmdOf 1 1 0 [(4, 0), (1, 6), (1, 0), (2, 1), (2, 128)], cmdOf 1 4 0 [(4, 0), (2, 512), (2, 1), (2, 1023), (1, 7)],
  cmdOf 1 5 0 [(4, 0), (1, 15), (1, 1)], cmdOf 1 2 2 [(4, 0), (2, 256), (2, 1), (2, 1023), (1, 6)],
  cmdOf 1 3 0 [(4, 1), (1, 2), (1, 7), (2, 1), (2, 5), (2, 0), (2, 512)]]
/-- An engine with those in flight, an INT8 tile of one row of 1s, masks open, and accumulator rows. -/
def ox (acc : Table AccRow) : State :=
  { doing 1 oxCmds with
    engines := ({} : Table EngineSt).put 0 { active := ⟨6, 1, [List.replicate 128 1]⟩, acc := acc }
    mem := ({} : Mem).writeLe (operandAddr 0 0) 1 0x80 }
def matmul0 (acc : Bool) : MatmulOps := ⟨false, acc, 0, 256, 1, 1023, 6, 0⟩
def drain0 : DrainOps := ⟨1, 2, 0, 7, 1, 5, 0, 0, false, false, false, false, 0, 512, 0, 0, 0⟩
def row5 : Table AccRow := ({} : Table AccRow).put 5 ⟨true, (List.range 128)⟩

theorem witness_OxLoadsFillTheEngine : (ox {}).engineRuns 0 0 (.wload ⟨0, 6, 1, 128⟩) = true ∧
    (ox {}).engineRuns 0 0 (.accload ⟨0, 512, 1, 1023, 7⟩) = true ∧ (ox {}).engineRuns 0 0 (.maskset ⟨0, 15, 1⟩) = true ∧ (ox {}).bad.rows = [] ∧
    wloadValid ⟨0, 6, 1, 128⟩ = true ∧ wloadFits ⟨0, 6, 256, 128⟩ = true ∧ accloadValid ⟨0, 512, 1, 1023, 7⟩ = true ∧
    accloadFits ⟨0, 512, 1, 1023, 7⟩ = true ∧ masksetValid ⟨0, 15, 1⟩ = true ∧ masksetFits ⟨0, 15, 1⟩ = true ∧
    after (.wload 0 e0 ⟨0, 6, 1, 128⟩) (ox {}) (fun t => ((t.engine 0).shadow.weights.getD 0 []).take 2 == [0x80, 0]) = true ∧
    after (.accload 0 e0 ⟨0, 512, 1, 1023, 7⟩) (ox {})
      (fun t => ((t.engine 0).acc.find? 1023).any fun r => r.isInt && r.lanes.take 2 == [0x80, 0]) = true ∧
    after (.maskset 0 e0 ⟨0, 15, 1⟩) (ox {}) (fun t => (t.engine 0).mask 15 == ⟨0x80, 0⟩) = true := by
  decide +kernel

theorem witness_OxMatmulAccumulates : matmulValid (matmul0 true) = true ∧ matmulFits (matmul0 true) = true ∧
    (ox {}).engineRuns 0 0 (.matmul (matmul0 true)) = true ∧ fmtPair 6 6 = true ∧
    ((ox (({} : Table AccRow).put 1023 ⟨true, [1]⟩)).engine 0).accTyped (matmul0 true) = true ∧
    after (.matmul 0 e0 (matmul0 true)) (ox (({} : Table AccRow).put 1023 ⟨true, [1]⟩))
      (fun t => ((t.engine 0).acc.get {} 1023).lanes.take 2 == [2 ^ 32 - 127, 2 ^ 32 - 128]) = true := by
  decide +kernel

theorem witness_OxDrainWritesRows : drainValid drain0 = true ∧ drainFits drain0 = true ∧ drainInside drain0 = true ∧ drainAux drain0 = false ∧
    drain0.dstMode = 0 ∧ (ox row5).engineRuns 0 0 (.drain drain0) = true ∧ (∀ a, (ox row5).sharedAt a = false) ∧
    (∀ a, (ox row5).stackRefuses a = false) ∧
    (((ox row5).engine 0).acc.get {} 5).isInt = true ∧ 128 * fmtSize 7 ≤ 512 ∧
    after (.drain 0 e0 drain0) (ox row5) (fun t => t.mem.readLe (storeAt (64 + 4 * 127)) 4 == 127 && t.mem.readLe (storeAt (64 + 4 * 128)) 4 == 0)
      = true := by
  refine ⟨?_, ?_, ?_, ?_, ?_, ?_, unshared rfl, all_present rfl, ?_⟩ <;> decide +kernel

theorem witness_PatrolsAndStalls : (fresh.engine 0).state = .healthy ∧ (0 : Nat) + 1 ≠ 2112 ∧ fresh.oxUnheld 0 = true ∧
    ({ running with windows := ({} : Table Nat).put (windowKey 0 1 0) 1 } : State).inWindow (windowKey 0 1 0) = true ∧
    (∀ cp ∈ fresh.loaded, cp.2.hasLamb 0 = false) ∧ (oneStrand { cmd0 with opcode := 2 } 1 0).inFlightOn 0 1 0 (fun c => c.opcode == 2) = some 0 ∧
    (strands 3 [cmd0] 1 0).inFlightOn 0 3 0 (fun _ => true) = some 0 ∧
    after (.oxPatrolVector e0 (some 131) false) { fresh with engines := ({} : Table EngineSt).put 0 { suspect := some 131, spares := 3 } }
      (fun t => (t.engine 0).spares == 4 && (t.engine 0).suspect == none) = true ∧
    after (.oxPatrolVector e0 (some 131) false) { fresh with engines := ({} : Table EngineSt).put 0 { suspect := some 131, spares := 4 } }
      (fun t => (t.engine 0).state == .disabled && (t.isle 0).ox == 0xE) = true ∧
    after (.oxStall e0 2) (oneStrand { cmd0 with opcode := 2 } 1 0)
      (fun t => (t.isle 0).ox == 0xE && (t.ctx 0).run.any (·.halted == some 0x241)) = true ∧
    after (.lambPatrolVector 0 (some 1) false) { fresh with lambs := ({} : Table LambSt).put 0 { suspect := some 1 } }
      (fun t => (t.lamb 0).state == .disabled && !(t.isle 0).lamb) = true ∧
    after (.lambStall 0) (strands 3 [cmd0] 1 0) (fun t => !(t.isle 0).lamb && (t.ctx 0).run.any (·.halted == some 0x261)) = true := by
  decide +kernel

/-- A Lamb engine with an FP32 source of 4 × 4 pixels and 2 channels at 0 of the isle store, a 2 × 2 window, and a destination. -/
def lambImage (off w h c rs ps : Nat) : LambImage := ⟨2, 1, off, w, h, c, rs, ps⟩
/-- Commands of a Lamb engine, of each kind. -/
def lambCmds : List Cmd := [
  cmdOf 3 1 0 [(2, 1), (2, 3), (2, 1), (2, 1), (2, 1), (2, 1), (2, 1)], cmdOf 3 2 0 [(4, 2), (4, 0), (4, 64)],
  cmdOf 3 3 0 [(2, 0), (2, 2), (2, 0), (2, 4), (2, 0), (2, 2)], cmdOf 3 5 0 [(2, 0), (2, 2)], cmdOf 3 7 0 [(2, 0), (2, 2), (1, 0), (1, 2)],
  cmdOf 3 4 0 [(2, 0), (2, 4)], cmdOf 3 6 0 [(2, 0), (2, 8), (1, 0), (1, 2), (1, 2)]]
def lambAt (d : LambImage) : State :=
  { doing 3 lambCmds with
    lambs := ({} : Table LambSt).put 0 {
      src := some (lambImage 0 4 4 2 64 8), win := some ⟨2, 2, 2, 2, 1, 1⟩, pad := some ⟨0, 0, 0, 0⟩, dst := some d, buf := List.replicate 256 0 }
    mem := ((({} : Mem).writeLe (storeAt 0) 4 0x40000000).writeLe (storeAt 12) 4 0x40800000).writeLe (storeAt 64) 4 0x40400000 }

theorem witness_LambSetsGeometryAndParameters : (lambAt (lambImage 64 0 0 8 64 32)).lambRuns 0 0 (.lgeom (.win 3 1 1 1 1 1)) = true ∧
    (lambAt (lambImage 64 0 0 8 64 32)).lambRuns 0 0 (.lwload ⟨2, 0, 64⟩) = true ∧
    lgeomValid (.win 1 1 1 1 1 1) = true ∧ lgeomValid (.pad 0 0 0 0) = true ∧ lgeomValid (.src 2 1 0 4 4 2 64 8) = true ∧
    lgeomValid (.dst 2 1 64 2 64 8) = true ∧ lwloadValid ⟨2, 0, 64⟩ = true ∧ lwloadFits ⟨2, 0, 64⟩ = true ∧
    running.readFault (storeAt 0) 64 = none ∧
    after (.lgeom 0 0 (.win 3 1 1 1 1 1)) (lambAt (lambImage 64 0 0 8 64 32))
      (fun t => (t.lamb 0).win == some ⟨3, 1, 1, 1, 1, 1⟩ && (t.lamb 0).pad == some ⟨0, 0, 0, 0⟩ && (t.lamb 0).completed == 1) = true ∧
    after (.lwload 0 0 ⟨2, 0, 64⟩) (lambAt (lambImage 64 0 0 8 64 32)) (fun t => (t.lamb 0).buf[3]? == some 0x40) = true := by
  decide +kernel

theorem witness_LambRearrangesAndPools : (∀ a, (lambAt (lambImage 64 0 0 8 64 32)).sharedAt a = false) ∧
    (∀ a, (lambAt (lambImage 64 0 0 8 64 32)).stackRefuses a = false) ∧
    ([PlanOp.patch ⟨⟨0, 2⟩, 0, 4, 0, 2⟩, .pool ⟨⟨0, 2⟩, 0⟩, .regroup ⟨⟨0, 2⟩, 0, 2⟩].all fun o =>
      (lambAt (lambImage 64 0 0 8 64 32)).lambRuns 0 0 o) = true ∧
    lambCommon (lambImage 0 4 4 2 64 8) (lambImage 64 0 0 8 64 32) (lambOw (lambImage 0 4 4 2 64 8) ⟨2, 2, 2, 2, 1, 1⟩ ⟨0, 0, 0, 0⟩)
      (lambOh (lambImage 0 4 4 2 64 8) ⟨2, 2, 2, 2, 1, 1⟩ ⟨0, 0, 0, 0⟩) ⟨0, 2⟩ true = true ∧
    patchFmts 1 1 = true ∧ floatFmts 1 1 = true ∧ regroupShape (lambImage 0 4 4 2 64 8) 0 2 = some (2, 2, 8) ∧
    after (.patch 0 0 ⟨⟨0, 2⟩, 0, 4, 0, 2⟩) (lambAt (lambImage 64 0 0 8 64 32))
      (fun t => t.mem.readLe (storeAt (4096 + 12)) 4 == 0x40800000 && t.mem.readLe (storeAt (4096 + 16)) 4 == 0x40400000) = true ∧
    after (.pool 0 0 ⟨⟨0, 2⟩, 0⟩) (lambAt (lambImage 64 0 0 2 64 8)) (fun t => t.mem.readLe (storeAt 4096) 4 == 0x40400000 &&
      t.mem.readLe (storeAt 4100) 4 == 0x40800000) = true ∧
    after (.regroup 0 0 ⟨⟨0, 2⟩, 0, 2⟩) (lambAt (lambImage 64 0 0 8 64 32))
      (fun t => t.mem.readLe (storeAt (4096 + 12)) 4 == 0x40800000 && t.mem.readLe (storeAt (4096 + 16)) 4 == 0x40400000) = true := by
  refine ⟨unshared rfl, all_present rfl, ?_⟩
  decide +kernel

/-- A BF16 source of 4 × 4 pixels of 2 channels, an identity window of one tap, and a destination of 2 BF16 channels. -/
def lambConv : State :=
  { doing 3 lambCmds with
    lambs := ({} : Table LambSt).put 0 {
      src := some ⟨2, 2, 0, 4, 4, 2, 64, 4⟩, win := some ⟨1, 1, 1, 1, 1, 1⟩, pad := some ⟨0, 0, 0, 0⟩, dst := some ⟨2, 2, 64, 0, 0, 2, 64, 4⟩,
      buf := List.replicate 129 0 ++ [0x40] ++ List.replicate 126 0 }
    mem := ({} : Mem).writeLe (storeAt 0) 2 0x4040 }

theorem witness_LambConvolvesAndResamples : lambConv.lambRuns 0 0 (.lconv ⟨⟨0, 4⟩, 0, false⟩) = true ∧
    lambConv.lambRuns 0 0 (.resample ⟨⟨0, 8⟩, 0, 2, 2⟩) = true ∧ lconvFmts 2 2 = true ∧
    lambCommon ⟨2, 2, 0, 4, 4, 2, 64, 4⟩ ⟨2, 2, 64, 0, 0, 2, 64, 4⟩ 4 4 ⟨0, 4⟩ true = true ∧
    lambWoff 2 + 2 * 1 * 1 * 2 * 2 ≤ 256 ∧ lambCommon (lambImage 0 4 4 2 64 8) (lambImage 64 0 0 2 64 8) 8 8 ⟨0, 8⟩ true = true ∧
    after (.lconv 0 0 ⟨⟨0, 4⟩, 0, false⟩) lambConv (fun t => t.mem.readLe (storeAt 4096) 2 == 0x40C0 && (t.lamb 0).completed == 1) = true ∧
    after (.resample 0 0 ⟨⟨0, 8⟩, 0, 2, 2⟩) (lambAt (lambImage 64 0 0 2 64 8))
      (fun t => t.mem.readLe (storeAt (4096 + 8)) 4 == 0x40000000 && t.mem.readLe (storeAt (4096 + 28)) 4 == 0x40800000) = true := by
  decide +kernel

/-! Adders, stacks, stores, the shape -/

def store0 : TargetId := ⟨0, 2⟩
/-- FP32 1.0 to lane 15 of the first line of the isle store of isle 0. -/
def part0 (slot slots : BitVec 12) : Contribution := ⟨0, slot, slots, false, 0, 0x8000, List.replicate 15 0 ++ [0x3F800000]⟩
def openLine0 : OpenLine := ⟨0, 0, 3, false, 0, 1, [0], List.replicate 64 0, {}, []⟩
def withAdder (a : AdderSt) : State := { running with adders := ({} : Table AdderSt).put 2 a, mem := ({} : Mem).writeLe (storeAt 60) 4 0x40000000 }

theorem witness_ReductionsAddOrPark : adderKey 0 2 = 2 ∧ adderAddr 2 0 = storeAt 0 ∧ (running.activeRun 0).isSome = true ∧
    (∀ a, running.sharedAt a = false) ∧ (∀ a, running.stackRefuses a = false) ∧ running.bad.rows = [] ∧ (part0 0 1).slots = 1 ∧ (part0 0 1).slot = 0 ∧
    (running.adder 2).lines.find? 0 = none ∧ ((withAdder { returned := [⟨0, srcAdder 2, part0 0 1⟩] }).adder 2).returned = [⟨0, srcAdder 2, part0 0 1⟩] ∧
    ((withAdder { lines := ({} : Table OpenLine).put 0 openLine0 }).adder 2).lines.find? 0 = some openLine0 ∧ openLine0.ordered = true ∧
    openLine0.added.contains 2 = false ∧ (part0 2 3).slot.toNat ≠ openLine0.next ∧ (part0 2 3).slot.toNat < openLine0.slots ∧
    after (.reduceContribution 0 store0 (part0 0 1)) (withAdder {})
      (fun t => t.mem.readLe (storeAt 60) 4 == 0x40400000 && (t.adder 2).lines.rows == []) = true ∧
    after (.reduceResend store0) (withAdder { returned := [⟨0, srcAdder 2, part0 0 1⟩] }) (fun t => t.mem.readLe (storeAt 60) 4 == 0x40400000) = true ∧
    after (.reduceContribution 0 store0 (part0 2 3)) (withAdder { lines := ({} : Table OpenLine).put 0 openLine0 })
      (fun t => (t.adder 2).park == [⟨0, srcAdder 2, part0 2 3⟩]) = true := by
  refine ⟨rfl, rfl, rfl, unshared rfl, all_present rfl, ?_⟩; decide +kernel

def st0 : StackId := ⟨0, 0⟩
def withStack (x : StackSt) : State := { fresh with hbm := ({} : Table StackSt).put 0 x }

theorem witness_StacksTrackHeatAndRepair : (withStack { trained := true }).stack 0 = { trained := true } ∧
    ([5] : List Nat).contains (5 : BitVec 19).toNat = true ∧ [5].Nodup ∧ (fresh.frame 5).count = 0 ∧
    after (.hbmDriftTrack st0) (withStack { trained := true }) (fun t => (t.stack 0).drifts == 1) = true ∧
    after (.hbmTemperatureReading st0 84) (withStack { trained := true }) (fun t => (t.stack 0).step == 0 && !(t.stack 0).doubleRefresh) = true ∧
    after (.hbmTemperatureReading st0 85) (withStack { trained := true }) (fun t => (t.stack 0).step == 1 && (t.stack 0).doubleRefresh) = true ∧
    after (.hbmTemperatureReading st0 95) (withStack { trained := true, step := 1 }) (fun t => (t.stack 0).step == 2) = true ∧
    after (.hbmTemperatureReading st0 105) (withStack { trained := true, step := 2 })
      (fun t => (t.stack 0).step == 3 && (t.stack 0).selfRefresh && (t.isle 0).pc == 0xFFFFFFFF00000000) = true ∧
    after (.hbmStackReturn st0 1 false 80) { withStack { selfRefresh := true, step := 3, coolSince := some 0 } with mem := ⟨[(7, 1)]⟩ }
      (fun t => !(t.stack 0).selfRefresh && (t.isle 0).pc == 0xFFFFFFFFFFFFFFFE && t.mem.cells == []) = true ∧
    after (.hbmRowRepair st0 5 true []) (withStack { trained := true, marked := [5] })
      (fun t => (t.stack 0).marked == [] && (t.stack 0).repaired == 1) = true ∧
    after (.hbmRowRepair st0 5 false []) (withStack { trained := true, marked := [5] })
      (fun t => (t.stack 0).marked == [] && (t.frame 5).retired) = true := by
  decide +kernel

def withStore (x : IsleStoreSt) : State := { fresh with stores := ({} : Table IsleStoreSt).put 0 x }
def cellA : Fin 2 × Fin 256 × Fin 512 := (0, 0, 0)
def oneFlip : ReadFinding := ⟨[(0, 1)], false⟩
def severe : ReadFinding := ⟨[], true⟩

theorem witness_ScrubsAndBankRotation : ((withStack { trained := true }).stack 0).serves = true ∧ 0x5FFFFFFC0 < classLimit 0 ∧
    fresh.scrubRead 0x5FFFFFFC0 (rsRead severe).1 = .uncorrectable ∧ fresh.scrubRead 0 (rsRead oneFlip).1 = .corrected ∧
    fresh.scrubRead 0 (rsRead .intact).1 = .clean ∧ fresh.scrubRead (storeAt 0) (secDed oneFlip) = .corrected ∧
    fresh.scrubRead (storeAt 0) (secDed severe) = .uncorrectable ∧ fresh.coreFree 0 = true ∧
    ((withStore {}).isleStore 0).due = some 0 ∧ ((withStore { migrating := some 4 }).isleStore 0).spare = some 32 ∧
    after (.hbmScrubPass (.hbm st0) 0x5FFFFFFC0 severe cellA false) (withStack { trained := true })
      (fun t => t.bad.rows == [(0x5FFFFFFC0, true)] && (t.stack 0).uncorrectable == 1) = true ∧
    after (.hbmScrubPass (.hbm st0) 0 oneFlip cellA false) { withStack { trained := true } with mem := ⟨[(0, 7)]⟩ }
      (fun t => t.mem.cells == [(0, 7)] && (t.stack 0).corrected == 1) = true ∧
    after (.hbmScrubPass (.isleStore 0) 0 oneFlip cellA false) (withStore {}) (fun t => (t.isleStore 0).corrected == 1) = true ∧
    after (.hbmScrubPass (.operandStore e0) 0 oneFlip cellA false) fresh (fun t => (t.engine 0).corrected == 1) = true ∧
    after (.hbmScrubPass (.bantamStore c0) 0 oneFlip cellA false) fresh (fun t => (t.bant 0).corrected == 1) = true ∧
    after (.bankRotationStep 0) (withStore {}) (fun t => (t.isleStore 0).migrating == some 0) = true ∧
    after (.bankMigrationDone 0) (withStore { migrating := some 4 })
      (fun t => (t.isleStore 0).testing == some 4 && (t.isleStore 0).spare == some 4 && (t.isleStore 0).place.get 4 4 == 32) = true ∧
    after (.bankTestDone 0 []) (withStore { testing := some 4, spare := some 4 }) (fun t => (t.isleStore 0).testing == none) = true := by
  decide +kernel

theorem witness_ShapeChangesTakeEffect : (fresh.isle 0).state ≠ .failed ∧ (fresh.isle 0).state ≠ .unlicensed ∧
    spareServes 7 0 = true ∧ ({ state := .out } : SoundSt).spareFailed.contains 0 = false ∧ fresh.olderRun = none ∧
    after (.isleHardFault 0 1) { fresh with mem := ⟨[(5, 1), (2 ^ 52 - 1, 1), (2 ^ 52, 1)]⟩, shape := { cur := { mask := 3 } } }
      (fun t => t.mem.cells == [(2 ^ 52, 1)] && t.shape.cur.mask == 2 && (t.isle 0).state == .failed) = true ∧
    after (.soundLaneSteering 0 7 0 true) { fresh with sounds := ({} : Table SoundSt).put 0 { state := .out } }
      (fun t => (t.sound 0).steered == [(7, 0)] && (t.sound 0).state == .inService) = true ∧
    after .shapeChangeProceed { fresh with shape := { cur := { mask := 3, out := [0] }, waiting := [.soundReturn 0] } }
      (fun t => (t.sound 0).state == .inService && t.shape.cur.out == []) = true ∧
    after .shapeChangeProceed { fresh with shape := { cur := { mask := 3 }, waiting := [.drain 1] } }
      (fun t => (t.isle 1).state == .draining && t.shape.cur.mask == 1) = true := by
  decide +kernel

/-! Straits -/

/-- Port 0 of a site that is on and released, with a link that is up. -/
def atPort (x : PortSt) (s : State) : State :=
  { s with
    strait := { s.strait with ports := s.strait.ports.put 0 x }
    power := { s.power with hold := s.power.hold.put (holdSite 0) .released } }
def lit (shift : Nat) (state : RingState) : PortSt :=
  { optic := .locked, lanes := List.range 32, rings := ({} : Table RingSt).put 0 { state := state, shift := shift } }

theorem witness_RingsLockAndFollow : (atPort (lit 5 .acquiring) fresh).siteOn 0 = true ∧ ((lit 5 .locked).ring 0).state = .locked ∧
    20 < (21 : Int).natAbs ∧ inMargin 107999 = true ∧ inMargin 972001 = true ∧ (lit 5 .locked).lanes.contains 0 = true ∧ (50 : Int).natAbs ≤ 50 ∧
    (∀ b, (lit 5 .locked).subst = some b → b.out = false) ∧ (lit 5 .locked).rings.keys.Nodup ∧
    ((lit 5 .held).ring 0).mayLockAt 9005 = true ∧ ((lit 5 .acquiring).ring 0).mayLockAt 900000 = true ∧ (lit 107999 .locked).hopDue 0 = true ∧
    after (.ringLockAcquired 0 0 9005) (atPort (lit 5 .held) fresh) (fun t => ((t.port 0).ring 0).shift == 9005 &&
      ((t.port 0).ring 0).state == .locked) = true ∧
    after (.ringLockAcquired 0 0 9006) (atPort (lit 5 .held) fresh) (fun t => ((t.port 0).ring 0).state == .held) = true ∧
    after (.ringUnlocked 0 0 (-21)) (atPort (lit 5 .locked) fresh) (fun t => ((t.port 0).ring 0).state == .held &&
      !(t.port 0).lanes.contains 0) = true ∧
    after (.ringRelockTimeout 0 0) (atPort (lit 5 .held) fresh) (fun t => ((t.port 0).ring 0).state == .acquiring) = true ∧
    after (.ringHop 0 0) (atPort (lit 107999 .locked) fresh) (fun t => ((t.port 0).ring 0).shift == 827999) = true ∧
    after (.ringHop 0 0) (atPort (lit 972001 .locked) fresh) (fun t => ((t.port 0).ring 0).shift == 252001) = true ∧
    after (.setPointTrim 0 0 (-50)) (atPort (lit 5 .locked) fresh) (fun t => ((t.port 0).ring 0).setPoint == -50) = true ∧
    after (.ringFeedForward 0 2500) { atPort (lit 540000 .locked) fresh with
        strait := { (atPort (lit 540000 .locked) fresh).strait with siteTemp := ({} : Table Int).put 0 2400 } }
      (fun t => ((t.port 0).ring 0).shift == 538600 && t.strait.siteTemp.find? 0 == some 2500) = true := by
  refine ⟨by decide +kernel, rfl, by decide, by decide, by decide, by decide, by decide, nofun, ?_⟩; decide +kernel

def substituting (out : Bool) : PortSt :=
  { lit 540000 .locked with
    subst := some ⟨3, 32, out⟩, due := [3], lanes := (List.range 32).erase 3
    lasers := (({} : Table LaserSt).put 3 { state := .carrying, lit := true }).put 32 { state := .spare, lit := true } }

theorem witness_LasersLanesAndCassettes : ((substituting false).laser 3).lit = true ∧ (substituting false).laneOf 3 = some 3 ∧
    ((substituting false).laser 3).state = .carrying ∧ { lit 540000 .locked with due := [3] }.spare = some 32 ∧
    (substituting true).sends 3 ≠ 32 ∧ (substituting true).tries.get (0, 0) 3 = (0, 0) ∧ (lit 5 .locked).dueSpare = some 32 ∧ ((lit 5 .locked).laser 32).state = .spare ∧
    2 ≤ (lit 5 .locked).lanes.length ∧ (fresh.cassette 0).present = true ∧
    after (.laserSubstitution 0 3) (atPort { lit 540000 .locked with due := [3] } fresh)
      (fun t => (t.port 0).subst == some ⟨3, 32, false⟩ && ((t.port 0).laser 32).lit) = true ∧
    after (.laneReturned 0 3) (atPort (substituting true) fresh) (fun t => (t.port 0).sends 3 == 32 && !((t.port 0).laser 3).lit &&
      (t.port 0).lanes.contains 3) = true ∧
    after (.substitutionTimeout 0 3) (atPort { substituting true with tries := ({} : Table (Nat × Nat)).put 3 (32, 1) } fresh)
      (fun t => ((t.port 0).laser 32).state == .failedSpare) = true ∧
    after (.lossOfLight 0 0) (atPort { lit 540000 .locked with rings := ({} : Table RingSt).put 32 { state := .locked }, link := .up } fresh)
      (fun t => (t.port 0).optic == .loss && ((t.port 0).ring 32).state == .held && (t.port 0).link == .retraining) = true ∧
    after (.lightRestored 0) (atPort { lit 540000 .locked with optic := .loss } fresh) (fun t => (t.port 0).optic == .acquiring) = true ∧
    after (.laneDark 0 0) (atPort (lit 5 .locked) fresh) (fun t => !(t.port 0).lanes.contains 0) = true ∧
    after (.laneDark 0 0) (atPort { lit 5 .locked with link := .up } fresh) (fun t => (t.port 0).lanes.contains 0 &&
      (t.port 0).linkCmds.any fun c => c.cmd == 2 && c.lane == 0 && c.mine) = true ∧
    after (.cassetteRemoved 7) fresh (fun t => !(t.cassette 7).present) = true ∧
    after (.cassetteInserted 7 ⟨[1], [50]⟩) { fresh with strait := { fresh.strait with
      cassettes := ({} : Table CassetteSt).put 7 { present := false } } } (fun t => (t.cassette 7).serial == [1] && (t.cassette 7).loss == [50]) = true := by
  decide +kernel

def peer1 : PeerId := ⟨[1], 1, 0, 1, 0⟩
/-- A received flit without slots, of a codeword with this many symbols in error. -/
def flit (seq symbols : Nat) : FlitIn := ⟨(⟨seq, false, [], 0, 0, 0, none⟩ : Flit).bytes 65535 false, 0, symbols⟩
def flits3 : List Flit := [⟨0, false, [], 0, 0, 0, none⟩, ⟨1, false, [], 0, 0, 0, none⟩, ⟨2, false, [], 0, 0, 0, none⟩]
/-- Port 0, up, with 32 lanes whose rings are locked. -/
def up (x : PortSt) : PortSt :=
  { x with link := .up, optic := .locked, lanes := List.range 32, rings := Table.ofList 0 (List.replicate 64 { state := .locked }) }

theorem witness_LinksComeUpAndKeepOrder : 16 ≤ ((up {}).agreedLanes 0xFFFF).length ∧ (atPort (up {}) fresh).siteOpen 0 = true ∧
    fresh.straitLoop 0 ≠ 1 ∧ (readLink (flit 65535 15).bytes).kind = 0 ∧ (readLink (flit 65535 15).bytes).seq = 65535 ∧
    (readLink (flit 65535 15).bytes).nak = false ∧ flitIntact (flit 65535 15).bytes = true ∧ flitReserved (flit 65535 15).bytes = false ∧
    fresh.inject.armed = false ∧ (up { linkCmds := [⟨1, 3, 2, 32, true⟩] }).agreed 1 3 2 = some ⟨1, 3, 2, 32, true⟩ ∧
    (∀ k, k < 32 → k ≠ 3 → (up {}).receives k ≠ 32) ∧
    (up {}).laneLocked 3 = true ∧ ((up {}).laser ((up {}).sends 3)).state = .carrying ∧
    after (.linkBringUp 0 peer1 ⟨0xFFFF, 80⟩) (atPort { up {} with link := .training } fresh)
      (fun t => (t.port 0).link == .up && (t.port 0).lanes == List.range 16 && t.out.identity.length == 1) = true ∧
    after (.flitReceive 0 (flit 65535 15)) (atPort (up { rxSeq := 65535 }) fresh) (fun t => (t.port 0).rxSeq == 0) = true ∧
    after (.flitReceive 0 (flit 65535 16)) (atPort (up { rxSeq := 65535 }) fresh)
      (fun t => (t.port 0).rxSeq == 65535 && (t.port 0).nakReq) = true ∧
    after (.flitReceive 0 { flit 65535 0 with bytes := flipBits (flit 65535 0).bytes [300] }) (atPort (up { rxSeq := 65535 }) fresh)
      (fun t => (t.port 0).rxSeq == 65535 && (t.port 0).nakReq) = true ∧
    after (.replayTimeout 0) (atPort (up { replayBuf := flits3, replays := 7 }) fresh)
      (fun t => (t.port 0).replays == 8 && (t.port 0).replayed == 3 && (t.port 0).link == .up && t.out.strait.length == 3) = true ∧
    after (.replayTimeout 0) (atPort (up { replayBuf := flits3, replays := 8 }) fresh) (fun t => (t.port 0).link == .retraining) = true ∧
    after (.retrainTimerExpiry 0) (atPort { up {} with link := .retraining } fresh) (fun t => (t.port 0).link == .training) = true ∧
    after (.laneMove 0 3 32 2) (atPort (up { subst := some ⟨3, 32, false⟩, linkCmds := [⟨1, 3, 2, 32, true⟩] }) fresh)
      (fun t => (t.port 0).subst == some ⟨3, 32, true⟩ && !(t.port 0).lanes.contains 3 && (t.port 0).linkCmds == []) = true ∧
    after (.laneMove 0 3 32 2) (atPort (up { linkCmds := [⟨1, 3, 2, 32, false⟩] }) fresh)
      (fun t => (t.port 0).peerMove == some (3, 3) && (t.port 0).receives 3 == 32) = true ∧
    after (.laneDrop 0 3 2) (atPort (up { linkCmds := [⟨2, 3, 2, 0, false⟩] }) fresh) (fun t => !(t.port 0).lanes.contains 3) = true ∧
    after (.laneAdd 0 3 2) (atPort { up { linkCmds := [⟨3, 3, 2, 0, false⟩] } with lanes := [0] } fresh)
      (fun t => (t.port 0).lanes.contains 3) = true ∧
    after (.laneErrors 0 3) (atPort (up {}) fresh) (fun t => (t.port 0).linkCmds.any fun c => c.cmd == 2 && c.lane == 3 && c.mine) = true := by
  decide +kernel

/-! Windows, plan images, entries -/

def le (n v : Nat) : List Byte := leBytes n v
def windowCmd (mode rights unit key base span : Nat) : Cmd :=
  { cmd0 with cls := 5, opcode := 1, ops := [BitVec.ofNat 8 mode, BitVec.ofNat 8 rights, BitVec.ofNat 8 unit, 0] ++ le 4 key ++ le 8 base ++ le 4 span }

/-- A plan image: one lease of isle 0, one isle-control strand of one NOP, one IMAGE list of one null entry, one counter. -/
def image (bound : Nat) : List Byte :=
  le 4 0x4C505856 ++ le 2 1 ++ le 2 1 ++ le 4 1 ++ le 4 424 ++ le 4 256 ++ le 2 1 ++ le 2 1 ++ le 4 288 ++ le 4 320 ++ le 4 1 ++ le 4 352 ++ le 4 1 ++
  le 4 0 ++ le 8 1000 ++ le 8 0 ++ le 4 1 ++ le 4 0 ++ le 8 0 ++ le 8 bound ++ le 8 7 ++ List.replicate 160 0 ++
  (List.replicate 16 0 ++ le 2 0 ++ le 2 1 ++ List.replicate 12 0) ++
  ([0, 6, 0, 0] ++ le 4 384 ++ le 4 1 ++ le 4 0 ++ List.replicate 16 0) ++
  (le 4 416 ++ [0, 1, 0, 0] ++ le 4 1 ++ List.replicate 20 0) ++
  List.replicate 32 0 ++
  ([1, 6] ++ List.replicate 30 0) ++ List.replicate 8 0xFF

/-- Windows of port 0: HBM page 0 exported with key 1 to pod 1, counters 0 to 15 exported with key 2, and pod 1's HBM page 0 and counters
imported. -/
def peerCmds : List Cmd := [
  windowCmd 1 7 1 1 0 1, windowCmd 3 8 1 2 0 16, windowCmd 0 7 1 3 (2 ^ 58) 1, windowCmd 2 8 1 4 (2 ^ 58) 16,
  cmdOf 5 2 64 [(6, 2 ^ 42), (6, 0), (2, 1), (3, 4096)], cmdOf 5 3 64 [(6, 2 ^ 42), (6, 0), (2, 1), (3, 4096)],
  cmdOf 5 4 64 [(6, 2 ^ 42), (6, 0), (2, 1), (3, 4096)], cmdOf 5 5 0 [], cmdOf 5 6 0 [(1, 1), (1, 0), (2, 15), (2, 1023)]]
def peering : Plan := plan0 [⟨0xFF, 5, 0, 0, 9, peerCmds⟩]
def serving (p : Plan) (r : Run) : State :=
  { withRun p r fresh with isles := ({} : Table IsleSt).put 0 { state := .serving }, pcOwner := Table.ofList 0 (List.replicate 64 0) }
/-- The run of the plan above, with every command in flight. -/
def peerRun : Run := { lists 0 with strands := ({} : Table StrandRun).put 0 ⟨9, 0⟩ }
/-- Port 0 is up, and the plan above runs with the windows installed. -/
def linked (x : PortSt) : State := atPort { up x with link := .up } (serving peering peerRun)
/-- A request at the front of the port's buffer. -/
def asked (t : Tx) : State := linked { reqs := [t] }
/-- What the port's flits carry. -/
def carried (t : State) : List (List Byte) := (t.port 0).replayBuf.flatMap (·.slots)
def ask (key len : Nat) (addr : Nat) : ReqHeader := ⟨⟨1, 0, 1⟩, 5, BitVec.ofNat 32 key, BitVec.ofNat 64 addr, BitVec.ofNat 16 len⟩

def admits (t : Tx) : Bool := match (linked {}).checkRequest 0 t with
  | .ok 0 => true
  | _ => false

theorem witness_RemoteRequestsArePerformed : ((linked {}).port 0).link = .up ∧ (∀ a, (linked {}).sharedAt a = false) ∧
    (∀ a, (linked {}).stackRefuses a = false) ∧ admits (reqTx (ask 1 4096 0xF000) .read) ∧
    admits { reqTx (ask 1 2 2) .write with operand := 2, data := [8, 9] } ∧
    admits { reqTx (ask 1 64 64) .reduce with operand := reduceField 0 1 0 false } ∧
    admits (reqTx (ask 2 0 (15 + 1023 * 2 ^ 18)) .token) ∧
    (linked {}).holds 0 = false ∧ ((linked {}).port 0).held = none ∧
    ((linked {}).activeRun 0).isSome = true ∧ (linked {}).adder 0 = {} ∧ (linked {}).bad.rows = [] ∧
    after (.straitRead 0 (ask 1 2 2)) { asked (reqTx (ask 1 2 2) .read) with mem := ⟨[(3, 7)]⟩ }
      (fun t => carried t == (⟨.data, 2, ⟨1, 0, 1⟩, 5, 0, 0, 0, 0, [0, 7]⟩ : Tx).slotBytes) = true ∧
    after (.straitWrite 0 (ask 1 2 2) 2 [8, 9]) (asked { reqTx (ask 1 2 2) .write with operand := 2, data := [8, 9] })
      (fun t => t.mem.cells == [(3, 9)] && (t.port 0).toAck == 1 && (t.port 0).reqs == []) = true ∧
    after (.straitReduce 0 (ask 1 64 64) 0 1 0 false (le 4 0x3F800000 ++ List.replicate 60 0)) { asked { reqTx (ask 1 64 64) .reduce with
        operand := reduceField 0 1 0 false, data := le 4 0x3F800000 ++ List.replicate 60 0 } with mem := ⟨[(66, 0x80), (67, 0x3F)]⟩ }
      (fun t => t.mem.readLe 64 4 == 0x40000000) = true ∧
    after (.straitToken 0 (ask 2 0 15) 1023 false) (asked (reqTx (ask 2 0 (15 + 1023 * 2 ^ 18)) .token)) (fun t => t.token 0 15 == 1023) = true ∧
    after (.straitFence 0 ⟨1, 0, 1⟩ 6) (linked { reqs := [{ kind := .fence, epoch := ⟨1, 0, 1⟩, tag := 6 }], refused := [⟨1, 0, 1⟩] })
      (fun t => (t.port 0).refused == [] && carried t == (⟨.fenceDone, 0, ⟨1, 0, 1⟩, 6, 0, 0, 0, 6, []⟩ : Tx).slotBytes) = true := by
  refine ⟨rfl, unshared rfl, all_present rfl, ?_⟩; decide +kernel

/-- 12, Table 8; R160: a slot at or above SLOTS is refused, and the exporting job halts. -/
theorem test_remote_slot_error_halts : after (.straitReduce 0 (ask 1 64 64) 1 1 0 false (List.replicate 64 0))
    (asked { reqTx (ask 1 64 64) .reduce with operand := reduceField 1 1 0 false, data := List.replicate 64 0 })
    (fun t => (t.port 0).naksOut == 1 && ((t.ctx 0).run.bind (·.halted)) == some 0x350 && t.mem.cells == []) = true := by decide +kernel

def outstanding (kind : TxKind) (land : Landing) : Request := ⟨{ kind := kind, epoch := ⟨0, 0, 1⟩, tag := 9, len := 2 }, 0, 1, 1, land⟩

/-- A read of page 0, outstanding. -/
def read0 : Request := outstanding .read (.mem 0 noPlace noPlace)
def write0 : Request := outstanding .write .nowhere
/-- A completion at the front of the response buffer. -/
def back (kind : TxKind) (cause : Nat) (data : List Byte) : Tx := { kind := kind, len := data.length, epoch := ⟨0, 0, 1⟩, tag := 9, cause := cause, data := data }
def answered9 (q : Request) (m : Tx) : State := linked { open_ := [q], rsps := [m] }

theorem witness_RemoteCompletionsSettleRequests : ((linked { open_ := [read0] }).port 0).queue = [] ∧
    ({ open_ := [read0] } : PortSt).findTag 9 (· == .read) = some read0 ∧
    (linked {}).isRun 0 1 = true ∧ (linked {}).writeFault 0 2 = none ∧ [write0].Nodup ∧
    ({ open_ := [write0] } : PortSt).findTag 9 isPosted = some write0 ∧ ({ open_ := [write0] } : PortSt).findTag 9 (· != .fence) = some write0 ∧
    ({ open_ := [outstanding .fence .nowhere] } : PortSt).findTag 9 (· == .fence) = some (outstanding .fence .nowhere) ∧
    ({ rsps := [back .data 0 [1, 2]] } : PortSt).completes .data 9 0 [1, 2] = true ∧ ({ rsps := [back .ack 0 []] } : PortSt).completes .ack 9 0 [] = true ∧
    ({ rsps := [back .nak 6 []] } : PortSt).completes .nak 9 6 [] = true ∧ ({ rsps := [back .fenceDone 0 []] } : PortSt).completes .fenceDone 9 0 [] = true ∧
    after (.completionReadData 0 9 [1, 2]) (answered9 read0 (back .data 0 [1, 2]))
      (fun t => t.mem.cells == [(0, 1), (1, 2)] && (t.port 0).open_ == [] && (t.port 0).rsps == []) = true ∧
    after (.completionReadData 0 9 [1, 0x80]) { answered9 (outstanding .read (.reg 0 3 2 true)) (back .data 0 [1, 0x80]) with
        cores := ({} : Table CoreSt).put 0 { waiting := true } }
      (fun t => !(t.core 0).waiting && (t.core 0).greg 3 == 0xFFFFFFFFFFFF8001) = true ∧
    after (.remoteReadTimeout 0 9) (linked { open_ := [read0] }) (fun t => (t.ctx 0).run.any (·.halted == some 0x42A)) = true ∧
    after (.completionAck 0 9) (answered9 write0 (back .ack 0 [])) (fun t => (t.port 0).open_ == []) = true ∧
    after (.postedRequestTimeout 0 9) (linked { open_ := [write0] }) (fun t => (t.ctx 0).run.any (·.poisoned)) = true ∧
    after (.completionNak 0 9 6) (answered9 write0 (back .nak 6 []))
      (fun t => (t.ctx 0).run.any (·.poisoned) && (t.ctx 0).postedFailed == 1 && (t.port 0).naksIn == 1) = true ∧
    after (.completionFenceDone 0 9 0) (answered9 (outstanding .fence .nowhere) (back .fenceDone 0 [])) (fun t => (t.port 0).open_ == []) = true ∧
    after (.ackSend 0) (linked { toAck := 3, lastTag := 9 })
      (fun t => (t.port 0).toAck == 0 && carried t == (⟨.ack, 0, ⟨0, 0, 0⟩, 9, 0, 0, 0, 0, []⟩ : Tx).slotBytes) = true := by
  decide +kernel

/-- The plan above with its link down; an RGET of pod 1's first page into list 0. -/
def unlinked (x : PortSt) : State := atPort { x with link := .training } (serving peering peerRun)
def remoteOps0 : RemoteOps := ⟨true, BitVec.ofNat 48 (2 ^ 42), 0, 1, 0, 1, 0, false⟩

theorem witness_StraitCommandsQueueRequests : ([PlanOp.rget remoteOps0, .rput remoteOps0, .rreduce remoteOps0, .rfence, .rsignal ⟨1, 0, 15, 1023⟩].all fun o =>
      (unlinked {}).portRuns 0 0 o == some peerRun) = true ∧ ((unlinked {}).port 0).link ≠ .up ∧
    windowValid 0 ⟨1, 7, 1, 1, 0, 1⟩ = true ∧ remoteValid 0 remoteOps0 = true ∧ remoteOps0.slots ≠ 0 ∧
    (lists 0).sidePage true (localSide remoteOps0) 0 = some 0 ∧
    ((unlinked {}).remoteWindow 0 0 .read remoteOps0).isSome = true ∧ ((unlinked {}).remoteWindow 0 0 .write remoteOps0).isSome = true ∧
    ((unlinked {}).remoteWindow 0 0 .reduce remoteOps0).isSome = true ∧ rsignalValid 0 ⟨1, 0, 15, 1023⟩ = true ∧
    (peering.tokenImport 0 1 0 15).isSome = true ∧ (unlinked {}).postedOpen 0 1 = false ∧
    ({ open_ := [outstanding .write .nowhere] } : PortSt).postedOpen 0 1 = true ∧ ({ open_ := [outstanding .write .nowhere] } : PortSt).fencing 0 1 = false ∧
    after (.rget 0 0 remoteOps0) (unlinked {}) (fun t => ((t.port 0).queue.map fun q => (q.tx.kind, q.tx.addr - 2 ^ 58, q.land)) ==
      (List.range 16).map fun j => (.read, j * 4096, .mem (j * 4096) 0 0)) = true ∧
    after (.rput 0 0 remoteOps0) { unlinked {} with mem := ⟨[(4096, 5)]⟩ }
      (fun t => ((t.port 0).queue.map fun q => q.tx.data.take 1) == [[0], [5]] ++ List.replicate 14 [0]) = true ∧
    after (.rsignal 0 0 ⟨1, 0, 15, 1023⟩) (unlinked {})
      (fun t => ((t.port 0).queue.map fun q => (q.tx.kind, q.tx.addr, q.tx.key)) == [(.token, 15 + 1023 * 2 ^ 18, 4)]) = true ∧
    after (.rfence 0 0) (unlinked { open_ := [outstanding .write .nowhere] }) (fun t => ((t.port 0).queue.map fun q => q.tx.kind) == [.fence])
      = true := by
  decide +kernel

/-! The bridge -/

def f0 : FnId := ⟨0, 0⟩
def withCtx (x : CtxSt) (s : State) : State := { s with ctxs := s.ctxs.put 0 x }
/-- A fabric of one isle, edge of bridge 0, at level 2, with bridge 0 up. -/
def hosted : State :=
  { fresh with
    shape := { cur := { epoch := 1, mask := 2 ^ 64 - 1 }, published := true, level := 2 }, cards := ({} : Table CardSt).put 0 { link := .up } }
def entryBytes (op flags : Nat) (r : List Byte) : List Byte := le 1 op ++ le 1 flags ++ le 2 9 ++ le 4 0 ++ r ++ List.replicate (56 - r.length) 0
def loadEntry : List Byte := entryBytes 1 0 (le 8 0 ++ le 4 424)
def unloadEntry : List Byte := entryBytes 3 0 (List.replicate 24 0 ++ le 8 7)
/-- A LAUNCH with one IN descriptor. -/
def launchEntry : List Byte := entryBytes 2 1 (le 8 64 ++ le 2 1 ++ List.replicate 14 0 ++ le 8 7)

theorem witness_ContextRegistersControlRings : fresh.ownedCtx f0 0 = some 0 ∧ (fresh.card 0).present = true ∧
    (fresh.ctx 0).state = .empty ∧ (running.ctx 0).state = .running ∧ running.activeRun 0 = some run0 ∧
    after (.ctxOwner f0 0 15) fresh (fun t => (t.ctx 0).owner == 15) = true ∧
    after (.ctxOwner f0 0 15) running (fun t => (t.ctx 0).owner == 0 && (t.fn 0).configError) = true ∧
    after (.ctxDoorbell f0 0 3) (withCtx { ringSize := 4, cons := 0xFFFFFFFF } fresh) (fun t => !(t.ctx 0).ringError && (t.ctx 0).doorbell == 3) = true ∧
    after (.ctxDoorbell f0 0 4) (withCtx { ringSize := 4, cons := 0xFFFFFFFF } fresh) (fun t => (t.ctx 0).ringError && (t.fn 0).ringError) = true ∧
    after (.ctxStop f0 0) running (fun t => (t.ctx 0).run.any (·.halted == some 0x642)) = true := by
  decide +kernel

theorem witness_EntriesLoadAndUnloadPlans : (withCtx { enable := true, ringSize := 2, doorbell := 1 } hosted).mayFetch 0 = true ∧
    loadEntry.length = 64 ∧ (parseEntry loadEntry).valid = true ∧ (parseEntry loadEntry).accepted {} = true ∧
    (parseEntry (entryBytes 4 0 [])).valid = false ∧ (parseEntry loadEntry).imageLength = 424 ∧ (image 37500).length = 424 ∧
    hosted.linkUp 0 = true ∧ hosted.boot.restarting = false ∧ validate hosted (image 37500) (parsePlan (image 37500)) = none ∧
    hosted.loadWaits (parsePlan (image 37500)) = false ∧
    (withCtx { clearing := [plan0 []] } hosted).loadWaits (parsePlan (image 37500)) = true ∧
    hosted.recheck (parsePlan (image 37500)) = none ∧ hosted.admission 0 (parsePlan (image 37500)) = none ∧
    validate hosted (image 37501) (parsePlan (image 37501)) = some (0x60E, [80, 0, 0, 0]) ∧ (parseEntry unloadEntry).valid = true ∧
    after (.entryFetch 0 (.data loadEntry)) (withCtx { enable := true, ringSize := 2, doorbell := 1 } hosted)
      (fun t => (t.ctx 0).state == .loading) = true ∧
    after (.load 0 (.data (image 37500))) (withCtx { state := .loading, entry := some (parseEntry loadEntry) } hosted)
      (fun t => (t.ctx 0).state == .loaded && (t.ctx 0).cons == 1 && (t.ctx 0).plan.any (·.header.planId == 7)) = true ∧
    after (.load 0 (.data (image 37501))) (withCtx { state := .loading, entry := some (parseEntry loadEntry) } hosted)
      (fun t => (t.ctx 0).state == .empty && (t.ctx 0).cons == 1) = true ∧
    after (.unload 0) (withCtx { state := .loaded, plan := some (plan0 []), entry := some (parseEntry unloadEntry) } hosted)
      (fun t => (t.ctx 0).state == .empty && (t.ctx 0).clearing.length == 1) = true := by
  decide +kernel

/-- One IN copy of one page to list 0, signalling counter 0 by 1023. -/
def inTable0 : List Byte := le 8 0x1000 ++ le 8 0 ++ le 2 1 ++ le 2 0 ++ le 2 0 ++ [0, 0] ++ le 2 1023 ++ List.replicate 6 0
def planI : Plan := parsePlan (image 37500)
def loadedCtx (e : Option Entry) (r : Option Run) : CtxSt := { state := .loaded, plan := some planI, entry := e, run := r, runNo := 65535 }
def waitingRun : Run := { number := 0, tag := 9, start := 0, accepted := false }

/-- A result that is an answer. -/
theorem answered {ε α β : Type} {x : Except ε (α × β)} (h : x.toBool = true) : ∃ u l, x = .ok (u, l) := by
  rcases x with e | ⟨u, l⟩
  · cases h
  · exact ⟨u, l, rfl⟩

theorem witness_LaunchesReserveAndBegin : hosted.linkUp 0 = true ∧ (parseEntry launchEntry).op = 2 ∧ (parseEntry launchEntry).valid = true ∧
    tableBytes (parseEntry launchEntry).hasIn (parseEntry launchEntry).inCount (.data inTable0) = some (some inTable0) ∧
    tableBytes (parseEntry launchEntry).hasOut (parseEntry launchEntry).outCount .failed = some (some []) ∧
    badCopy planI true inTable0 1 = none ∧ badCopy planI false [] 0 = none ∧ ((copiesOf inTable0 1).map (·.count)).sum = 1 ∧
    ({ stagingFree := 1, stagingQueue := [0] } : CardSt).stagingQueue.head? = some 0 ∧ (List.replicate 65536 (0 : Byte)).length = 1 * 65536 ∧
    waitingRun.accepted = false ∧ hosted.rateWaits planI = false ∧ (hosted.fn 0).pend.length + (hosted.fn 0).reserved + 2 ≤ 1024 ∧
    (hosted.fn 0).holm = [] ∧ hosted.launchShape planI = none ∧ (leaseUnhealthy hosted planI).any (·.1) = false ∧ hosted.peersFit planI = true ∧
    (∃ u l, (withCtx (loadedCtx none (some waitingRun)) hosted).fillLists 0 planI = .ok (u, l)) ∧
    after (.launch 0 .failed .failed (.data [])) (withCtx (loadedCtx (some (parseEntry (entryBytes 2 0 (List.replicate 24 0 ++ le 8 7)))) none) hosted)
      (fun t => (t.ctx 0).run.any (fun r => !r.accepted && r.tag == 9)) = true ∧
    after (.launchAccept 0) (withCtx (loadedCtx none (some waitingRun)) hosted)
      (fun t => (t.ctx 0).state == .running && (t.ctx 0).runNo == 0 && (t.ctx 0).run.any (fun r => r.accepted && r.number == 0)) = true := by
  refine ⟨by decide, by decide +kernel, by decide +kernel, by decide +kernel, by decide +kernel, by decide +kernel, by decide +kernel, by decide +kernel, by decide +kernel,
    List.length_replicate, by decide +kernel, by decide +kernel, by decide +kernel, by decide +kernel, by decide +kernel, by decide +kernel,
    by decide +kernel, answered (by decide +kernel), ?_⟩
  decide +kernel

def copy0 : HostCopy := ⟨0x1000, 0, 0, 1, 5, 0, 7⟩
/-- The run of list 0 at page 0x20000 with copies, bridge 0 up. -/
def copying (r : Run) : State := { withRun (plan0 []) { r with lists := (lists 0x20000).lists } fresh with cards := hosted.cards, tokens := ({} : Table Nat).put 5 7 }

theorem witness_HostCopiesMoveStagedPages : (copying { run0 with ins := [copy0] }).linkUp 0 = true ∧
    (List.replicate 65536 (0 : Byte)).length = copy0.count * 65536 ∧ (lists 0x20000).entry 0 0 = some 0x20000 ∧
    (∀ a, ({ fresh with frames := {} } : State).sharedAt a = false) ∧ (copying run0).token 0 5 + copy0.value ≤ 65535 ∧
    copy0.value ≤ (copying run0).token 0 5 ∧ run0.outStarted.rows = [] ∧
    (∀ m e, m < 0 → ({ run0 with outs := [copy0] } : Run).outs[m]? = some e → False) ∧
    ({ run0 with outs := [copy0], outStarted := ({} : Table Nat).put 0 1 } : Run).outStarted.rows = [(0, 1)] ∧
    after (.outCopyStart 0 0) (copying { run0 with outs := [copy0] })
      (fun t => (t.ctx 0).run.any (fun r => r.outStarted.rows == [(0, 1)]) && (t.card 0).stagingFree == 131071) = true ∧
    after (.outCopyComplete 0) (copying { run0 with outs := [{ copy0 with count := 0 }], outStarted := ({} : Table Nat).put 0 1 })
      (fun t => (t.ctx 0).run.any (fun r => r.outDone.get false 0)) = true := by
  refine ⟨by decide +kernel, List.length_replicate, by decide +kernel, unshared rfl, by decide +kernel, by decide +kernel, by decide, nofun, by decide, ?_⟩
  decide +kernel

/-- Contexts 0 and 1 run plans with a strand on Ox engine 0 of isle 0. -/
def shared : State :=
  let x : CtxSt := { state := .running, plan := some (plan0 [strand0 1 [cmd0]]), run := some run0 }
  { fresh with ctxs := (({} : Table CtxSt).put 0 x).put 1 x, grants := ({} : Table GrantSt).put 0 { served := 1, holder := some 0 } }

theorem witness_GrantsAndClearedLeases : (shared.activeRun 0).isSome = true ∧ (plan0 [strand0 1 [cmd0]]).usesShared (sharedUnit ⟨0, 0⟩) = true ∧
    (shared.grant 0).holder ≠ some 1 ∧ (withCtx { clearing := [plan0 []] } fresh).ctx 0 = { clearing := [plan0 []] } ∧
    after (.stintGrant ⟨0, 0⟩ [⟨0, 1⟩, ⟨1, 5⟩]) shared (fun t => (t.grant 0).holder == some 1 && (t.ctx 1).account.stints == 1) = true ∧
    shared.stintReady 0 1 = true ∧ shared.midStint 0 = false ∧ shared.grantDue 0 = false ∧
    after (.stintGrant ⟨0, 0⟩ [⟨0, 1⟩]) shared (fun t => t.grant 0 == { shared.grant 0 with due := some 1 }) = true ∧
    after (.commandWaitMet 0 0) shared (fun t => t == shared) = true ∧
    after (.commandWaitMet 0 0) { shared with grants := ({} : Table GrantSt).put 0 { holder := some 0, due := some 1 } }
      (fun t => (t.grant 0).due == none && (t.ctx 0).run.any (fun r => (r.strand 0).started == 1)) = true ∧
    after (.leaseClearDone 0 []) { withCtx { clearing := [plan0 []] } fresh with
        mem := ⟨[(5, 1), (2 ^ 52, 1)]⟩, tokens := (({} : Table Nat).put 4095 3).put 4096 3 }
      (fun t => t.mem.cells == [(2 ^ 52, 1)] && t.token 0 4095 == 0 && t.token 1 0 == 3 && (t.ctx 0).clearing == []) = true := by
  decide +kernel

def rec0 : Rec := hosted.form 2 0x513 2 srcUnit none 0 0 false (.values [])
def withFn (x : FnSt) (s : State) : State := { s with fns := s.fns.put 0 x }
def evq (f : FnSt) : FnSt := { f with evqEnable := true, evqSize := 4, evqBase := 0x4000, evqProdAddr := 0x80 }
/-- Segment 0 of function 0 maps HBM offset 0 of isle 0, which serves. -/
def mapped (v : Word) : State :=
  { withFn { segments := ({} : Table Word).put 0 v } hosted with isles := ({} : Table IsleSt).put 0 { state := .serving } }

theorem witness_EventQueuesSegmentsAndMailboxes : (hosted.card 0).present = true ∧ rec0.cls ≠ 1 ∧ (∀ y, rec0.payload ≠ .completion y) ∧
    evqRoom (evq { prod := 3, pend := [rec0] }) = 1 ∧ (evq { prod := 3, pend := [rec0] }).evqSize ≠ 0 ∧ bit (1 : Word).toNat 0 = true ∧
    unitOf 1 = hosted.unitNo ∧ (mapped 1).isleServing 0 = true ∧ (mapped 1).power.isle.get .i3 0 ≠ .i2 ∧
    (mapped 1).power.hold.get .unpowered (holdIsle 0) ≠ .held ∧ (mapped 1).bar2May f0 0 = true ∧ (mapped 1).badIn 0 64 = none ∧
    (mapped 1).badMerge 0 1 = none ∧ (mapped 1).sharedAt 0 = false ∧
    after (.evqCons f0 2) hosted (fun t => (t.fn 0).evqCons == 2) = true ∧
    after (.evqRecordWrite f0) (withFn (evq { prod := 3, pend := [rec0], modCount := 1, msixTable := ({} : Table Word).put 12 0 }) hosted)
      (fun t => t.out.host == [.record (0x4000 + 3 * 64) rec0, .index 0x80 4] && t.out.msix == [(0, 0)] && (t.fn 0).pend == []) = true ∧
    after (.evqRecordWrite f0) (withFn (evq { prod := 3, pend := [rec0], modCount := 1 }) hosted)
      (fun t => t.out.msix == [] && bit (t.fn 0).msixPba 0) = true ∧
    after (.bar2SegmentWrite f0 0 0x2000000000001) hosted (fun t => (t.fn 0).configError) = true ∧
    after (.bar2SegmentWrite f0 0 0x1000007FFFFFF) hosted (fun t => (t.fn 0).segments.get 0 0 == 0x1000004000001) = true ∧
    after (.bar2Access f0 0 0 3 (.read 2)) { mapped 1 with mem := ⟨[(4, 9)]⟩ } (fun t => t.out.bar2 == [(0, [0, 9])]) = true ∧
    after (.bar2Access f0 0 0 3 (.read 2)) (mapped 0) (fun t => t.out.bar2 == [(0, [0xFF, 0xFF])]) = true ∧
    after (.bar2Access f0 0 0 3 (.write [7])) (mapped 1) (fun t => t.mem.cells == [(3, 7)]) = true ∧
    after (.mbxDoorbell f0 1) hosted (fun t => (t.fn 0).mbxNotReady) = true ∧
    frameError 1 [0, 0x20, 0] = none ∧ frameError 7 [] = some 1 ∧
    after (.mbxDoorbell f0 1) { withFn { mbxReq := [1, 3, 0, 0x20, 0] } hosted with boot := { hosted.boot with holmReady := true } }
      (fun t => (t.fn 0).mbxBusy) = true ∧
    after (.mbxDoorbell f0 1) { withFn { mbxBusy := true } hosted with boot := { hosted.boot with holmReady := true } }
      (fun t => (t.fn 0).mbxOverrun) = true := by
  refine ⟨by decide, by decide +kernel, nofun, ?_⟩; decide +kernel

def cardState (x : CardSt) : State := { running with cards := ({} : Table CardSt).put 0 x }
def heldCtx : State := withCtx { state := .haltedLink } (cardState { link := .up, heldSerial := some [] })

theorem witness_CardsComeAndGo : ((cardState { link := .up }).card 0).present = true ∧ (cardState { link := .up }).linkUp 0 = true ∧
    running.ownerFn 0 = 0 ∧ (heldCtx.card 0).heldSerial = some (heldCtx.card 0).serial ∧ (heldCtx.ctx 0).state = .haltedLink ∧
    after (.functionReset f0) (cardState { link := .up }) (fun t => (t.ctx 0).state == .empty && (t.ctx 0).plan == none) = true ∧
    after (.perstRelease 0 false) (cardState {}) (fun t => (t.card 0).sris && (t.card 0).crsUntil == 125000000) = true ∧
    after (.bridgeRemoved 0) (cardState { link := .up, serial := [4] })
      (fun t => (t.ctx 0).state == .haltedLink && (t.card 0).heldSerial == some [4] && (t.ctx 0).run.any (·.halted == some 0x502)) = true ∧
    after (.shoreLinkRetryExpiry 0) (cardState { link := .retrying }) (fun t => !(t.card 0).present && (t.ctx 0).state == .haltedLink) = true ∧
    after (.bridgeInserted 0 [5] []) (cardState { present := false }) (fun t => (t.card 0).serial == [5] && (t.card 0).link == .training) = true ∧
    after (.shoreLinkUp 0) (cardState { link := .training }) (fun t => (t.card 0).link == .up && (t.card 0).stagingReady) = true ∧
    after (.shoreLinkRetrain 0) (cardState { link := .up }) (fun t => (t.ctx 0).run.any (·.boundVoid) && (t.card 0).retrains == 1) = true ∧
    after (.shoreLinkRetrained 0) (cardState { link := .retrying }) (fun t => (t.card 0).link == .up) = true ∧
    after (.fnReattach f0 0x5EA7) heldCtx (fun t => (t.ctx 0).state == .empty && (t.card 0).heldSerial == none) = true ∧
    after (.fnDiscard f0 0xD15C) heldCtx (fun t => (t.ctx 0).state == .empty) = true ∧
    after (.contextDiscardTimeout 0) heldCtx (fun t => (t.ctx 0).state == .empty) = true := by
  decide +kernel

/-! The dictionary -/

/-- CRC-16 (0x1021, from ones) and CRC-32 of "123456789", their published check values. -/
theorem test_crcs : let l := (List.range 9).map fun n => BitVec.ofNat 8 (0x31 + n)
    crc16 l = 0x29B1 ∧ crc32 l = 0xCBF43926 := by decide +kernel

/-- SHA-256 of "abc" (FIPS 180-4). -/
theorem test_sha256 : sha256 [0x61, 0x62, 0x63] = beBytes 32 0xba7816bf8f01cfea414140de5dae2223b00361a396177a9cb410ff61f20015ad := by
  decide +kernel

def holm (x : ChanSt) : State :=
  { fresh with
    boot := { fresh.boot with holmUp := true, holmReady := true }, dict := { ready := true, chans := ({} : Table ChanSt).put 0 x } }
def custodian : ChanSt := { session := .custodian }
def stored1 : Stored := ⟨true, 1, 0x2000, 0, ⟨false, [1]⟩⟩

theorem witness_WailestRequestsAreAnswered : (holm {}).hears .n0 = true ∧ Fresh (holm {}) ch0 1 0x2000 0 [] ∧ (holm {}).carries ch0 1 0x2000 0 [] = true ∧ ((holm { stored := some stored1 }).chan 0).stored = some stored1 ∧
    (∃ m, (holm {}).lookup .n0 0x2000 0 = .ok m ∧ (holm {}).readable 0x2000 m = true ∧ m.value.length ≤ 238 ∧ m.value = [1]) ∧
    (holm {}).lookup .n0 0x9999 0 = .error 3 ∧ Fresh (holm {}) ch0 3 0x2000 0 [0, 0, 0, 0, 232] ∧ Accepted (holm {}) ch0 0x1040 0 [3] ∧
    Accepted (holm custodian) ch0 0x1107 0 (le 4 20000) ∧ ownRow 0x1107 = false ∧ (holm custodian).mayWrite .n0 0x1107 0 = none ∧
    Fresh (holm {}) ch0 4 0x1107 0 [0, 0, 0, 0, 0, 1] ∧ Fresh (holm {}) ch0 5 0 0 [0] ∧ ((0 : Byte).toNat ≤ ((holm {}).chan 0).sent) ∧
    after (.wailestRead ch0 ⟨0x2000, 0⟩) (holm {}) (fun t => (t.chan 0).answer.any (fun r => !r.error && r.payload.drop 2 == [1])) = true ∧
    after (.wailestRead ch0 ⟨0x9999, 0⟩) (holm {}) (fun t => (t.chan 0).answer == some ⟨true, [3, 0x99, 0x99, 0]⟩) = true ∧
    after (.wailestRead ch0 ⟨0x2000, 0⟩) (holm { stored := some stored1 }) (fun t => (t.chan 0).answer == some ⟨false, [1]⟩ && (t.chan 0).repeats == 1) = true ∧
    after (.wailestWrite ch0 ⟨0x1040, 0⟩ [3]) (holm {}) (fun t => t.notifyFilter 0 == 3) = true ∧
    after (.wailestWrite ch0 ⟨0x1107, 0⟩ (le 4 20000)) (holm custodian) (fun t => t.obj 0x1107 0 == 20000) = true ∧
    after (.readBlock ch0 ⟨0x2000, 0⟩ 0 1) (holm {}) (fun t => (t.chan 0).snapshot == some ⟨0x2000, 0, [1]⟩) = true ∧
    after (.readBlock ch0 ⟨0x2000, 0⟩ 1 1) (holm { snapshot := some ⟨0x2000, 0, [1, 2, 3]⟩ })
      (fun t => (t.chan 0).answer.any (fun r => r.payload.drop 1 == [3, 0, 0, 0, 2])) = true ∧
    after (.writeBlock ch0 ⟨0x1107, 0⟩ 0 0 [1]) (holm custodian) (fun t => (t.chan 0).block == some ⟨0x1107, 0, [1]⟩) = true ∧
    after (.notify ch0 0) (holm {}) (fun t => (t.chan 0).answer == some ⟨false, [0, 0]⟩) = true := by
  unfold Accepted Fresh
  refine ⟨by decide +kernel, by decide +kernel, by decide +kernel, by decide +kernel, ⟨_, rfl, by decide +kernel⟩, rfl, by decide +kernel,
    by decide +kernel,
    by decide +kernel, by decide +kernel, by decide +kernel, ?_⟩
  decide +kernel

/-- A frame received on N0 whole. -/
def frame0 (b : List Byte) : N0Frame := ⟨b, false, false, false⟩

theorem witness_SessionsOpenByChallenge : (∀ a ∈ [[1], [3], [4], 2 :: List.replicate 32 0], Fresh (holm {}) ch0 6 0 0 a) ∧ mayOpen .n0 = true ∧ ((holm {}).chan 0).locked = false ∧
    (∃ h : List Byte, h.length = 32 ∧ h = hmac256 (holm { nonce := [1] }).custodianKey (sessionMessage .n0 [1])) ∧
    (∃ h : List Byte, h.length = 32 ∧ h ≠ hmac256 (holm {}).custodianKey (sessionMessage .n0 [])) ∧
    after (.sessionChallenge ch0 false) (holm {}) (fun t => (t.chan 0).session == .challenged && (t.chan 0).nonce.length == 32) = true ∧
    after (.sessionChallenge ch0 false) (holm { locked := true }) (fun t => (t.chan 0).answer == some ⟨true, [0x0E, 0, 0, 0]⟩) = true ∧
    after (.sessionClose ch0) (holm custodian) (fun t => (t.chan 0).session == .none) = true ∧
    after (.sessionStateQuery ch0) (holm custodian) (fun t => (t.chan 0).answer == some ⟨false, [2]⟩) = true ∧
    after (.sessionExpiry .n0) (holm custodian) (fun t => (t.chan 0).session == .none) = true ∧
    after (.sessionLockExpiry .n0) (holm { locked := true }) (fun t => !(t.chan 0).locked) = true ∧
    after (.blockWriteTimeout .n0) (holm { block := some ⟨0, 0, []⟩ }) (fun t => (t.chan 0).block == none) = true ∧
    frameDiscarded (frame0 [1, 1, 3, 0, 0, 0, 0, 0]) = true ∧ frameDiscarded (frame0 (n0Frame 1 7 [])) = false ∧
    after (.frameDiscard (frame0 [1, 1, 3, 0, 0, 0, 0, 0])) (holm {}) (fun t => t.dict.n0Discards == 1) = true ∧
    after (.frameDiscard (frame0 [2, 1, 3, 0, 0, 0, 0, 0])) (holm {}) (fun t => t.dict.n0Discards == 0) = true ∧
    after (.frameDiscard (frame0 (n0Frame 1 7 []))) (holm {}) (fun t => (t.chan 0).answer.any (·.error)) = true := by
  have ne : ∀ g : List Byte, ∃ h : List Byte, h.length = 32 ∧ h ≠ g := fun g => by
    by_cases e : List.replicate 32 (0 : Byte) = g
    · exact ⟨List.replicate 32 1, List.length_replicate, fun h => by rw [← e] at h; revert h; decide⟩
    · exact ⟨_, List.length_replicate, e⟩
  unfold Fresh
  refine ⟨by decide +kernel, rfl, by decide +kernel, ⟨_, hmac256_length _ _, rfl⟩, ne _, ?_⟩
  decide +kernel

def key0 : List Byte := List.replicate 32 0x11
def key1 : List Byte := List.replicate 32 0x22
def rotation : List Byte := (key1.zip (hmac256 key0 ([9] ++ [0x4B]))).map (fun p => p.1 ^^^ p.2) ++ hmac256 key1 [9]
def keyed : State := { holm { custodian with opened := [9] } with dict := { (holm { custodian with opened := [9] }).dict with key := some key0 } }

theorem witness_SettingsKeysAndLaneMoves : Accepted (holm custodian) ch0 0x1020 0 [1] ∧ Accepted (holm custodian) ch0 0x1021 0 [1] ∧
    (hmac256 keyed.custodianKey ([9] ++ [0x4B])).length = 32 ∧ Accepted keyed ch0 0x1012 0 rotation ∧
    Accepted (holm custodian) ch0 0x4190 0 (le 2 0x1F7F) ∧ (0x1F7F : Nat) = 0x1F7F % 128 + bits 0x1F7F 12 8 * 256 ∧
    after (.save ch0 [1]) (holm custodian) (fun t => t.dict.saving.isSome && t.running 0x1020 0) = true ∧
    after (.saveComplete true) { fresh with dict := { saving := some ⟨1, {}⟩ } } (fun t => t.dict.nextCopy == 1 && t.dict.copies.has 0) = true ∧
    after (.restoreDefaults ch0 [1]) (holm custodian) (fun t => t.dict.copies == {}) = true ∧
    after (.keyRotate ch0 rotation) keyed (fun t => t.dict.key == some key1) = true ∧
    after (.laneMoveNow ch0 0x1F7F) (holm custodian) (fun t => (t.port 127).due.contains 31) = true := by
  unfold Accepted Fresh; decide +kernel

/-! Narrows ports -/

def narrows (p : Nat) (x : UartSt) (s : State) : State := { s with uarts := s.uarts.put p x }
/-- RX_EN, TX_EN and ECHO. -/
def rxOn : Nat := 0x23
def chr (d : BitVec 9) : RxChar := ⟨d, false, false, false⟩
def full : List Nat := List.replicate 128 0x41

theorem witness_UartsReceiveCharacters : ({ control := rxOn } : UartSt).ctl 0 = true ∧ ({ control := rxOn } : UartSt).ctl 5 = true ∧
    ({ control := 0x27 } : UartSt).ctl 2 = true ∧ ({ control := 0x27 } : UartSt).matches_ 0x101 = true ∧ full.length = 128 ∧
    ({ control := 0x27 } : UartSt).matches_ 0x102 = false ∧ bit 0x101 8 = true ∧
    after (.rxCharacter 0 ⟨0x41, false, true, true⟩) (narrows 0 { control := rxOn, lostOne := true } fresh)
      (fun t => (t.uart 0).rx == [0x6441] && !(t.uart 0).lostOne && (t.uart 0).counts.get 0 1 == 1) = true ∧
    after (.rxCharacter 0 (chr 0x41)) (narrows 0 { control := rxOn, rx := full } fresh)
      (fun t => (t.uart 0).rx == full && (t.uart 0).lostOne && bit (t.uart 0).flags 7 && (t.uart 0).ev.get 0 7 == 1) = true ∧
    after (.rxCharacter 0 (chr 0x41)) (narrows 0 { control := 0x27, format := 0x009, muted := true } fresh)
      (fun t => (t.uart 0).rx == [] && (t.uart 0).counts.get 0 7 == 1) = true ∧
    after (.rxCharacter 0 (chr 0x101)) (narrows 0 { control := 0x27, format := 0x009, muted := true } fresh)
      (fun t => (t.uart 0).rx == [0x1101] && !(t.uart 0).muted) = true ∧
    after (.rxCharacter 0 (chr 0x102)) (narrows 0 { control := 0x27, format := 0x009 } fresh)
      (fun t => (t.uart 0).rx == [] && (t.uart 0).muted) = true ∧
    after (.rxBreak 0) (narrows 0 { control := rxOn, muted := true } fresh) (fun t => (t.uart 0).rx == []) = true ∧
    after (.rxBreak 0) (narrows 0 { control := rxOn } fresh)
      (fun t => (t.uart 0).rx == [0xA00] && bit (t.uart 0).flags 4 && bit (t.uart 0).flags 6) = true ∧
    after (.rxTimeout 0) (narrows 0 { control := rxOn, rxEn := true, timeoutEn := true, block := some { place := 0 }, rxLen := 512 } fresh)
      (fun t => (t.uart 0).block == none && (t.uart 0).seq == 1 && bit (t.uart 0).flags 9 && bit (t.uart 0).flags 10) = true := by
  decide +kernel

theorem witness_UartRegistersAndDma : fresh.ownsUart 0 .holm = true ∧ fresh.ownsUart 0 (.bridge 0) = false ∧
    ({ control := rxOn } : UartSt).ctl 1 = true ∧ ({ control := 2 } : UartSt).ctl 5 = false ∧
    after (.uartDataRead 0 (.bridge 0)) (narrows 0 { rx := [0x41] } fresh) (fun t => t.out.uart == [(0, 0x41)] && (t.uart 0).rx == [0x41])
      = true ∧
    after (.uartDataRead 0 .holm) (narrows 0 { rx := [0x41], flags := 0x30, mask := 0x20 } fresh)
      (fun t => t.out.uart == [(0, 0x41)] && (t.uart 0).rx == [] && (t.uart 0).flags == 0x10) = true ∧
    after (.uartStatusRead 0 .holm) (narrows 0 { flags := 0x30 } fresh) (fun t => bit (t.uart 0).mask 5) = true ∧
    after (.uartDataWrite 0 .holm 0x841) (narrows 0 { control := rxOn } fresh) (fun t => (t.uart 0).shifter == some (0x841, false)) = true ∧
    after (.uartDataWrite 0 .holm 0x841) (narrows 0 { tx := full.map (·, false) } fresh) (fun t => bit (t.uart 0).flags 14) = true ∧
    after (.muteNow 0 .holm) fresh (fun t => (t.uart 0).muted) = true ∧
    after (.rxFlush 0 .holm) (narrows 0 { rx := [1] } fresh) (fun t => (t.uart 0).rx == []) = true ∧
    after (.txFlush 0 .holm) (narrows 0 { tx := [(1, false)] } fresh) (fun t => (t.uart 0).tx == []) = true ∧
    after (.rxdmaEnable 0 .holm true) (narrows 0 { wptr := 64 } fresh) (fun t => (t.uart 0).rxEn && (t.uart 0).wptr == 0) = true ∧
    after (.rxdmaClose 0 .holm) (narrows 0 { rxEn := true, rxLen := 512, rxBase := 64, block := some { place := 16, used := 3, count := 3 } } fresh)
      (fun t => (t.uart 0).wptr == 48 && t.holmMem.readBytes 80 4 == [3, 0, 16, 0]) = true ∧
    after (.txdmaEnable 0 .holm true [0x41, 0x42]) (narrows 0 { control := rxOn, txCount := 2, shifter := some (0, false) } fresh)
      (fun t => (t.uart 0).tx.map (·.1) == [0x41, 0x42] && (t.uart 0).txEn) = true ∧
    after (.txCharacterSent 0 false) (narrows 0 { control := rxOn, shifter := some (1, false), tx := [(2, false)] } fresh)
      (fun t => (t.uart 0).shifter == some (2, false) && (t.uart 0).tx == [] && (t.uart 0).counts.get 0 2 == 1 && t.out.line == [(0, 1)]) = true ∧
    after (.txCharacterSent 0 true) (narrows 0 { control := 2, shifter := some (1, false), tx := [(2, false)], txEn := true } fresh)
      (fun t => (t.uart 0).shifter == none && (t.uart 0).tx == [] && !(t.uart 0).txEn && bit (t.uart 0).flags 13) = true := by
  decide +kernel

theorem witness_OwnersBaudsAndRegisterWrites : Accepted (holm custodian) ch0 0x9000 2 [1] ∧ ((holm custodian).card 0).present = true ∧
    Accepted (holm custodian) ch0 0x9003 0 (le 4 9600) ∧ ((holm {}).uart 1).tx = [] ∧ (holm {}).ownsUart 0 .holm = true ∧ f0.key = 0 ∧
    (holm {}).ownedCtx f0 0 = some 0 ∧
    after (.narrowsOwner ch0 1 [1]) (holm custodian) (fun t => t.uartOwner 1 == 1) = true ∧
    after (.n0Baud ch0 (le 4 9600)) (holm custodian) (fun t => t.obj 0x9003 0 == 9600 && (t.uart 0).baud == 80000) = true ∧
    after (.dipSwitchChange 247) (holm {}) (fun t => (t.uart 0).node == 247 && t.rack.dip == 247) = true ∧
    after (.ctsChange true) (holm {}) (fun t => (t.uart 1).cts) = true ∧
    after (.registerWrite (.uart 0 .holm 0x010 0x3F)) (holm {}) (fun t => (t.uart 0).baud == 0x1A0B && bit (t.uart 0).flags 14) = true ∧
    after (.registerWrite (.uart 0 .holm 0x010 0x271000)) (holm {}) (fun t => (t.uart 0).baud == 0x271000) = true ∧
    after (.registerWrite (.uart 0 .holm 0x00C 0x2)) (holm {}) (fun t => (t.uart 0).format == 0x8) = true ∧
    after (.registerWrite (.uart 0 .holm 0x00C 0x119)) (holm {}) (fun t => (t.uart 0).format == 0x119) = true ∧
    after (.registerWrite (.bar0 f0 0x1000 0x41)) (holm {}) (fun t => (t.fn 0).configError && (t.fn 0).evqBase == 0) = true ∧
    after (.registerWrite (.bar0 f0 0x1000 0x40)) (holm {}) (fun t => (t.fn 0).evqBase == 0x40) = true ∧
    after (.registerWrite (.bar0 f0 0x10000 0x40)) (holm {}) (fun t => (t.ctx 0).ringBase == 0x40) = true := by
  unfold Accepted Fresh; decide +kernel

/-! Time and records -/

def timed (c : Clock) : State := { hosted with clock := c, boot := { hosted.boot with holmUp := true } }
def best : Announce := ⟨7, 1, 0, 0, true⟩
def storing (x : Store) : State := { timed {} with recd := { store := x } }
/-- Windows of the code 0x513 at the unit, with and without a follow-up. -/
def windowOf (f : Option Rec) : State :=
  { timed {} with recd := { windows := ({} : Table Coalesce).put (coalesceKey 0x513 (timed {}).unitNo srcUnit) ⟨1, 0, f⟩ } }

theorem witness_TheTimebaseFollowsItsMaster : (timed {}).pending = [] ∧ (timed {}).boot.holmUp = true ∧ (timed {}).boot.recovery = false ∧
    best.best = true ∧ (timed {}).boot.bcUp = true ∧ (timed {}).obj 0x1107 0 * 1000 < (timed { state := .holdover, offset := 20000001 }).errorBound ∧
    (match step (timed { frac := 2 ^ 32 - 1 }) with | .next t => t.clock.base == 4 && t.clock.ticks == 1 && t.clock.frac == 2 ^ 32 - 1 | _ => false) = true ∧
    after (.ptpSync 1000001 5) (timed { base := 2000000, state := .acquiring }) (fun t => t.clock.base == 999999 && t.clock.inRange == 0) = true ∧
    after (.ptpSync 1000 5) (timed { state := .acquiring, inRange := 15 }) (fun t => t.clock.state == .locked && t.clock.pathDelay == 5) = true ∧
    after (.ptpSync (-10001) 5) (timed { state := .locked, outRange := 15 }) (fun t => t.clock.state == .acquiring) = true ∧
    after (.ptpAnnounce best) (timed {}) (fun t => t.clock.master == 7 && t.clock.state == .acquiring) = true ∧
    after .announceTimeout (timed { state := .locked, ticks := 9 }) (fun t => t.clock.state == .holdover && t.clock.holdStart == 9) = true ∧
    after .ptpLinkDown (timed { linkUp := true, state := .acquiring }) (fun t => t.clock.state == .free && !t.clock.linkUp) = true ∧
    after .timeValidLost (timed { state := .holdover, offset := 20000001 }) (fun t => t.clock.lostRaised) = true ∧
    after .timebaseStateSave (timed { base := 8 }) (fun t => t.recd.store.kept.timebase == 8) = true ∧
    after .operatingSecond (timed {}) (fun t => t.clock.opSeconds == 1) = true := by
  decide +kernel

theorem witness_RecordsAreStored : (timed {}).boot.holmUp = true ∧ (timed {}).boot.restarting = false ∧
    (windowOf none).recd.windows.find? (coalesceKey 0x513 (timed {}).unitNo srcUnit) = some ⟨1, 0, none⟩ ∧
    (storing { queue := [rec0] }).nextStored = some rec0 ∧ ((storing { queue := [rec0] }).recd.store.open_).isSome = true ∧
    ({ sectors := ({} : Table Sector).put 5 { seq := 1, erased := false, closed := true }, writing := some 6 } : Store).isVolatile = false ∧
    after (.coalesceWindowClose 0x513 srcUnit) (windowOf none) (fun t => t.recd.windows.rows.length == 0) = true ∧
    after (.coalesceWindowClose 0x513 srcUnit) (windowOf (some rec0)) (fun t => t.recd.windows.rows.length == 1) = true ∧
    after .capSecondEnd { timed {} with recd := { caps := ({} : Table Cap).put 0 { count := 9 } } } (fun t => t.recd.caps == {}) = true ∧
    after (.recordStoreProgram 2) (storing { queue := [rec0] }) (fun t => t.recd.store.queue == [] && t.recd.store.stored == 1) = true ∧
    after (.recordStoreProgram 9) (storing { queue := [rec0] }) (fun t => t.recd.store.sectors.values.any (·.retired)) = true ∧
    after (.rsEraseComplete 5 1000) (storing { sectors := ({} : Table Sector).put 5 { erasing := true, tired := 2 } })
      (fun t => (t.recd.store.sector 5).retired && (t.recd.store.sector 5).erases == 1) = true ∧
    after (.rsEraseComplete 5 400) (storing { sectors := ({} : Table Sector).put 5 { erasing := true } })
      (fun t => !(t.recd.store.sector 5).retired && (t.recd.store.sector 5).erased) = true := by
  decide +kernel

/-! Live repair -/

/-- The Holm is up at level 2; isle 0 serves and is in the shape with isle 1. -/
def wafer : State :=
  { holm custodian with
    shape := { cur := { epoch := 1, mask := 3 }, published := true, level := 2 }
    isles := (({} : Table IsleSt).put 0 { state := .serving }).put 1 { state := .serving }
    power := { fresh.power with wafer := .w0, isle := ({} : Table IslePower).put 0 .i0, setMv := 640, targetMv := 640 } }
def repairing (phase : Nat) (st : IsleState) (s : State) : State :=
  { s with
    repair := ({} : Table RepairSt).put 0 { phase := phase }
    isles := s.isles.put 0 { state := st }
    shape := { s.shape with cur := { s.shape.cur with mask := if st = .serving then 3 else 2 } } }
def held (n : Nat) (ready : Bool) (s : State) : State :=
  { s with power := { s.power with hold := s.power.hold.put n .held, ready := ({} : Table Bool).put n ready } }
/-- A plan of an older epoch runs in context 0. -/
def older : State := { withRun (plan0 []) run0 wafer with shape := { wafer.shape with cur := { epoch := 2, mask := 3 } } }
def badRam : RetestOutcome := { allOk with failingTest := 1 }

theorem witness_IslesDrainAndRetest : Accepted wafer ch0 0x7010 1 [1] ∧ (wafer.repairOf 0).phase = 0 ∧ wafer.olderRun = none ∧
    older.olderRun.isSome = true ∧ (repairing 2 .draining wafer).drainDone 0 = true ∧ Accepted (repairing 3 .off wafer) ch0 0x7010 1 [2] ∧
    Accepted (repairing 1 .serving wafer) ch0 0x7016 1 [1] ∧ overdueAfter 5 = some 100 ∧ wafer.soundPowered 0 = false ∧
    { wafer with power := { wafer.power with isle := wafer.power.isle.put 1 .i0 } }.soundPowered 0 = true ∧
    ((withStack { trained := true }).stack st0.key).serves = true ∧ wafer.obj 0x7013 0 = 1 ∧
    ((repairing 4 .testing wafer).takeOutcome 0 allOk).failingRow 0 allOk = 0 ∧ wafer.obj 0x7014 0 = 0 ∧
    after (.backgroundOverdue 5 0 0 101) wafer (fun t => (t.bg.get {} (bgKey 5 0 0)).overdue) = true ∧
    after (.isleDrain ch0 0) wafer (fun t => (t.repairOf 0).phase == 2 && t.shape.cur.mask == 2 && (t.isle 0).state == .draining) = true ∧
    after (.isleDrain ch0 0) older (fun t => (t.repairOf 0).phase == 1 && t.shape.waiting == [.drain 0]) = true ∧
    after (.isleDrainComplete 0) (repairing 2 .draining wafer) (fun t => (t.repairOf 0).phase == 3 && (t.isle 0).state == .off) = true ∧
    after (.drainTimeoutExpiry 0) (repairing 1 .serving older) (fun t => (t.ctx 0).run.any (·.halted == some 0x702)) = true ∧
    after (.isleServiceAbort ch0 0 [1]) (repairing 1 .serving wafer) (fun t => (t.repairOf 0).phase == 0) = true ∧
    after (.isleRetest ch0 0) (repairing 3 .off wafer) (fun t => (t.repairOf 0).phase == 4 && (t.isle 0).state == .testing) = true ∧
    after (.autoRetest 0) (repairing 0 .failed wafer) (fun t => (t.repairOf 0).phase == 4 && (t.repairOf 0).autoDone) = true ∧
    after (.isleRetestComplete 0 allOk) (repairing 4 .testing wafer) (fun t => (t.repairOf 0).phase == 5 && (t.repairOf 0).retest.result == 1)
      = true ∧
    after (.isleRetestComplete 0 badRam) (repairing 4 .testing wafer) (fun t => (t.isle 0).state == .failed && (t.repairOf 0).retest.failing == 1)
      = true := by
  unfold Accepted Fresh; decide +kernel

/-- Isle 0 has passed its Sound tests and waits for its rejoin. -/
def passed : State := { repairing 6 .testing wafer with repair := ({} : Table RepairSt).put 0 { phase := 6, soundsPassed := true } }

theorem witness_IslesAreReleasedAndRejoin : Accepted (held 1 true (repairing 5 .testing wafer)) ch0 0x2300 1 [1] ∧ wafer.holdOf 5 = .unpowered ∧
    (repairing 6 .testing wafer).canJoin 0 (repairing 6 .testing wafer).outSounds = true ∧ Accepted passed ch0 0x7010 1 [3] ∧ passed.olderRun = none ∧
    after (.holdRelease ch0 1 [1]) (held 1 true (repairing 5 .testing wafer)) (fun t => t.holdOf 1 == .released && (t.repairOf 0).phase == 6) = true ∧
    after (.holdRelease ch0 5 [1]) wafer (fun t => (t.chan 0).answer.any (·.error)) = true ∧
    after (.soundTestComplete 0 []) (repairing 6 .testing wafer) (fun t => (t.repairOf 0).soundsPassed) = true ∧
    after (.soundTestComplete 0 []) { repairing 6 .testing wafer with sounds := Table.ofList 0 ((List.range 144).map fun _ => { state := .out }) }
      (fun t => (t.repairOf 0).phase == 5) = true ∧
    after (.isleRejoin ch0 0) passed (fun t => t.shape.cur.mask == 3 && t.shape.cur.epoch == 2 && (t.isle 0).state == .serving) = true ∧
    after (.rejoinIdleTimeout 0) passed (fun t => (t.repairOf 0).phase == 3 && (t.isle 0).state == .off) = true := by
  unfold Accepted Fresh; decide +kernel

/-! Power, domains and air -/

/-- Supplies 3 to 5, of feed B, have no AC. -/
def feedA : State :=
  { wafer with power := { wafer.power with supplies := Table.ofList 3 (List.replicate 3 { state := .noAc, ac := false }) } }
def supplied (x : SupplySt) : State := { wafer with power := { wafer.power with supplies := ({} : Table SupplySt).put 0 x } }
def fanned (x : FanState) : State := { wafer with power := { wafer.power with fans := ({} : Table FanSt).put 0 ⟨x⟩ } }

theorem witness_FeedsSuppliesAndFans : wafer.feedPresent 0 = true ∧ wafer.feedPresent 1 = true ∧ feedA.feedPresent 1 = false ∧
    wafer.power.bStable = false ∧ wafer.obj 0x2000 0 ≤ wafer.power.force ∧ wafer.inletHot 2500 = false ∧
    after (.feedLost 1) { wafer with power := { wafer.power with force := 3, bStable := true } }
      (fun t => t.power.force == 1 && !t.power.bStable && (t.supply 5).state == .noAc) = true ∧
    after (.feedLost 0) feedA (fun t => t.power.wafer == .w3 && !t.boot.holmUp) = true ∧
    after (.feedRestored 1) feedA (fun t => (t.supply 3).state == .healthy) = true ∧
    after .feedBStable wafer (fun t => t.power.bStable) = true ∧
    after (.supplyFailed 0 1) wafer (fun t => (t.supply 0).state == .failed) = true ∧
    after (.supplyFailed 0 0) wafer (fun t => (t.supply 0).state == .noAc && t.feedPresent 0) = true ∧
    after (.supplyInserted 0 [3] true) (supplied { state := .absent }) (fun t => t.supply 0 == ⟨.healthy, true, [3]⟩) = true ∧
    after (.supplyRemoved 0) wafer (fun t => (t.supply 0).state == .absent) = true ∧
    after (.supplyAcGood 0) (supplied { state := .noAc }) (fun t => (t.supply 0).state == .healthy) = true ∧
    after (.fanFailed 0 100) wafer (fun t => (t.power.fans.get {} 0).state == .failed && !t.power.fanLost) = true ∧
    after (.fanInserted 0) (fanned .absent) (fun t => (t.power.fans.get {} 0).state == .running) = true ∧
    after (.fanRemoved 0) (fanned .failed) (fun t => (t.power.fans.get {} 0).state == .absent) = true := by
  decide +kernel

theorem witness_ProfilesSetPointsAndCaps : Accepted wafer ch0 0x2000 0 [1] ∧ Accepted wafer ch0 0x2000 0 [3] ∧
    admissible 1 (wafer.feedLimit 0) (wafer.feedLimit 1) = true ∧ admissible 3 10000 9999 = false ∧ Accepted wafer ch0 0x2002 0 (le 4 11000) ∧
    admissible (wafer.obj 0x2000 0) 11000 (wafer.feedLimit 1) = true ∧ limitOf wafer.power.force ≤ wafer.available ∧
    after (.powerProfile ch0 [1]) { wafer with power := { wafer.power with force := 3 } } (fun t => t.power.force == 1) = true ∧
    after (.powerProfile ch0 [3]) { wafer with dict := { wafer.dict with values := (({} : Table Nat).put 0x200200 9000).put 0x200500 9000 } }
      (fun t => (t.chan 0).answer.any (·.error) && t.obj 0x2000 0 == 1) = true ∧
    after (.feedLimitWrite ch0 0 (le 4 11000)) wafer (fun t => t.feedLimit 0 == 11000) = true ∧
    after .setPointReached { wafer with power := { wafer.power with targetMv := 700, raising := some (2, 0) } }
      (fun t => t.power.setMv == 700 && t.power.force == 2) = true ∧
    after (.hbmRateChange st0) (withStack { trained := true, rateDue := some 1 }) (fun t => (t.stack st0.key).rate == 1) = true ∧
    after (.powerCapCleared) { wafer with power := { wafer.power with capped := true, capMv := 600 } } (fun t => !t.power.capped) = true ∧
    after (.thermalCapCleared 9000) { wafer with power := { wafer.power with thermalCap := true, thermMv := 600 } }
      (fun t => !t.power.thermalCap) = true ∧
    after (.thermalTrip (.junction 0) 11000) (withRun (plan0 []) run0 wafer)
      (fun t => t.power.wafer == .w1 && (t.ctx 0).run.any (·.halted == some 0x11B)) = true := by
  unfold Accepted Fresh; decide +kernel

/-- Isle 0 is in retention; a LOAD that names it waits in context 0. -/
def retained : State :=
  { wafer with power := { wafer.power with isle := ({} : Table IslePower).put 0 .i2 }, ctxs := ({} : Table CtxSt).put 0 { waiting := some (plan0 []) } }
def inW1 (c : W1Cause) : State := { wafer with power := { wafer.power with wafer := .w1, cause := c } }
def boot0 : BootFacts := ⟨[], true, [], [], 2500⟩

theorem witness_WakesSitesAndWaferStates : retained.power.isle.get .i3 0 = .i2 ∧ (plan0 []).names 0 = true ∧ { wafer with dict := { wafer.dict with values := ({} : Table Nat).put 0x230200 0 } }.obj 0x2302 0 ≠ 1 ∧
    (held 1 false wafer).power.ready.get false (holdIsle 0) = false ∧ Accepted wafer ch0 0x2304 1 [0] ∧ Accepted wafer ch0 0x2304 1 [1] ∧
    wafer.holdOf (holdSite 0) = .unpowered ∧ Accepted wafer ch0 0x2051 0 [1] ∧ wafer.anyPlan = false ∧ Accepted wafer ch0 0x2051 0 [3] ∧
    wafer.role .n0 = 2 ∧ Accepted (inW1 .request) ch0 0x2051 0 [0] ∧ 10500 ≤ (inW1 .insufficient).available ∧
    after (.isleWake 0 .packet) retained (fun t => t.power.isle.get .i3 0 == .i0) = true ∧
    after (.isleWake 0 (.load 0)) retained (fun t => t.power.isle.get .i3 0 == .i0) = true ∧
    after .periodicIsleWake retained (fun t => t.power.isle.get .i3 0 == .i0) = true ∧
    after (.isleWakeCheckDone 0 none) (held 1 false wafer) (fun t => t.power.ready.get false 1) = true ∧
    after (.isleWakeCheckDone 0 (some 4)) (held 1 false wafer) (fun t => (t.isle 0).state == .failed) = true ∧
    after (.sitePower ch0 0 [0]) wafer (fun t => t.obj 0x2304 1 == 0) = true ∧
    after (.waferToW1 ch0) wafer (fun t => t.power.wafer == .w1 && t.shape.cur.mask == 0) = true ∧
    after (.waferToW3 ch0) wafer (fun t => t.power.wafer == .w3) = true := by
  unfold Accepted Fresh; decide +kernel

/-! Start-up, reset and update -/

/-- A card's presence at reset. -/
theorem witness_StartUpResetsAndRestarts : fresh.power.wafer = .w3 ∧ fresh.acPresent = true ∧ fresh.boot.holmUp = false ∧
    boot0.rejected = [] ∧ fresh.boot.trial = none ∧ (fresh.slot fresh.boot.active).state = .valid ∧
    minServing ≤ fresh.available ∧ (wafer.card 0).present = true ∧ (wafer.ctx 0).state = .empty ∧
    Accepted wafer ch0 0xF020 1 [1] ∧ Accepted wafer ch0 0xF020 2 [1] ∧ Accepted wafer ch0 0xF020 3 [1] ∧ Accepted wafer ch0 0xF020 4 [1] ∧
    wafer.boot.bcUp = true ∧ wafer.boot.holmUp = true ∧ wafer.boot.restarting = false ∧
    after (.coldPowerUp boot0) { fresh with boot := { fresh.boot with slots := {} } }
      (fun t => t.boot.recovery && !t.boot.bcUp && t.boot.step == 4 && t.power.wafer == .w3) = true ∧
    after (.powerButton 99 boot0) fresh (fun t => t.boot == fresh.boot) = true ∧
    after (.startLevelLate 3) wafer (fun t => t.shape == wafer.shape) = true ∧
    after (.holmRestart ch0) wafer (fun t => t.boot.restarting && t.boot.restartCause == 2 && (t.chan 0).session == .none) = true ∧
    after .holmWatchdog wafer (fun t => t.boot.restarting && t.boot.restartCause == 1) = true ∧
    after (.holmRestartComplete []) { wafer with boot := { wafer.boot with restarting := true, holmReady := false, restartCause := 1 } }
      (fun t => !t.boot.restarting && t.boot.holmReady && t.boot.resetKind == 2 && t.boot.resetCause == 1) = true ∧
    after (.boardControllerRestart ch0) wafer (fun t => t.boot.resetKind == 3 && t.boot.resetCause == 2) = true ∧
    after .boardControllerWatchdog wafer (fun t => t.boot.resetKind == 3 && t.boot.resetCause == 1) = true ∧
    after (.bridgeRestart ch0 0) wafer (fun t => t.boot.resetKind == 4 && (t.card 0).link == .training) = true := by
  unfold Accepted Fresh; decide +kernel

def slotted (x : SlotSt) : State := { wafer with boot := { wafer.boot with slots := wafer.boot.slots.put 1 x } }
/-- The running slot 1 is on trial; slot 0 holds an older security version. -/
def trying : State :=
  { wafer with
    boot := { wafer.boot with
      slots := (wafer.boot.slots.put 0 { state := .valid, security := 1 }).put 1 { state := .valid, security := 2 }
      running := 1, trial := some 1 } }
def confirmed : State := { trying with boot := { trying.boot with trial := none, active := 1 } }

/-- A bundle of four empty components, with the digest of no bytes. -/
def bundle : List Byte :=
  le 4 0x57465856 ++ le 2 1 ++ le 2 4 ++ le 4 512 ++ le 4 1 ++ List.replicate 32 0 ++
  ((List.range 4).map fun n => le 1 (n + 1) ++ le 3 0 ++ le 4 512 ++ List.replicate 8 0 ++ sha384 []).flatten ++ List.replicate 208 0

/-- The bundle is whole where its signature is valid, and of a lower security version than a committed 2. -/
theorem witness_bundle : Config.signatureValid (sha384 (bundle.take 416)) ((bundle.drop 416).take 96) = true → bundleBad bundle 0 = none := by
  intro h
  unfold bundleBad
  rw [h]
  decide +kernel

theorem witness_FirmwareStagesAndActivates : wafer.stagedSlot = 1 ∧ Accepted wafer ch0 0xF010 0 (le 4 512) ∧
    Accepted (slotted { state := .staging, length := 2 }) ch0 0xF011 0 (le 8 0 ++ [7, 8]) ∧ fieldAt (le 8 0 ++ [7, 8]) 4 4 = 0 ∧
    Accepted (slotted { state := .staging, length := 512, image := bundle }) ch0 0xF012 0 [1] ∧ bundle.length = 512 ∧
    Accepted (slotted { state := .valid }) ch0 0xF013 0 [1] ∧ Accepted trying ch0 0xF014 0 [1] ∧ Accepted confirmed ch0 0xF016 0 [1] ∧
    trying.boot.trial = some trying.boot.running ∧ 1 ≤ trying.shape.level ∧ trying.boot.restarting = false ∧
    after (.fwStageBegin ch0 (le 4 512)) wafer (fun t => t.slot 1 == { state := .staging, length := 512 }) = true ∧
    after (.fwStageData ch0 (le 8 0 ++ [7, 8])) (slotted { state := .staging, length := 2 }) (fun t => (t.slot 1).image == [7, 8]) = true ∧
    after (.fwStageData ch0 (le 8 1 ++ [7])) (slotted { state := .staging, length := 2 }) (fun t => (t.slot 1).state == .invalid) = true ∧
    after (.fwActivate ch0 [1]) (slotted { state := .valid }) (fun t => t.boot.trial == some 1 && t.boot.restarting) = true ∧
    after (.fwConfirm ch0 [1]) trying (fun t => t.boot.active == 1 && t.boot.trial == none) = true ∧
    after .fwTrialTimer trying (fun t => t.boot.active == 1 && t.boot.trial == none) = true ∧
    after (.securityVersionCommit ch0 [1]) confirmed (fun t => t.boot.secMin == 2 && (t.slot 0).state == .invalid) = true := by
  unfold Accepted Fresh; decide +kernel

/-! Provoked faults, and the unit's front and rear -/

def injecting (x : InjectSt) : State := { wafer with inject := x }
/-- Every second flit of port 0 after the first is dropped. -/
def point0 : PointSt := { enable := true, target := 1, inst := 0, layer := 0, action := 1, mode := 2, skip := 1, amount := 2 }
def armed : InjectSt := { armed := true, points := ({} : Table PointSt).put 3 { point0 with injected := 4, holding := true } }

theorem witness_InjectionLoopbacksAndFront : Accepted wafer ch0 0xA013 9 (le 4 5) ∧
    (({} : PointSt).put 9 (le 4 5)) = some { amount := 5 } ∧ comboOk { amount := 5 } = true ∧ targetFits { amount := 5 } = true ∧
    (({} : PointSt).put 9 (le 4 0)) = none ∧ Accepted (injecting { armed with armed := false }) ch0 0xA000 0 [1] ∧
    ((armed.points).get {} 3).enable = true ∧ Accepted (injecting armed) ch0 0xA000 0 [0] ∧ Accepted wafer ch0 0xA040 1 [1] ∧
    Accepted wafer ch0 0xA041 1 [1] ∧ Accepted { wafer with sounds := ({} : Table SoundSt).put 0 { state := .out } } ch0 0xA042 1 [1] ∧
    wafer.loopOn 1 0 = false ∧ Accepted wafer ch0 0x2060 0 (le 2 30) ∧ Accepted wafer ch0 0x2061 0 [1] ∧
    after (.injectPoint ch0 3 9 (le 4 5)) wafer (fun t => (t.inject.points.get {} 3).amount == 5) = true ∧
    after (.injectArm ch0) (injecting { armed with armed := false }) (fun t => t.inject.armed) = true ∧
    after (.injectDisarm ch0) (injecting armed) (fun t => !t.inject.armed && (t.inject.points.get {} 3).injected == 3) = true ∧
    after .injectArmLimitExpiry (injecting armed) (fun t => !t.inject.armed) = true ∧
    after (.reorderHoldTimeout 3) (injecting armed) (fun t => t.inject.armed && (t.inject.points.get {} 3).injected == 3) = true ∧
    after (.straitLoopback ch0 0 [1]) wafer (fun t => t.inject.loops == [⟨1, 0, 1⟩]) = true ∧
    after (.shoreLoopback ch0 0 [1]) wafer (fun t => t.inject.loops == [⟨3, 0, 1⟩]) = true ∧
    after (.soundLoopback ch0 0 [1]) { wafer with sounds := ({} : Table SoundSt).put 0 { state := .out } } (fun t => t.inject.loops == [⟨2, 0, 1⟩])
      = true ∧
    after (.loopbackDurationExpiry 9 1) (injecting { loops := [⟨2, 0, 1⟩] }) (fun t => t.inject.loops == [] && t.inject.resBits == 9) = true ∧
    after (.locate ch0 (le 2 30)) wafer (fun t => t.obj 0x2060 0 == 30) = true ∧
    after .locateExpiry wafer (fun t => t.obj 0x2060 0 == 0) = true ∧
    after (.lampTest ch0 [1]) wafer (fun t => t.rack.lampTest) = true ∧
    after .lampTestEnd { wafer with rack := { lampTest := true } } (fun t => !t.rack.lampTest) = true ∧
    after (.terminationSwitchChange 2) wafer (fun t => t.rack.termination == 2) = true := by
  unfold Accepted Fresh; decide +kernel

/-- R365, R438: the lines of the console. -/
theorem test_console_lines :
    stepLine 4 none 0 = ascii "- boot 4 holm S0" ++ [13, 10] ∧
    stepLine 10 (some 41000000005) 2 = ascii "41.000000005 boot 10 shape S2" ++ [13, 10] ∧
    eventName 0x0F02 = "FW_ROLLBACK" ∧ eventName 0x0100 = "PROFILE_CHANGED" ∧ digits 16 4 0x08A1 = ascii "08A1" := by
  decide +kernel

/-! The whole machine -/

theorem witness_StepIsExecOfTheFrontCommand :
    (match step { fresh with pending := [.terminationSwitchChange 2, .announceTimeout] } with
      | .next t => t.rack.termination == 2 && t.pending == [.announceTimeout]
      | _ => false) = true := by decide +kernel

theorem witness_EveryStepKeepsMemoryCanonical : (∃ t, step fresh = .next t) ∧ MemSafe fresh := by
  exact ⟨⟨_, rfl⟩, rfl, rfl⟩

end Sys2Proof.Tests
end

section
/-! PROOF. What an event, a halt, a change of the shape and a crossing of Sounds can reach, and what a halted job and an isle outside the
shape keep through them. -/

namespace Sys2Proof.Machine

/-! ### Bits of a mask -/

theorem bit_eq_testBit (v i : Nat) : bit v i = v.testBit i := by
  rw [Nat.testBit_eq_decide_div_mod_eq]; rfl

/-- A power of two added where its bit is clear carries into no other bit. -/
theorem bit_add_two_pow_other {v j k : Nat} (hj : bit v j = false) (hk : k ≠ j) : bit (v + 2 ^ j) k = bit v k := by
  rcases Nat.lt_or_gt_of_ne hk with hlt | hgt
  · rw [bit_eq_testBit, bit_eq_testBit, Nat.add_comm, Nat.testBit_two_pow_add_gt hlt]
  · obtain ⟨n, rfl⟩ := Nat.exists_eq_add_of_lt hgt
    have halves : (v + 2 ^ j) / 2 ^ j / 2 = v / 2 ^ j / 2 := by
      have heven : ¬ v / 2 ^ j % 2 = 1 := by simpa [bit] using hj
      rw [Nat.add_div_right _ (Nat.two_pow_pos j)]
      omega
    have hdiv (u : Nat) : u / 2 ^ (j + n + 1) = u / 2 ^ j / 2 / 2 ^ n := by
      rw [Nat.div_div_eq_div_mul, Nat.div_div_eq_div_mul, Nat.pow_succ', Nat.pow_add]; congr 1; ac_rfl
    simp only [bit, hdiv, halves]

theorem bit_setBit_other {v j k : Nat} (hk : k ≠ j) : bit (setBit v j) k = bit v k := by
  unfold setBit
  split
  · rfl
  · exact bit_add_two_pow_other (eq_false_of_ne_true ‹_›) hk

/-- A set bit of `v` is `2 ^ j` above a number with that bit clear. -/
theorem exists_clear_of_bit {v j : Nat} (h : bit v j = true) : ∃ u, v = u + 2 ^ j ∧ bit u j = false := by
  have hle : 2 ^ j ≤ v := by
    refine Nat.le_of_not_lt fun hlt => ?_
    simp [bit, Nat.div_eq_of_lt hlt] at h
  refine ⟨v - 2 ^ j, by omega, ?_⟩
  have hflip := Nat.testBit_two_pow_add_eq (v - 2 ^ j) j
  rw [Nat.add_sub_cancel' hle, ← bit_eq_testBit, ← bit_eq_testBit, h] at hflip
  simpa using hflip.symm

theorem bit_clearBit_same (v i : Nat) : bit (clearBit v i) i = false := by
  unfold clearBit
  split
  · obtain ⟨u, rfl, hu⟩ := exists_clear_of_bit ‹_›
    rwa [Nat.add_sub_cancel]
  · exact eq_false_of_ne_true ‹_›

/-- Clearing a bit sets none. -/
theorem bit_clearBit_of_clear {v i : Nat} (j : Nat) (h : bit v i = false) : bit (clearBit v j) i = false := by
  by_cases hij : i = j
  · exact hij ▸ bit_clearBit_same v i
  · unfold clearBit
    split
    · obtain ⟨u, rfl, hu⟩ := exists_clear_of_bit ‹_›
      rwa [Nat.add_sub_cancel, ← bit_add_two_pow_other hu hij]
    · exact h

theorem bit_zero (i : Nat) : bit 0 i = false := by simp [bit]

theorem ne_of_bit {v i j : Nat} (hi : bit v i = false) (hj : bit v j = true) : i ≠ j := by
  rintro rfl; simp [hi] at hj

/-! ### An isle outside the shape stays outside (R61) -/

theorem grow_outside {t : ShapeTable} {i m : Nat} (ht : bit t.mask i = false) (hm : bit m i = false) : bit (grow t m) i = false := by
  unfold grow
  refine List.foldlRecOn (motive := fun m => bit m i = false) _ _ hm fun m hm j _ => ?_
  split
  · rename_i hc
    simp only [Bool.and_eq_true] at hc
    rwa [bit_setBit_other (ne_of_bit ht hc.1.1)]
  · exact hm

theorem growN_outside {t : ShapeTable} {i : Nat} (ht : bit t.mask i = false) (n : Nat) {m : Nat} (hm : bit m i = false) :
    bit (growN t n m) i = false := by
  induction n generalizing m with
  | zero => exact hm
  | succ n ih =>
    unfold growN
    dsimp only
    split
    · exact hm
    · exact ih (grow_outside ht hm)

theorem partsOf_outside {t : ShapeTable} {i : Nat} (ht : bit t.mask i = false) : ∀ p ∈ partsOf t, bit p i = false := by
  unfold partsOf
  refine List.foldlRecOn (motive := fun ps => ∀ p ∈ ps, bit p i = false) _ _ nofun fun ps hps j _ => ?_
  split
  · rename_i hc
    simp only [Bool.and_eq_true] at hc
    have hseed : bit (2 ^ j) i = false := by
      rw [bit_eq_testBit, Nat.testBit_two_pow_of_ne (ne_of_bit ht hc.1).symm]
    intro p hp
    rcases List.mem_append.1 hp with hp | hp
    · exact hps p hp
    · rw [List.mem_singleton.1 hp]; exact growN_outside ht 64 hseed
  · exact hps

theorem choosePart_outside {t : ShapeTable} {i : Nat} (trained : List Nat) (ht : bit t.mask i = false) :
    bit (choosePart t trained) i = false := by
  unfold choosePart
  refine List.foldlRecOn (motive := fun m => bit m i = false) _ _ (bit_zero i) fun best hbest p hp => ?_
  have hpart := partsOf_outside ht p hp
  split
  · exact hpart
  · split
    · split <;> assumption
    · split <;> assumption

theorem settle_outside {t : ShapeTable} {i : Nat} (n : Nat) (ht : bit t.mask i = false) : bit (settle t n) i = false := by
  induction n generalizing t with
  | zero => exact ht
  | succ n ih =>
    unfold settle
    split
    · exact ih (bit_clearBit_of_clear _ ht)
    · exact ht

theorem State.staying_outside (s : State) {mask i : Nat} (out : List Nat) (h : bit mask i = false) : bit (s.staying mask out) i = false :=
  settle_outside 64 (choosePart_outside (t := { s.shape.cur with mask := mask, out := out }) _ h)

theorem bit_of_mem_isleList {mask j : Nat} (h : j ∈ isleList mask) : bit mask j = true := (List.mem_filter.1 h).2

/-- Every isle that stays was in the shape. -/
theorem State.bit_of_mem_staying (s : State) {mask i : Nat} {out : List Nat} (h : i ∈ isleList (s.staying mask out)) :
    bit mask i = true := by
  cases hout : bit mask i with
  | true => rfl
  | false =>
    have hleft := s.staying_outside out hout
    rw [bit_of_mem_isleList h] at hleft
    cases hleft

/-! ### What a change of the shape reaches -/

/-- From `s` to `t` only records, the shape and the isles change. -/
def OnlyShape (s t : State) : Prop :=
  t = { s with recd := t.recd, dict := t.dict, fns := t.fns, boot := t.boot, shape := t.shape, isles := t.isles }

theorem OnlyShape.refl (s : State) : OnlyShape s s := rfl

theorem OnlyShape.trans {s t u : State} (h : OnlyShape s t) (k : OnlyShape t u) : OnlyShape s u := by
  unfold OnlyShape at *
  rw [k, h]

theorem OnlyRecords.shape {s t : State} (h : OnlyRecords s t) : OnlyShape s t := by
  unfold OnlyRecords at h
  unfold OnlyShape
  rw [h]

theorem OnlyShape.ctxs {s t : State} (h : OnlyShape s t) : t.ctxs = s.ctxs := by rw [h]

/-- A change of the shape to isles of `mask`: isles outside `mask` keep all they have. -/
def ReshapesWithin (mask : Nat) (s t : State) : Prop := OnlyShape s t ∧ ∀ i, bit mask i = false → t.isle i = s.isle i

theorem ReshapesWithin.refl (mask : Nat) (s : State) : ReshapesWithin mask s s := ⟨.refl s, fun _ _ => rfl⟩

theorem ReshapesWithin.trans {mask : Nat} {s t u : State} (h : ReshapesWithin mask s t) (k : ReshapesWithin mask t u) :
    ReshapesWithin mask s u := ⟨h.1.trans k.1, fun i hi => (k.2 i hi).trans (h.2 i hi)⟩

theorem ReshapesWithin.of_isles {mask : Nat} {s t : State} (h : OnlyShape s t) (hi : t.isles = s.isles) : ReshapesWithin mask s t :=
  ⟨h, fun i _ => by unfold State.isle; rw [hi]⟩

theorem ReshapesWithin.foldl {α : Type} {mask : Nat} {f : State → α → State} (l : List α)
    (h : ∀ s, ∀ a ∈ l, ReshapesWithin mask s (f s a)) (s : State) : ReshapesWithin mask s (l.foldl f s) :=
  List.foldlRecOn l f (.refl mask s) fun t ht a ha => ht.trans (h t a ha)

theorem State.emit_isles (s : State) (code sev : Nat) (src : Source) (job : Option Nat) (vals : List Nat) :
    (s.emit code sev src job vals).isles = s.isles := by rw [s.emit_only code sev src job vals]

theorem State.emit_within (mask : Nat) (s : State) (code sev : Nat) (src : Source) (job : Option Nat) (vals : List Nat) :
    ReshapesWithin mask s (s.emit code sev src job vals) := .of_isles (s.emit_only ..).shape (s.emit_isles ..)

/-- An update of the shape's registers touches no isle. -/
theorem State.setShape_within (mask : Nat) (s : State) (x : ShapeSt) : ReshapesWithin mask s { s with shape := x } := .of_isles rfl rfl

theorem State.setIsle_within {mask j : Nat} (s : State) (st : IsleState) (h : bit mask j = true) : ReshapesWithin mask s (s.setIsle j st) :=
  ⟨rfl, fun i hi => s.isle_updIsle_other j _ i (ne_of_bit hi h)⟩

theorem State.refresh_within (mask : Nat) (s : State) : ReshapesWithin mask s s.refresh := by
  unfold State.refresh
  split
  · exact .refl mask s
  · dsimp only
    split
    · exact s.setShape_within mask _
    · exact (s.setShape_within mask _).trans (State.emit_within mask ..)

theorem State.queueChange_within (mask : Nat) (s : State) (ch : ShapeChange) : ReshapesWithin mask s (s.queueChange ch) := by
  unfold State.queueChange
  dsimp only
  split
  · exact (s.setShape_within mask _).trans (State.emit_within mask ..)
  · exact s.setShape_within mask _

theorem State.queueStranded_within (mask : Nat) (s : State) : ReshapesWithin mask s s.queueStranded :=
  .foldl _ (fun t _ _ => t.queueChange_within mask _) s

/-- A new shape is published through records and the states of its isles; an isle that `mask` leaves out keeps its own (R61, R62). -/
theorem State.reshape_within (s : State) (mask : Nat) (out : List Nat) : ReshapesWithin mask s (s.reshape mask out) := by
  have stranded (l : List Nat) (hl : ∀ i ∈ l, bit mask i = true) (t : State) :
      ReshapesWithin mask t (l.foldl (fun s i => (s.setIsle i .stranded).emit 0x222 2 (srcIn i 1 0) none [i]) t) :=
    .foldl l (fun u i hi => (u.setIsle_within .stranded (hl i hi)).trans (State.emit_within mask ..)) t
  have serving (l : List Nat) (hl : ∀ i ∈ l, bit mask i = true) (t : State) :
      ReshapesWithin mask t (l.foldl (fun s i => if (s.isle i).state = .serving then s else s.setIsle i .serving) t) := by
    refine .foldl l (fun u i hi => ?_) t
    split
    · exact .refl mask u
    · exact u.setIsle_within .serving (hl i hi)
  have reported (same : Bool) (vals : List Nat) (t : State) : ReshapesWithin mask t (if same then t else t.emit 0x220 1 srcUnit none vals) := by
    split
    · exact .refl mask t
    · exact t.emit_within mask ..
  unfold State.reshape
  dsimp only
  split
  · exact .refl mask s
  · refine .trans ?_ (State.queueStranded_within mask _)
    refine .trans ?_ (State.refresh_within mask _)
    refine .trans ?_ (reported _ _ _)
    refine .trans ?_ (serving _ (fun i hi => s.bit_of_mem_staying hi) _)
    refine .trans ?_ (stranded _ (fun i hi => bit_of_mem_isleList (List.mem_filter.1 hi).1) _)
    exact .of_isles rfl rfl

end Sys2Proof.Machine
end

section
/-! PROOF. Jobs that halt and stay halted (R49), what a fault can reach, and crossings of Sounds (R68). -/

namespace Sys2Proof.Machine

/-! ### Jobs that run, and jobs that have halted (R49) -/

theorem State.run_of_activeRun {s : State} {c : Nat} {r : Run} (h : s.activeRun c = some r) :
    (s.ctx c).run = some r ∧ r.accepted = true ∧ r.halted = none := by
  unfold State.activeRun at h
  split at h
  · next r' e =>
    split at h
    · next ok =>
      cases h
      simp only [Bool.and_eq_true, Option.isNone_iff_eq_none] at ok
      exact ⟨e, ok⟩
    · cases h
  · cases h

theorem State.activeRun_of_run {s : State} {c : Nat} {r : Run} (hr : (s.ctx c).run = some r) (ha : r.accepted = true)
    (hh : r.halted = none) : s.activeRun c = some r := by
  unfold State.activeRun
  rw [hr]
  simp [ha, hh]

theorem State.ctx_of_ctxs {s t : State} (h : t.ctxs = s.ctxs) (c : Nat) : t.ctx c = s.ctx c := by
  unfold State.ctx; rw [h]

theorem State.activeRun_of_ctx {s t : State} {c : Nat} (h : t.ctx c = s.ctx c) : t.activeRun c = s.activeRun c := by
  unfold State.activeRun; rw [h]

/-- The run of a context has halted with a fault code. -/
def Halted (s : State) (c code : Nat) : Prop := ∃ r, (s.ctx c).run = some r ∧ r.halted = some code

theorem Halted.of_ctx {s t : State} {c code : Nat} (hc : t.ctx c = s.ctx c) (h : Halted s c code) : Halted t c code := by
  unfold Halted; rw [hc]; exact h

theorem Halted.activeRun {s : State} {c code : Nat} (h : Halted s c code) : s.activeRun c = none := by
  obtain ⟨r, hr, hh⟩ := h
  unfold State.activeRun
  rw [hr]
  simp [hh]

theorem State.ctx_haltJob_other (s : State) {c d : Nat} (code : Nat) (h : d ≠ c) : (s.haltJob c code).ctx d = s.ctx d := by
  unfold State.haltJob
  split
  · exact State.ctx_updCtx_other s c _ d h
  · rfl

theorem State.haltJob_halts {s : State} {c : Nat} {r : Run} (code : Nat) (h : s.activeRun c = some r) : Halted (s.haltJob c code) c code :=
  ⟨_, s.haltJob_run c code r h, rfl⟩

/-- A job halts once: a later halt, of any job, leaves its code. -/
theorem Halted.haltJob {s : State} {c code : Nat} (h : Halted s c code) (d k : Nat) : Halted (s.haltJob d k) c code := by
  by_cases hcd : c = d
  · subst hcd
    unfold State.haltJob
    rwa [h.activeRun]
  · exact h.of_ctx (s.ctx_haltJob_other k hcd)

/-- A fold over states reaches `P` where its step on one member takes `Q` to `P` and every step keeps both. -/
theorem foldl_reaches {α : Type} {f : State → α → State} {a : α} {l : List α} (ha : a ∈ l) {Q P : State → Prop}
    (keepQ : ∀ s b, Q s → Q (f s b)) (keepP : ∀ s b, P s → P (f s b)) (reach : ∀ s, Q s → P (f s a)) {s : State} (hs : Q s) :
    P (l.foldl f s) := by
  obtain ⟨l₁, l₂, rfl⟩ := List.append_of_mem ha
  rw [List.foldl_append, List.foldl_cons]
  exact List.foldlRecOn l₂ f (reach _ (List.foldlRecOn l₁ f hs fun t ht b _ => keepQ t b ht)) fun t ht b _ => keepP t b ht

theorem State.mem_loaded {s : State} {c : Nat} {p : Plan} (hc : c < 64) (h : (s.ctx c).plan = some p) : (c, p) ∈ s.loaded :=
  List.mem_filterMap.2 ⟨c, List.mem_range.2 hc, by rw [h]; rfl⟩

theorem Halted.haltWhere {s : State} {c code : Nat} (h : Halted s c code) (k : Nat) (p : Nat → Plan → Bool) :
    Halted (s.haltWhere k p) c code := by
  refine List.foldlRecOn (motive := fun t => Halted t c code) _ _ h fun t ht cp _ => ?_
  split
  · exact ht.haltJob cp.1 k
  · exact ht

/-- Every active job of a loaded plan that `q` names halts. -/
theorem State.haltWhere_halts {s : State} {c : Nat} {p : Plan} {r : Run} (code : Nat) {q : Nat → Plan → Bool} (hc : c < 64)
    (hp : (s.ctx c).plan = some p) (hq : q c p = true) (hr : s.activeRun c = some r) : Halted (s.haltWhere code q) c code := by
  have keep {t : State} (d : Nat) (h : t.activeRun c = some r ∨ Halted t c code) :
      (t.haltJob d code).activeRun c = some r ∨ Halted (t.haltJob d code) c code := by
    rcases h with h | h
    · by_cases hcd : c = d
      · exact .inr (hcd ▸ haltJob_halts code h)
      · exact .inl ((State.activeRun_of_ctx (t.ctx_haltJob_other code hcd)).trans h)
    · exact .inr (h.haltJob d code)
  refine foldl_reaches (mem_loaded hc hp) (Q := fun t => t.activeRun c = some r ∨ Halted t c code) (P := fun t => Halted t c code)
    (fun t cp ht => ?_) (fun t cp ht => ?_) (fun t ht => ?_) (.inl hr)
  · split
    · exact keep cp.1 ht
    · exact ht
  · split
    · exact ht.haltJob cp.1 code
    · exact ht
  · rw [if_pos hq]
    exact ht.elim (haltJob_halts code) fun h => h.haltJob c code

/-! ### What a fault can reach -/

/-- From `s` to `t` only records, the shape, isles and Sounds, injectors, jobs and what the reduce adders hold of them change. -/
def OnlyFaults (s t : State) : Prop :=
  t = { s with recd := t.recd, dict := t.dict, fns := t.fns, boot := t.boot, shape := t.shape, isles := t.isles, sounds := t.sounds,
               inject := t.inject, ctxs := t.ctxs, adders := t.adders }

theorem OnlyFaults.refl (s : State) : OnlyFaults s s := rfl

theorem OnlyFaults.trans {s t u : State} (h : OnlyFaults s t) (k : OnlyFaults t u) : OnlyFaults s u := by
  unfold OnlyFaults at *
  rw [k, h]

theorem OnlyShape.faults {s t : State} (h : OnlyShape s t) : OnlyFaults s t := by
  unfold OnlyShape at h
  unfold OnlyFaults
  rw [h]

theorem OnlyFaults.tokens {s t : State} (h : OnlyFaults s t) : t.tokens = s.tokens := by rw [h]
theorem OnlyFaults.flying {s t : State} (h : OnlyFaults s t) : t.flying = s.flying := by rw [h]

theorem State.emit_faults (s : State) (code sev : Nat) (src : Source) (job : Option Nat) (vals : List Nat) :
    OnlyFaults s (s.emit code sev src job vals) := (s.emit_only ..).shape.faults

theorem State.haltJob_faults (s : State) (c code : Nat) : OnlyFaults s (s.haltJob c code) := by
  unfold OnlyFaults
  rw [s.haltJob_only c code]

theorem State.haltWhere_faults (s : State) (code : Nat) (p : Nat → Plan → Bool) : OnlyFaults s (s.haltWhere code p) := by
  refine List.foldlRecOn (motive := OnlyFaults s) _ _ (.refl s) fun t ht cp _ => ?_
  split
  · exact ht.trans (t.haltJob_faults ..)
  · exact ht

theorem State.haltWhere_isles (s : State) (code : Nat) (p : Nat → Plan → Bool) : (s.haltWhere code p).isles = s.isles := by
  refine List.foldlRecOn (motive := fun t => t.isles = s.isles) _ _ rfl fun (t : State) ht cp _ => ?_
  split
  · rw [t.haltJob_only]; exact ht
  · exact ht

theorem State.removeNow_faults (s : State) (mask : Nat) (out : List Nat) : OnlyFaults s (s.removeNow mask out) := by
  unfold State.removeNow
  dsimp only
  split
  · exact (s.haltWhere_faults ..).trans (State.reshape_within ..).1.faults
  · exact (s.reshape_within mask out).1.faults

/-- A removal halts jobs of the older epoch only where they still run. -/
theorem Halted.removeNow {s : State} {c code : Nat} (h : Halted s c code) (mask : Nat) (out : List Nat) :
    Halted (s.removeNow mask out) c code := by
  unfold State.removeNow
  dsimp only
  refine Halted.of_ctx (State.ctx_of_ctxs (State.reshape_within ..).1.ctxs c) ?_
  split
  · exact h.haltWhere ..
  · exact h

theorem State.isle_removeNow_outside (s : State) {mask i : Nat} (out : List Nat) (h : bit mask i = false) :
    (s.removeNow mask out).isle i = s.isle i := by
  unfold State.removeNow
  dsimp only
  rw [(State.reshape_within ..).2 i h]
  split
  · unfold State.isle; rw [s.haltWhere_isles]
  · rfl

/-! ### Crossing Sounds (R68, R450 to R455) -/

theorem State.setInject_faults (s : State) (x : InjectSt) : OnlyFaults s { s with inject := x } := rfl

theorem State.inject1_faults (s : State) (target inst dir layer : Nat) : OnlyFaults s (s.inject1 target inst dir layer).1 := by
  unfold State.inject1
  split
  · exact .refl s
  · refine List.foldlRecOn (motive := fun x : State × Hit => OnlyFaults s x.1) _ _ (.refl s) fun x hx n _ => ?_
    dsimp only
    split
    · exact hx
    · split
      · exact hx.trans (x.1.setInject_faults _)
      · exact (hx.trans (x.1.setInject_faults _)).trans (State.emit_faults ..)

theorem State.inject1_unarmed {s : State} (h : s.inject.armed = false) (target inst dir layer : Nat) :
    s.inject1 target inst dir layer = (s, .pass) := by simp [State.inject1, h]

theorem State.soundError_faults (s : State) (sound c : Nat) (injected : Bool) : OnlyFaults s (s.soundError sound c injected) := by
  have halted := (s.emit_faults 0x223 3 (srcIn 0xFF 8 sound) (some c) [sound, c]).trans (State.haltJob_faults _ c 0x223)
  unfold State.soundError
  dsimp only
  split
  · exact halted
  · exact halted.trans (.trans (t := State.updSound _ sound _) rfl (State.removeNow_faults ..))

theorem State.soundError_halts {s : State} {c : Nat} {r : Run} (sound : Nat) (injected : Bool) (h : s.activeRun c = some r) :
    Halted (s.soundError sound c injected) c 0x223 := by
  have halted : Halted ((s.emit 0x223 3 (srcIn 0xFF 8 sound) (some c) [sound, c]).haltJob c 0x223) c 0x223 :=
    State.haltJob_halts 0x223 ((State.activeRun_of_ctx (State.ctx_of_ctxs (s.emit_only ..).shape.ctxs c)).trans h)
  unfold State.soundError
  dsimp only
  split
  · exact halted
  · exact Halted.removeNow (s := State.updSound _ sound _) halted ..

theorem State.crossOne_faults (s : State) (c n d layer : Nat) (err : Option Nat) : OnlyFaults s (s.crossOne c n d layer err).1 := by
  have hi := s.inject1_faults 2 n d layer
  unfold State.crossOne
  generalize s.inject1 2 n d layer = x at hi
  have poisoned (injected : Bool) : OnlyFaults s (x.1.soundError n c injected) := hi.trans (x.1.soundError_faults n c injected)
  dsimp only
  split
  · exact hi
  · split
    · exact poisoned false
    · split
      · exact hi
      · exact poisoned true
  · split
    · exact poisoned false
    · exact hi

theorem State.crossSounds_faults (s : State) (c layer : Nat) (err : Option Nat) (path : List (Nat × Nat)) :
    OnlyFaults s (s.crossSounds c layer err path).1 := by
  refine List.foldlRecOn (motive := fun x : State × Bool => OnlyFaults s x.1) _ _ (.refl s) fun x hx nd _ => ?_
  split
  · exact hx.trans (x.1.crossOne_faults ..)
  · exact hx

theorem State.crossRoute_faults (s : State) (c a b layer : Nat) (err : Option Nat) : OnlyFaults s (s.crossRoute c a b layer err).1 := by
  unfold State.crossRoute
  split
  · exact .refl s
  · split
    · exact s.crossSounds_faults ..
    · exact .refl s

/-- With no injector armed, only a Sound's own error stops a packet, and it stops it there (R68). -/
theorem State.crossOne_unarmed {s : State} (h : s.inject.armed = false) (c n d layer : Nat) (err : Option Nat) :
    s.crossOne c n d layer err = if err = some n then (s.soundError n c false, false) else (s, true) := by
  unfold State.crossOne
  rw [State.inject1_unarmed h]

/-- A packet meets the error of a Sound on its way. -/
theorem State.crossSounds_error {s : State} {n : Nat} (h : s.inject.armed = false) (c layer : Nat) {path : List (Nat × Nat)}
    (hn : ∃ d, (n, d) ∈ path) : s.crossSounds c layer (some n) path = (s.soundError n c false, false) := by
  have stopped (t : State) (l : List (Nat × Nat)) : l.foldl (fun sb nd =>
      if sb.2 then sb.1.crossOne c nd.1 nd.2 layer (some n) else sb) (t, false) = (t, false) :=
    List.foldlRecOn (motive := fun x : State × Bool => x = (t, false)) _ _ rfl fun x hx _ _ => by subst hx; rfl
  obtain ⟨d, hd⟩ := hn
  unfold State.crossSounds
  induction path with
  | nil => cases hd
  | cons x l ih =>
    rw [List.foldl_cons, if_pos rfl, State.crossOne_unarmed h]
    by_cases hx : some n = some x.1
    · rw [if_pos hx, stopped, Option.some.inj hx]
    · rw [if_neg hx]
      rcases List.mem_cons.1 hd with rfl | hl
      · exact absurd rfl hx
      · exact ih hl

end Sys2Proof.Machine
end

section
/-! PROOF. Token messages (R46), and signals applied to counters (R44, R45). -/

namespace Sys2Proof.Machine

/-- A counter's write wakes cores and changes nothing else. -/
theorem State.setToken_reaches (s : State) (isle counter v : Nat) : let t := s.setToken isle counter v
    t.tokens = s.tokens.put (isle * 4096 + counter) v ∧ t = { s with tokens := t.tokens, cores := t.cores } := by
  refine List.foldlRecOn (motive := fun t : State =>
    t.tokens = s.tokens.put (isle * 4096 + counter) v ∧ t = { s with tokens := t.tokens, cores := t.cores }) _ _ ⟨rfl, rfl⟩ fun t ht n _ => ?_
  obtain ⟨htok, honly⟩ := ht
  dsimp only
  split
  · exact ⟨htok, by rw [honly]; rfl⟩
  · exact ⟨htok, honly⟩

theorem State.setToken_tokens (s : State) (isle counter v : Nat) :
    (s.setToken isle counter v).tokens = s.tokens.put (isle * 4096 + counter) v := (s.setToken_reaches isle counter v).1

theorem State.setToken_only (s : State) (isle counter v : Nat) : s.setToken isle counter v =
    { s with tokens := (s.setToken isle counter v).tokens, cores := (s.setToken isle counter v).cores } :=
  (s.setToken_reaches isle counter v).2

theorem State.setToken_ctxs (s : State) (isle counter v : Nat) : (s.setToken isle counter v).ctxs = s.ctxs := by rw [s.setToken_only]

theorem State.token_setToken_same (s : State) (isle counter v : Nat) : (s.setToken isle counter v).token isle counter = v := by
  unfold State.token
  rw [s.setToken_tokens, Table.get_put_same]

theorem State.signal_fits {s : State} {c isle counter inc : Nat} {r : Run} (hr : s.activeRun c = some r)
    (h : s.token isle counter + inc ≤ 65535) : s.signal c isle counter inc = s.setToken isle counter (s.token isle counter + inc) := by
  unfold State.signal
  rw [hr]
  exact if_pos h

theorem State.signal_saturates {s : State} {c isle counter inc : Nat} {r : Run} (hr : s.activeRun c = some r)
    (h : 65535 < s.token isle counter + inc) : s.signal c isle counter inc =
      ((s.setToken isle counter 65535).emit 0x620 3 (srcIn isle 1 0) (some c) [isle, counter, c]).haltJob c 0x620 := by
  unfold State.signal
  rw [hr]
  exact if_neg (Nat.not_le_of_lt h)

theorem State.signal_idle {s : State} {c : Nat} (hr : s.activeRun c = none) (isle counter inc : Nat) :
    s.signal c isle counter inc = s := by
  unfold State.signal
  rw [hr]

theorem State.signal_saturated_tokens {s : State} {c isle counter inc : Nat} {r : Run} (hr : s.activeRun c = some r)
    (h : 65535 < s.token isle counter + inc) :
    (s.signal c isle counter inc).tokens = s.tokens.put (isle * 4096 + counter) 65535 := by
  rw [State.signal_saturates hr h, (State.haltJob_faults ..).tokens, (State.emit_faults ..).tokens, State.setToken_tokens]

theorem State.signal_saturated_halts {s : State} {c isle counter inc : Nat} {r : Run} (hr : s.activeRun c = some r)
    (h : 65535 < s.token isle counter + inc) : Halted (s.signal c isle counter inc) c 0x620 := by
  rw [State.signal_saturates hr h]
  refine State.haltJob_halts 0x620 (r := r) ((State.activeRun_of_ctx ?_).trans hr)
  exact State.ctx_of_ctxs ((State.emit_only ..).shape.ctxs.trans (s.setToken_ctxs ..)) c

/-- A signal touches no counter but its own, and no message in flight. -/
theorem State.signal_others (s : State) (c isle counter inc : Nat) : (s.signal c isle counter inc).flying = s.flying ∧
    ∀ k, k ≠ isle * 4096 + counter → (s.signal c isle counter inc).tokens.get 0 k = s.tokens.get 0 k := by
  cases hr : s.activeRun c with
  | none => rw [State.signal_idle hr]; exact ⟨rfl, fun _ _ => rfl⟩
  | some r =>
    by_cases h : s.token isle counter + inc ≤ 65535
    · rw [State.signal_fits hr h]
      exact ⟨by rw [s.setToken_only], fun k hk => by rw [s.setToken_tokens, Table.get_put_other _ _ _ hk]⟩
    · refine ⟨?_, fun k hk => ?_⟩
      · rw [State.signal_saturates hr (Nat.lt_of_not_le h), (State.haltJob_faults ..).flying, (State.emit_faults ..).flying, s.setToken_only]
      · rw [State.signal_saturated_tokens hr (Nat.lt_of_not_le h), Table.get_put_other _ _ _ hk]

/-! ### The arrival of a message -/

section
variable {s : State} {ctx : Ctx} {run : BitVec 16} {isle : Isle} {counter : BitVec 12} {inc : BitVec 10} {m : TokenMsg} {err : Option SoundId}

/-- The state without the message. -/
def State.landed (s : State) (m : TokenMsg) : State := { s with flying := s.flying.erase m }

/-- What the message of an active run does: it crosses its Sounds, and is applied where none stopped it. -/
def State.applyMessage (s : State) (m : TokenMsg) (c isle counter inc : Nat) (err : Option Nat) : State :=
  let x := (s.landed m).crossRoute c m.src isle 3 err
  if x.2 then x.1.signal c isle counter inc else x.1

theorem exec_tokenMessage_active {r : Run} (hm : s.messageOf ctx.val run.toNat isle.val counter.toNat inc.toNat = some m)
    (hr : s.activeRun ctx.val = some r) (hn : r.number = run.toNat) : exec (.tokenMessage ctx run isle counter inc err) s =
      .next (s.applyMessage m ctx.val isle.val counter.toNat inc.toNat (err.map (·.val))) := by
  have hl : (s.landed m).activeRun ctx.val = some r := hr
  unfold State.landed at hl
  change execTokenMessage .. = _
  simp only [execTokenMessage, hm, hl, Option.any_some, hn, beq_self_eq_true, if_true]
  rfl

theorem exec_tokenMessage_stale (hm : s.messageOf ctx.val run.toNat isle.val counter.toNat inc.toNat = some m)
    (hr : ∀ r, s.activeRun ctx.val = some r → r.number ≠ run.toNat) : exec (.tokenMessage ctx run isle counter inc err) s =
      .next ((s.landed m).updIsle isle.val fun x => { x with stale := satAdd 32 x.stale 1 }) := by
  have hl : ((s.landed m).activeRun ctx.val).any (fun r => r.number == run.toNat) = false := by
    change (s.activeRun ctx.val).any _ = false
    cases h : s.activeRun ctx.val with
    | none => rfl
    | some r => simpa using hr r h
  unfold State.landed at hl ⊢
  change execTokenMessage .. = _
  simp only [execTokenMessage, hm, hl]
  rfl

theorem State.applyMessage_others (s : State) (m : TokenMsg) (c isle counter inc : Nat) (err : Option Nat) :
    let t := s.applyMessage m c isle counter inc err
    t.mem = s.mem ∧ t.flying = s.flying.erase m ∧ ∀ k, k ≠ isle * 4096 + counter → t.tokens.get 0 k = s.tokens.get 0 k := by
  have hx := (s.landed m).crossRoute_faults c m.src isle 3 err
  have hmem := (s.landed m).crossRoute_mem c m.src isle 3 err
  unfold State.applyMessage
  generalize (s.landed m).crossRoute c m.src isle 3 err = x at hx hmem
  dsimp only
  split
  · obtain ⟨hfly, htok⟩ := x.1.signal_others c isle counter inc
    exact ⟨(x.1.signal_mem ..).trans hmem, hfly.trans hx.flying, fun k hk => (htok k hk).trans (by rw [hx.tokens]; rfl)⟩
  · exact ⟨hmem, hx.flying, fun k _ => by rw [hx.tokens]; rfl⟩

/-- A message that meets no Sound error, with no injector armed, is applied. -/
theorem State.applyMessage_arrives {s : State} {m : TokenMsg} {c isle counter inc : Nat} {err : Option Nat} (ha : s.inject.armed = false)
    (h : m.src = isle ∨ err = none) : s.applyMessage m c isle counter inc err = (s.landed m).signal c isle counter inc := by
  have hcross : (s.landed m).crossRoute c m.src isle 3 err = (s.landed m, true) := by
    have hal : (s.landed m).inject.armed = false := ha
    unfold State.crossRoute
    rcases h with h | h <;> simp [h, hal]
  unfold State.applyMessage
  rw [hcross]
  rfl

/-- A message that meets a Sound with an uncorrectable error is lost there. -/
theorem State.applyMessage_lost {s : State} {m : TokenMsg} {c isle counter inc n : Nat} {p : Plan} (ha : s.inject.armed = false)
    (hp : (s.ctx c).plan = some p) (hsrc : m.src ≠ isle) (hn : ∃ d, (n, d) ∈ placeSounds (s.tableOf p.header.epoch) m.src isle) :
    s.applyMessage m c isle counter inc (some n) = (s.landed m).soundError n c false := by
  have hcross : (s.landed m).crossRoute c m.src isle 3 (some n) = ((s.landed m).soundError n c false, false) := by
    have hpl : ((s.landed m).ctx c).plan = some p := hp
    unfold State.crossRoute
    rw [hpl]
    simp only [hsrc, decide_false, Option.isNone_some, Bool.and_false, Bool.or_false, Bool.false_eq_true, if_false]
    exact State.crossSounds_error (s := s.landed m) ha c 3 hn
  unfold State.applyMessage
  rw [hcross]
  rfl

end

end Sys2Proof.Machine
end

section
/-! PROOF. Pace windows (R23, R24, R480), and the statement on token messages and pace windows. -/

namespace Sys2Proof.Machine

/-! ### Runs marked, and isles that fail -/

theorem listFind_map {α : Type} (f : Nat → α → α) (k : Nat) (l : List (Nat × α)) :
    listFind k (l.map fun r => (r.1, f r.1 r.2)) = (listFind k l).map (f k) := by
  induction l with
  | nil => rfl
  | cons x l ih =>
    simp only [List.map_cons, listFind, ih]
    split
    · next h => rw [h]; rfl
    · rfl

/-- A change of every listed member that leaves the reset value alone reaches every member. -/
theorem Table.get_map {α : Type} (t : Table α) {f : Nat → α → α} {d : α} {k : Nat} (h : f k d = d) :
    (t.map f).get d k = f k (t.get d k) := by
  unfold Table.get Table.find? Table.map
  rw [listFind_map]
  cases listFind k t.rows
  · exact h.symm
  · rfl

/-- The run when the pace window of isle `i` has closed. -/
def Run.afterWindow (i : Nat) (r : Run) : Run := { r with unclosed := r.unclosed.filter (· != i) }

theorem State.ctx_closeWindow (s : State) (i c : Nat) :
    (s.closeWindow i).ctx c = { s.ctx c with run := (s.ctx c).run.map (Run.afterWindow i) } :=
  Table.get_map s.ctxs (f := fun _ x => { x with run := x.run.map (Run.afterWindow i) }) rfl

theorem State.plan_closeWindow (s : State) (i c : Nat) : ((s.closeWindow i).ctx c).plan = (s.ctx c).plan := by rw [s.ctx_closeWindow]

theorem State.run_closeWindow {s : State} {c : Nat} {r : Run} (i : Nat) (h : (s.ctx c).run = some r) :
    ((s.closeWindow i).ctx c).run = some (r.afterWindow i) := by
  rw [s.ctx_closeWindow, h]; rfl

theorem State.activeRun_closeWindow {s : State} {c : Nat} {r : Run} (i : Nat) (h : s.activeRun c = some r) :
    (s.closeWindow i).activeRun c = some (r.afterWindow i) := by
  obtain ⟨hr, ha, hh⟩ := State.run_of_activeRun h
  exact State.activeRun_of_run (State.run_closeWindow i hr) ha hh

theorem State.run_updRun_same (s : State) (c : Nat) (f : Run → Run) : ((s.updRun c f).ctx c).run = (s.ctx c).run.map f := by
  unfold State.updRun; rw [State.ctx_updCtx_same]

theorem State.ctx_updRun_other (s : State) {c d : Nat} (f : Run → Run) (h : d ≠ c) : (s.updRun c f).ctx d = s.ctx d :=
  State.ctx_updCtx_other s c _ d h

/-- An accepted run carries BOUND_VOID from now on. -/
def Run.voided (r : Run) : Run := if r.accepted then { r with boundVoid := true } else r

/-- What holds of a run and of its voided form still holds when runs of a context are voided. -/
theorem State.run_voided {s : State} {c : Nat} {B : Run → Prop} (keep : ∀ r, B r → B r.voided) (d : Nat)
    (h : ∃ r, (s.ctx c).run = some r ∧ B r) : ∃ r, ((s.updRun d Run.voided).ctx c).run = some r ∧ B r := by
  obtain ⟨r, hr, hb⟩ := h
  by_cases hcd : c = d
  · subst hcd
    exact ⟨r.voided, by rw [s.run_updRun_same, hr]; rfl, keep r hb⟩
  · exact ⟨r, by rw [s.ctx_updRun_other _ hcd]; exact hr, hb⟩

theorem Run.voided_accepted {r : Run} (h : r.accepted = true) : r.voided.accepted = true ∧ r.voided.boundVoid = true := by
  unfold Run.voided; rw [if_pos h]; exact ⟨h, rfl⟩

theorem Run.voided_boundVoid {r : Run} (h : r.boundVoid = true) : r.voided.boundVoid = true := by
  unfold Run.voided; split
  · rfl
  · exact h

/-- The accepted runs of the loaded plans that `q` names are marked (R19, R48). -/
theorem State.voidRuns_marks {s : State} {c : Nat} {p : Plan} {r : Run} {q : Nat → Plan → Bool} (hc : c < 64)
    (hp : (s.ctx c).plan = some p) (hq : q c p = true) (hr : (s.ctx c).run = some r) (ha : r.accepted = true) :
    ∃ r', ((s.voidRuns q).ctx c).run = some r' ∧ r'.boundVoid = true := by
  refine foldl_reaches (mem_loaded hc hp) (Q := fun t => ∃ r', (t.ctx c).run = some r' ∧ r'.accepted = true)
    (P := fun t => ∃ r', (t.ctx c).run = some r' ∧ r'.boundVoid = true) (fun t cp ht => ?_) (fun t cp ht => ?_) (fun t ht => ?_) ⟨r, hr, ha⟩
  · split
    · exact State.run_voided (B := fun r => r.accepted = true) (fun _ h => (Run.voided_accepted h).1) cp.1 ht
    · exact ht
  · split
    · exact State.run_voided (B := fun r => r.boundVoid = true) (fun _ h => Run.voided_boundVoid h) cp.1 ht
    · exact ht
  · rw [if_pos hq]
    obtain ⟨r', hr', ha'⟩ := ht
    exact ⟨r'.voided, (t.run_updRun_same c Run.voided).trans (by rw [hr']; rfl), (Run.voided_accepted ha').2⟩

theorem State.voidRuns_only (s : State) (q : Nat → Plan → Bool) : s.voidRuns q = { s with ctxs := (s.voidRuns q).ctxs } := by
  refine List.foldlRecOn (motive := fun t : State => t = { s with ctxs := t.ctxs }) _ _ rfl fun t ht cp _ => ?_
  split
  · rw [ht]; rfl
  · exact ht

theorem State.isle_voidRuns (s : State) (q : Nat → Plan → Bool) (i : Nat) : (s.voidRuns q).isle i = s.isle i := by
  rw [s.voidRuns_only q]; rfl

theorem State.isle_emit (s : State) (code sev : Nat) (src : Source) (job : Option Nat) (vals : List Nat) (i : Nat) :
    (s.emit code sev src job vals).isle i = s.isle i := by
  unfold State.isle; rw [s.emit_isles]

theorem State.enterFailed_isles (s : State) (i : Nat) : (s.enterFailed i).isles = (s.setIsle i .failed).isles := by
  unfold State.enterFailed
  dsimp only
  split <;> split <;> rfl

theorem State.enterFailed_ctxs (s : State) (i : Nat) : (s.enterFailed i).ctxs = s.ctxs := by
  unfold State.enterFailed
  dsimp only
  split <;> split <;> rfl

/-- Planned changes that wait, without those of isle `i`. -/
def waitingBut (i : Nat) (l : List ShapeChange) : List ShapeChange := l.filter fun w => w != .rejoin i && w != .unstrand i && w != .drain i

/-- The power of isle `i` goes off, and no planned change of it waits any more. -/
def State.dark (s : State) (i : Nat) : State :=
  let s := s.powerOffIsle i
  { s with shape := { s.shape with waiting := waitingBut i s.shape.waiting } }

theorem State.dark_isles (s : State) (i : Nat) : (s.dark i).isles = s.isles := rfl
theorem State.dark_ctxs (s : State) (i : Nat) : (s.dark i).ctxs = s.ctxs := rfl

/-- A dark isle leaves the shape. -/
def State.withdraw (s : State) (i : Nat) : State :=
  if bit s.shape.cur.mask i then s.removeNow (clearBit s.shape.cur.mask i) s.outSounds else s.refresh

/-- A hard fault of an isle, in its three steps: FAILED, its jobs halt, it goes dark and leaves the shape (R66). -/
theorem State.isleFault_eq {s : State} {i : Nat} (block : Nat) (h : (s.isle i).state ≠ .failed ∧ (s.isle i).state ≠ .unlicensed) :
    s.isleFault i block =
      ((((s.enterFailed i).emit 0x221 3 (srcIn i 1 0) none [i, block]).haltWhere 0x221 fun _ p => p.names i).dark i).withdraw i := by
  unfold State.isleFault
  rw [if_neg (by simpa using h)]
  rfl

theorem State.isle_withdraw (s : State) (i : Nat) : (s.withdraw i).isle i = s.isle i := by
  unfold State.withdraw
  split
  · exact State.isle_removeNow_outside _ _ (bit_clearBit_same _ i)
  · exact (State.refresh_within 0 _).2 i (bit_zero i)

theorem Halted.withdraw {s : State} {c code : Nat} (h : Halted s c code) (i : Nat) : Halted (s.withdraw i) c code := by
  unfold State.withdraw
  split
  · exact h.removeNow ..
  · exact h.of_ctx (State.ctx_of_ctxs (s.refresh_within 0).1.ctxs c)

/-- An isle with a hard fault is FAILED, and keeps its pace figures. -/
theorem State.isle_isleFault {s : State} {i : Nat} (block : Nat) (h : (s.isle i).state ≠ .failed ∧ (s.isle i).state ≠ .unlicensed) :
    (s.isleFault i block).isle i = { s.isle i with state := .failed, changed := s.clock.base } := by
  rw [State.isleFault_eq block h, State.isle_withdraw]
  unfold State.isle
  rw [State.dark_isles, State.haltWhere_isles, State.emit_isles, State.enterFailed_isles]
  exact Table.get_upd_same ..

theorem State.pace_isleFault (s : State) (i block : Nat) : ((s.isleFault i block).isle i).pace = (s.isle i).pace := by
  by_cases h : (s.isle i).state = .failed ∨ (s.isle i).state = .unlicensed
  · unfold State.isleFault
    rw [if_pos (by simpa using h)]
  · rw [State.isle_isleFault block (not_or.1 h)]

/-- The jobs that lease a failing isle halt. -/
theorem State.isleFault_halts {s : State} {i c : Nat} {p : Plan} {r : Run} (block : Nat)
    (h : (s.isle i).state ≠ .failed ∧ (s.isle i).state ≠ .unlicensed) (hc : c < 64) (hp : (s.ctx c).plan = some p)
    (hi : p.names i = true) (hr : s.activeRun c = some r) : Halted (s.isleFault i block) c 0x221 := by
  rw [State.isleFault_eq block h]
  have hctx : ((s.enterFailed i).emit 0x221 3 (srcIn i 1 0) none [i, block]).ctx c = s.ctx c :=
    State.ctx_of_ctxs ((State.emit_only ..).shape.ctxs.trans (s.enterFailed_ctxs i)) c
  have halted := State.haltWhere_halts 0x221 (q := fun _ p => p.names i) hc (by rw [hctx]; exact hp) hi ((State.activeRun_of_ctx hctx).trans hr)
  exact (halted.of_ctx (State.ctx_of_ctxs (State.dark_ctxs ..) c)).withdraw i

/-! ### The close of a window -/

/-- A pace monitor that has closed its window with the average `avg`. -/
def PaceSt.closed (p : PaceSt) (avg : Nat) : PaceSt := { p with now := avg, minSeen := Nat.min p.minSeen avg, window := 0 }

/-- Floor pace that an open window is held to: the lowest that was in force in it. -/
def State.paceFloor (s : State) (i : Nat) : Nat :=
  if (s.isle i).pace.window = 0 then s.floor else Nat.min (s.isle i).pace.window s.floor

/-- The window of isle `i` is closed, and its monitor stands at `p`. -/
def State.windowAt (s : State) (i : Nat) (p : PaceSt) : State := (s.closeWindow i).updIsle i fun x => { x with pace := p }

theorem State.isle_windowAt (s : State) (i : Nat) (p : PaceSt) : (s.windowAt i p).isle i = { s.isle i with pace := p } :=
  State.isle_updIsle_same ..

section
variable {s : State} {isle : Isle} {num den : Nat}

/-- The four ways a window closes: at pace 0, below its floor, at or above it after an excursion, and at or above it. -/
theorem exec_paceWindowClose (hden : den ≠ 0) (hpow : s.power.isle.get .i3 isle.val = .i0) :
    exec (.paceWindowClose isle num den) s =
      let i := isle.val
      let p := (s.isle i).pace
      let q := p.closed (num / den)
      if num = 0 then .next ((s.windowAt i q).isleFault i paceBlock)
      else if num < s.paceFloor i * den then
        .next (((s.windowAt i { q with lowWindows := satAdd 32 p.lowWindows 1, below := true, goodWindows := 0 }).emit 0x210 2
          (srcIn i 1 0) none [i, num / den, s.paceFloor i]).voidRuns (leasesIsle i))
      else if p.below then
        if p.goodWindows + 1 = 100 then
          .next ((s.windowAt i { q with below := false, goodWindows := 0 }).emit 0x211 1 (srcIn i 1 0) none [i])
        else .next (s.windowAt i { q with goodWindows := p.goodWindows + 1 })
      else .next (s.windowAt i q) := by
  change execPaceWindowClose isle num den s = _
  unfold execPaceWindowClose
  rw [if_neg (by simp [hden, hpow])]
  rfl

/-- A window of pace 0 fails a serving isle and halts its jobs (R480). -/
theorem paceWindowClose_failed (hden : den ≠ 0) (hpow : s.power.isle.get .i3 isle.val = .i0) :
    Completes (.paceWindowClose isle 0 den) s fun t =>
      (t.isle isle.val).pace = (s.isle isle.val).pace.closed 0 ∧
      ((s.isle isle.val).state = .serving → (t.isle isle.val).state = .failed ∧
        ∀ (c : Ctx) (k : Plan) (r : Run), (s.ctx c.val).plan = some k → k.names isle.val = true → s.activeRun c.val = some r →
          Halted t c.val 0x221) := by
  have hexec := exec_paceWindowClose (num := 0) hden hpow
  dsimp only at hexec
  rw [if_pos rfl, Nat.zero_div] at hexec
  refine ⟨_, hexec, ?_, fun hserving => ⟨?_, fun c k r hk hn hr => ?_⟩⟩
  · rw [State.pace_isleFault, State.isle_windowAt]
  all_goals
    have hfaults : ((s.windowAt isle.val ((s.isle isle.val).pace.closed 0)).isle isle.val).state ≠ .failed ∧
        ((s.windowAt isle.val ((s.isle isle.val).pace.closed 0)).isle isle.val).state ≠ .unlicensed := by
      rw [State.isle_windowAt]; simp [hserving]
  · rw [State.isle_isleFault _ hfaults]
  · exact State.isleFault_halts _ hfaults c.isLt ((s.plan_closeWindow ..).trans hk) hn (State.activeRun_closeWindow isle.val hr)

/-- A window below its floor counts as low, and marks the accepted runs of the isle's plans (R24, R48). -/
theorem paceWindowClose_low (hden : den ≠ 0) (hpow : s.power.isle.get .i3 isle.val = .i0) (hnum : num ≠ 0)
    (hlow : num < s.paceFloor isle.val * den) : Completes (.paceWindowClose isle num den) s fun t =>
      (t.isle isle.val).pace = { (s.isle isle.val).pace.closed (num / den) with
        lowWindows := satAdd 32 (s.isle isle.val).pace.lowWindows 1, below := true, goodWindows := 0 } ∧
      t.mem = s.mem ∧ t.tokens = s.tokens ∧
      ∀ (c : Ctx) (k : Plan) (r : Run), (s.ctx c.val).plan = some k → k.names isle.val = true → (s.ctx c.val).run = some r →
        r.accepted = true → ∃ r', (t.ctx c.val).run = some r' ∧ r'.boundVoid = true := by
  have hexec := exec_paceWindowClose (num := num) hden hpow
  dsimp only at hexec
  rw [if_neg hnum, if_pos hlow] at hexec
  refine ⟨_, hexec, ?_, ?_, ?_, fun c k r hk hn hr ha => ?_⟩
  · rw [State.isle_voidRuns, State.isle_emit, State.isle_windowAt]
  · rw [State.voidRuns_mem, State.emit_mem]; rfl
  · rw [State.voidRuns_only]
    exact (State.emit_faults ..).tokens
  · have hctx (p : PaceSt) (vals : List Nat) :
        ((s.windowAt isle.val p).emit 0x210 2 (srcIn isle.val 1 0) none vals).ctx c.val = (s.closeWindow isle.val).ctx c.val :=
      State.ctx_of_ctxs (State.emit_only ..).shape.ctxs c.val
    refine State.voidRuns_marks (r := r.afterWindow isle.val) c.isLt ?_ hn ?_ ha
    · rw [hctx, s.plan_closeWindow]; exact hk
    · rw [hctx]; exact State.run_closeWindow isle.val hr

/-- A window at its floor or above counts as none; with no excursion under way nothing but the pace and the runs' windows changes. -/
theorem paceWindowClose_met (hden : den ≠ 0) (hpow : s.power.isle.get .i3 isle.val = .i0) (hnum : num ≠ 0)
    (hmet : s.paceFloor isle.val * den ≤ num) : Completes (.paceWindowClose isle num den) s fun t =>
      (∃ below good, (t.isle isle.val).pace = { (s.isle isle.val).pace.closed (num / den) with below := below, goodWindows := good }) ∧
      t.mem = s.mem ∧ t.tokens = s.tokens ∧
      ((s.isle isle.val).pace.below = false → t = { s with isles := t.isles, ctxs := t.ctxs }) := by
  have hexec := exec_paceWindowClose (num := num) hden hpow
  dsimp only at hexec
  rw [if_neg hnum, if_neg (Nat.not_lt_of_le hmet)] at hexec
  by_cases hbelow : (s.isle isle.val).pace.below = true
  · rw [if_pos hbelow] at hexec
    by_cases hlast : (s.isle isle.val).pace.goodWindows + 1 = 100
    · rw [if_pos hlast] at hexec
      refine ⟨_, hexec, ⟨false, 0, ?_⟩, ?_, ?_, fun h => absurd hbelow (by simp [h])⟩
      · rw [State.isle_emit, State.isle_windowAt]
      · rw [State.emit_mem]; rfl
      · exact (State.emit_faults ..).tokens
    · rw [if_neg hlast] at hexec
      exact ⟨_, hexec, ⟨_, _, congrArg IsleSt.pace (s.isle_windowAt ..)⟩, rfl, rfl, fun h => absurd hbelow (by simp [h])⟩
  · rw [if_neg hbelow] at hexec
    exact ⟨_, hexec, ⟨_, _, congrArg IsleSt.pace (s.isle_windowAt ..)⟩, rfl, rfl, fun _ => rfl⟩

end

/-! ### The statement -/

/-- Settles O14, by what crossing the Sounds, the signal and the hard fault of an isle each do. -/
theorem tokenMessagesAndPaceWindows : Obligations.TokenMessagesAndPaceWindows := by
  unfold Obligations.TokenMessagesAndPaceWindows
  constructor
  · intro s ctx run isle counter inc m err hm
    dsimp only
    refine ⟨?_, fun r hr hn ha hroute => ⟨fun hfits => ?_, fun hover => ?_⟩, fun r p n hr hn ha hsrc herr hp hpath => ?_, fun hstale => ?_⟩
    · by_cases hrun : ∃ r, s.activeRun ctx.val = some r ∧ r.number = run.toNat
      · obtain ⟨r, hr, hn⟩ := hrun
        exact ⟨_, exec_tokenMessage_active hm hr hn, s.applyMessage_others ..⟩
      · exact ⟨_, exec_tokenMessage_stale hm fun r hr hn => hrun ⟨r, hr, hn⟩, rfl, rfl, fun _ _ => rfl⟩
    · have hexec := exec_tokenMessage_active (err := err) hm hr hn
      rw [State.applyMessage_arrives ha (hroute.imp_right fun h => by rw [h]; rfl), State.signal_fits (s := s.landed m) hr hfits] at hexec
      exact ⟨_, hexec, State.token_setToken_same .., State.setToken_only ..⟩
    · have hexec := exec_tokenMessage_active (err := err) hm hr hn
      rw [State.applyMessage_arrives ha (hroute.imp_right fun h => by rw [h]; rfl)] at hexec
      refine ⟨_, hexec, ?_, State.signal_saturated_halts (s := s.landed m) hr hover⟩
      unfold State.token
      rw [State.signal_saturated_tokens (s := s.landed m) hr hover, Table.get_put_same]
    · have hexec := exec_tokenMessage_active (err := err) hm hr hn
      rw [herr, Option.map_some, State.applyMessage_lost ha hp hsrc hpath] at hexec
      subst herr
      exact ⟨_, hexec, (State.soundError_faults ..).tokens, State.soundError_halts (s := s.landed m) n.val false hr⟩
    · exact ⟨_, exec_tokenMessage_stale hm hstale, congrArg IsleSt.stale (State.isle_updIsle_same ..), rfl⟩
  · intro s isle num den hden hpow
    dsimp only
    by_cases hnum : num = 0
    · subst hnum
      obtain ⟨t, hexec, hpace, hfail⟩ := paceWindowClose_failed (s := s) (isle := isle) hden hpow
      refine ⟨t, hexec, ?_, ?_, fun h => absurd rfl h, fun h => absurd rfl h, fun h => absurd rfl h, fun _ => hfail⟩
      · rw [hpace, Nat.zero_div]; rfl
      · rw [hpace]; rfl
    · rcases Nat.lt_or_ge num (s.paceFloor isle.val * den) with hlow | hmet
      · obtain ⟨t, hexec, hpace, hmem, htok, hvoid⟩ := paceWindowClose_low hden hpow hnum hlow
        refine ⟨t, hexec, ?_, ?_, fun _ => ⟨?_, hmem, htok⟩, fun _ h => absurd hlow (Nat.not_lt_of_le h), fun _ _ => ⟨?_, ?_, hvoid⟩,
          fun h => absurd h hnum⟩ <;> rw [hpace] <;> rfl
      · obtain ⟨t, hexec, ⟨below, good, hpace⟩, hmem, htok, honly⟩ := paceWindowClose_met hden hpow hnum hmet
        refine ⟨t, hexec, ?_, ?_, fun _ => ⟨?_, hmem, htok⟩, fun _ _ => ⟨?_, honly⟩, fun _ h => absurd h (Nat.not_lt_of_le hmet),
          fun h => absurd h hnum⟩ <;> rw [hpace] <;> rfl

end Sys2Proof.Machine
end

section
/-! PROOF. Launches (R284): the tables and buffers that the bridge reads, the staging that it reserves, and the run that begins (R34, R130). -/

namespace Sys2Proof.Machine

/-! ### Reads of host memory, and staging -/

/-- The bridge has read host memory at these addresses and lengths, in order. -/
def State.reading (s : State) (l : List (Nat × Nat)) : State := { s with out := { s.out with reads := s.out.reads ++ l } }

theorem State.reading_append (s : State) (l m : List (Nat × Nat)) : (s.reading l).reading m = s.reading (l ++ m) := by
  unfold State.reading
  dsimp only
  rw [List.append_assoc]

theorem State.reading_nil (s : State) : s.reading [] = s := by
  unfold State.reading
  rw [List.append_nil]

theorem State.readTable_eq (s : State) (present : Bool) (addr count : Nat) :
    s.readTable present addr count = s.reading (if present then [(addr, count * 32)] else []) := by
  unfold State.readTable
  split
  · rfl
  · exact s.reading_nil.symm

theorem State.foldl_hostRead (s : State) (ins : List HostCopy) :
    ins.foldl (fun s d => s.hostRead d.host (d.count * 65536)) s = s.reading (ins.map fun d => (d.host, d.count * 65536)) := by
  induction ins generalizing s with
  | nil => exact s.reading_nil.symm
  | cons d ins ih =>
    rw [List.foldl_cons, ih]
    exact s.reading_append [(d.host, d.count * 65536)] _

/-- The pages that IN copies take in staging. -/
def stagingNeed (ins : List HostCopy) : Nat := (ins.map (·.count)).sum

/-- The run of a launch before its acceptance (R284 step 1). -/
def stagedRun (number tag : Nat) (ins outs : List HostCopy) (buf : List Byte) : Run :=
  { number := number, tag := tag, start := 0, accepted := false, ins := ins, outs := outs, staged := splitStaged ins buf }

/-- A launch whose turn has come and whose pages fit takes its staging. -/
theorem State.stage_fits {s : State} {c tag : Nat} {ins outs : List HostCopy} {buf : List Byte}
    (hfree : stagingNeed ins ≤ (s.card (c / 16)).stagingFree) (hall : (s.card (c / 16)).stagingFree ≤ 131072)
    (hturn : ins = [] ∨ (s.card (c / 16)).stagingQueue.head? = some c) (hlen : buf.length = stagingNeed ins * 65536) :
    s.stage c tag ins outs (.data buf) = State.stage.go c tag ins outs s buf := by
  have hwaits : (!ins.isEmpty && ((s.card (c / 16)).stagingQueue.head? != some c || decide ((s.card (c / 16)).stagingFree < stagingNeed ins))) =
      false := by
    rcases hturn with h | h
    · simp [h]
    · simp [h, Nat.not_lt_of_le hfree]
  unfold State.stage
  unfold stagingNeed at *
  dsimp only
  rw [if_neg (Nat.not_lt_of_le (Nat.le_trans hfree hall)), hwaits, if_neg Bool.false_ne_true, if_pos hlen]

section
variable (s : State) (c tag : Nat) (ins outs : List HostCopy) (buf : List Byte)

theorem State.stage_go_run : ((State.stage.go c tag ins outs s buf).ctx c).run = some (stagedRun (s.ctx c).runNo tag ins outs buf) := by
  unfold State.stage.go
  dsimp only
  rw [State.ctx_updCtx_same, State.foldl_hostRead]
  rfl

theorem State.stage_go_card : (State.stage.go c tag ins outs s buf).card (c / 16) = { s.card (c / 16) with
    stagingFree := (s.card (c / 16)).stagingFree - stagingNeed ins
    stagingQueue := (s.card (c / 16)).stagingQueue.filter (· != c) } := by
  unfold State.stage.go State.unqueue
  dsimp only
  rw [State.foldl_hostRead]
  exact (State.card_updCard_same ..).trans (by rw [State.card_updCard_same]; rfl)

theorem State.stage_go_reads :
    (State.stage.go c tag ins outs s buf).out.reads = s.out.reads ++ ins.map fun d => (d.host, d.count * 65536) := by
  unfold State.stage.go
  dsimp only
  rw [State.foldl_hostRead]
  rfl

theorem State.stage_go_only : let t := State.stage.go c tag ins outs s buf
    t = { s with ctxs := t.ctxs, cards := t.cards, out := { s.out with reads := t.out.reads } } := by
  dsimp only
  unfold State.stage.go
  dsimp only
  rw [State.foldl_hostRead]
  rfl

end

/-- A launch with legal tables, both read, goes on to staging. -/
theorem exec_launch_staged {s : State} {ctx : Ctx} {e : Entry} {p : Plan} {inTable outTable buffers : HostRead} {ib ob : List Byte}
    (he : (s.ctx ctx.val).entry = some e) (hp : (s.ctx ctx.val).plan = some p) (hop : e.op = 2) (hst : (s.ctx ctx.val).state = .loaded)
    (hrun : (s.ctx ctx.val).run = none) (hup : s.linkUp (ctx.val / 16) = true)
    (hib : tableBytes e.hasIn e.inCount inTable = some (some ib)) (hob : tableBytes e.hasOut e.outCount outTable = some (some ob))
    (hin : badCopy p true ib e.inCount = none) (hout : badCopy p false ob e.outCount = none) :
    exec (.launch ctx inTable outTable buffers) s = .next
      (((s.readTable e.hasIn e.inTable e.inCount).readTable e.hasOut e.outTable e.outCount).stage ctx.val e.tag
        (copiesOf ib e.inCount) (copiesOf ob e.outCount) buffers) := by
  change execLaunch .. = _
  simp only [execLaunch, he, hp, hib, hob, hin, hout]
  exact if_neg (by simp [hop, hst, hrun, hup])

/-! ### Lists and counters of the run that begins -/

/-- From `s` to `t` only frame counts and isles change. -/
def OnlyFrames (s t : State) : Prop := t = { s with frames := t.frames, isles := t.isles }

theorem OnlyFrames.refl (s : State) : OnlyFrames s s := rfl

theorem OnlyFrames.trans {s t u : State} (h : OnlyFrames s t) (k : OnlyFrames t u) : OnlyFrames s u := by
  unfold OnlyFrames at *
  rw [k, h]

theorem OnlyFrames.ctxs {s t : State} (h : OnlyFrames s t) : t.ctxs = s.ctxs := by rw [h]
theorem OnlyFrames.clock {s t : State} (h : OnlyFrames s t) : t.clock = s.clock := by rw [h]
theorem OnlyFrames.mem {s t : State} (h : OnlyFrames s t) : t.mem = s.mem := by rw [h]

theorem State.holdFrame_only (s : State) (c k n : Nat) : OnlyFrames s (s.holdFrame c k n) := rfl

theorem State.foldl_holdFrame_only {α : Type} (c : Nat) (key : α → Nat) (l : List α) (s : State) :
    OnlyFrames s (l.foldl (fun s a => s.holdFrame c (key a) 1) s) :=
  List.foldlRecOn (motive := OnlyFrames s) l _ (.refl s) fun t ht a _ => ht.trans (t.holdFrame_only c (key a) 1)

theorem State.fillImages_only (s : State) (c : Nat) (ls : List (Nat × PageList)) : OnlyFrames s (s.fillImages c ls).1 := by
  refine List.foldlRecOn (motive := fun x : State × Table (Table Nat) => OnlyFrames s x.1) _ _ (.refl s) fun x hx nl _ => ?_
  dsimp only
  split
  · exact hx.trans (x.1.foldl_holdFrame_only c (fun e : Nat × Nat => frameKey e.2) _)
  · exact hx

/-- Filling the lists of a run counts frames, and changes nothing else (R130). -/
theorem State.fillLists_only {s u : State} {c : Nat} {p : Plan} {lists : Table (Table Nat)} (h : s.fillLists c p = .ok (u, lists)) :
    OnlyFrames s u := by
  have hfold : ∀ v l, s.fillLists c p = .ok (v, l) → OnlyFrames s v := by
    refine List.foldlRecOn (motive := fun acc : Except Shortage (State × Table (Table Nat)) => ∀ v l, acc = .ok (v, l) → OnlyFrames s v)
      _ _ (fun v l hv => ?_) fun acc hacc nl _ v l hv => ?_
    · obtain rfl := congrArg Prod.fst (Except.ok.inj hv)
      exact s.fillImages_only c _
    · cases acc with
      | error short => cases hv
      | ok x =>
        have hx : OnlyFrames s x.1 := hacc _ _ rfl
        dsimp only at hv
        split at hv
        · obtain rfl := congrArg Prod.fst (Except.ok.inj hv)
          exact hx
        · split at hv
          · cases hv
          · obtain rfl := congrArg Prod.fst (Except.ok.inj hv)
            exact hx.trans (x.1.foldl_holdFrame_only c (frameOf nl.2.isle nl.2.target) _)
  exact hfold u lists h

/-- Counters of a token table, each set to its INITIAL. -/
def State.setInitials (s : State) (l : List TokenDecl) : State := l.foldl (fun s d => s.setToken d.isle d.counter d.initial) s

theorem State.setInitials_only (s : State) (l : List TokenDecl) :
    s.setInitials l = { s with tokens := (s.setInitials l).tokens, cores := (s.setInitials l).cores } := by
  refine List.foldlRecOn (motive := fun t : State => t = { s with tokens := t.tokens, cores := t.cores }) _ _ rfl fun t ht d _ => ?_
  rw [t.setToken_only, ht]

theorem State.setInitials_ctxs (s : State) (l : List TokenDecl) : (s.setInitials l).ctxs = s.ctxs := by rw [s.setInitials_only]
theorem State.setInitials_frames (s : State) (l : List TokenDecl) : (s.setInitials l).frames = s.frames := by rw [s.setInitials_only]

/-- Key of a token table's counter. -/
def TokenDecl.key (d : TokenDecl) : Nat := d.isle * 4096 + d.counter

theorem State.setInitials_other (s : State) {l : List TokenDecl} {k : Nat} (h : k ∉ l.map TokenDecl.key) :
    (s.setInitials l).tokens.get 0 k = s.tokens.get 0 k := by
  refine List.foldlRecOn (motive := fun t : State => t.tokens.get 0 k = s.tokens.get 0 k) _ _ rfl fun t ht d hd => ?_
  have hne : k ≠ d.isle * 4096 + d.counter := fun hk => h (hk ▸ List.mem_map_of_mem hd)
  rw [t.setToken_tokens, Table.get_put_other _ _ _ hne, ht]

/-- R34: every counter of a table that names none twice starts at its INITIAL. -/
theorem State.token_setInitials (s : State) {l : List TokenDecl} (hl : (l.map TokenDecl.key).Nodup) :
    ∀ d ∈ l, (s.setInitials l).token d.isle d.counter = d.initial := by
  induction l generalizing s with
  | nil => exact nofun
  | cons x l ih =>
    obtain ⟨hx, hl⟩ := List.nodup_cons.1 hl
    intro d hd
    rcases List.mem_cons.1 hd with rfl | hd
    · exact (State.setInitials_other (s.setToken d.isle d.counter d.initial) hx).trans (s.token_setToken_same ..)
    · exact ih (s.setToken x.isle x.counter x.initial) hl d hd

theorem Table.get_foldl_put {α : Type} (v d : α) {k : Nat} {l : List Nat} (hk : k ∈ l) (t : Table α) :
    (l.foldl (fun t k => t.put k v) t).get d k = v := by
  obtain ⟨l₁, l₂, rfl⟩ := List.append_of_mem hk
  rw [List.foldl_append, List.foldl_cons]
  refine List.foldlRecOn (motive := fun t : Table α => t.get d k = v) _ _ (Table.get_put_same ..) fun t ht j _ => ?_
  by_cases hj : k = j
  · rw [hj, Table.get_put_same]
  · rw [Table.get_put_other _ _ _ hj, ht]

/-! ### Acceptance -/

/-- A run as its launch is accepted (R34, R40). -/
def Run.begun (r : Run) (number start : Nat) (lists : Table (Table Nat)) (outside : Bool) : Run :=
  { r with accepted := true, number := number, start := start, lists := lists, boundVoid := outside }

section
variable (s : State) (c : Nat) (p : Plan) (lists : Table (Table Nat))

/-- The context of an accepted launch: RUNNING, with the next run number. -/
def State.beginRun : State :=
  let t := s.updFn (s.ownerFn c) fun f => { f with reserved := f.reserved + 2 }
  t.updCtx c fun x =>
    let n := (x.runNo + 1) % 65536
    { x with state := .running, runNo := n, run := x.run.map fun r => r.begun n t.clock.base lists (t.outside c p) }

/-- Acceptance begins the run, sets its counters to INITIAL, and takes the owner registers and the operand-store pages. -/
theorem State.acceptRun_eq : s.acceptRun c p lists =
    let t := ((s.beginRun c p lists).setInitials p.tokens).takeOwners c p
    { t with pages := p.footprint.foldl (fun u k => u.put k c) t.pages } := rfl

theorem State.acceptRun_ctx : (s.acceptRun c p lists).ctx c = { s.ctx c with
    state := .running
    runNo := ((s.ctx c).runNo + 1) % 65536
    run := (s.ctx c).run.map fun r => r.begun (((s.ctx c).runNo + 1) % 65536) s.clock.base lists
      ((s.updFn (s.ownerFn c) fun f => { f with reserved := f.reserved + 2 }).outside c p) } := by
  have hctxs : (s.acceptRun c p lists).ctxs = (s.beginRun c p lists).ctxs := by
    rw [s.acceptRun_eq]
    exact State.setInitials_ctxs ..
  exact (State.ctx_of_ctxs hctxs c).trans (State.ctx_updCtx_same ..)

theorem State.acceptRun_frames : (s.acceptRun c p lists).frames = s.frames := by
  rw [s.acceptRun_eq]
  exact State.setInitials_frames ..

end

/-- A launch that no condition refuses begins its run. -/
theorem exec_launchAccept_accepted {s u : State} {ctx : Ctx} {r : Run} {p : Plan} {lists : Table (Table Nat)}
    (hrun : (s.ctx ctx.val).run = some r) (hp : (s.ctx ctx.val).plan = some p) (hacc : r.accepted = false)
    (hst : (s.ctx ctx.val).state = .loaded) (hup : s.linkUp (ctx.val / 16) = true) (hrate : s.rateWaits p = false)
    (hren : s.renumbering p = false)
    (hplaces : (s.fn (s.ownerFn ctx.val)).pend.length + (s.fn (s.ownerFn ctx.val)).reserved + 2 ≤ 1024)
    (hholm : (s.fn (s.ownerFn ctx.val)).holm = []) (hshape : s.launchShape p = none)
    (hlease : (leaseUnhealthy s p).any (·.1) = false) (hpeers : s.peersFit p = true) (hfill : s.fillLists ctx.val p = .ok (u, lists)) :
    exec (.launchAccept ctx) s = .next (u.acceptRun ctx.val p lists) := by
  change execLaunchAccept .. = _
  simp only [execLaunchAccept, hrun, hp, hshape, hlease, hpeers, hfill]
  exact if_neg (by simp [hacc, hst, hup, hrate, hren, hplaces, hholm])

/-! ### The statement -/

/-- Settles O38, by what staging does to the card and the context, and by what filling lists and beginning a run leave alone. -/
theorem launchesReserveAndBegin : Obligations.LaunchesReserveAndBegin := by
  unfold Obligations.LaunchesReserveAndBegin
  intro s ctx p hp hst hup
  dsimp only
  constructor
  · intro e inTable outTable ib ob buf he hop hrun hib hob hin hout hfree hall hturn hlen
    have hexec := exec_launch_staged (buffers := .data buf) he hp hop hst hrun hup hib hob hin hout
    rw [State.readTable_eq, State.readTable_eq, State.reading_append, State.stage_fits (s := s.reading _) hfree hall hturn hlen] at hexec
    refine ⟨_, hexec, ⟨_, State.stage_go_run .., rfl, rfl, rfl, rfl, rfl, rfl⟩, ?_, ?_, State.stage_go_only .., ?_⟩
    · rw [State.stage_go_card]; rfl
    · rw [State.stage_go_card]; rfl
    · rw [State.stage_go_reads]
      simp only [State.reading, List.append_assoc]
  · intro r u lists hrun hacc hrate hren hplaces hholm hshape hlease hpeers hfill
    have hu := State.fillLists_only hfill
    have hctx : u.ctx ctx.val = s.ctx ctx.val := State.ctx_of_ctxs hu.ctxs _
    refine ⟨_, exec_launchAccept_accepted hrun hp hacc hst hup hrate hren hplaces hholm hshape hlease hpeers hfill, ?_⟩
    dsimp only
    rw [State.acceptRun_ctx, hctx, hrun, hu.clock]
    refine ⟨rfl, rfl, ⟨_, rfl, rfl, rfl, rfl, rfl, rfl, rfl, rfl⟩, fun hkeys => ?_, fun k hk => ?_, u.acceptRun_frames .., ?_⟩
    · exact State.token_setInitials (u.beginRun ctx.val p lists) hkeys
    · exact Table.get_foldl_put ctx.val 64 hk _
    · rw [State.acceptRun_mem]
      exact hu.mem

end Sys2Proof.Machine
end

section
/-! PROOF. Vector reductions and comparisons of the Bantam cores (R110, R112, R115). -/

namespace Sys2Proof.Machine

/-! ### An instruction that retires with new registers (R99, R113) -/

/-- An instruction of a ready core retires as its body says. -/
theorem instr_go {s u : State} {i : Instr} {c : CoreId} {body : State → CoreSt → Retire} {pc beats : Nat} (h : CoreReady s c i beats)
    (hgo : body s (s.core c.key) = .go u pc beats) :
    s.instr i c body = .next (u.updCore c.key fun y => retired (s.core c.key).kernel y pc beats) := by
  obtain ⟨hruns, htrap, hfetch, hword, hbudget⟩ := h
  have hfits : ((s.core c.key).kernel && decide ((s.core c.key).budget < (s.core c.key).beats + beats)) = false := by
    simpa using hbudget
  simp [State.instr, hruns, htrap, hfetch, hword, hgo, hfits, retired]

/-- A core whose registers become `y` by one update takes one step. -/
theorem coreStep_updCore {s : State} {c : CoreId} {f : CoreSt → CoreSt} {y : CoreSt} (hy : f (s.core c.key) = y) (pc beats : Nat) :
    CoreStep s ((s.updCore c.key f).updCore c.key fun z => retired (s.core c.key).kernel z pc beats) c y pc beats :=
  ⟨by simp [hy], fun j hj => by rw [State.core_updCore_other _ _ _ _ hj, State.core_updCore_other _ _ _ _ hj], rfl⟩

/-! ### Lanes and bits -/

theorem laneBits_ge (et : Nat) : 8 ≤ laneBits et := by unfold laneBits; split <;> decide
theorem laneBits_le (et : Nat) : laneBits et ≤ 64 := by unfold laneBits; split <;> decide

theorem vlane_ofLanes_singleton {w : Nat} (hw : w ≤ 512) (r l : Nat) : vlane (ofLanes w [r]) w l = if l = 0 then r % 2 ^ w else 0 := by
  have hlt : r % 2 ^ w < 2 ^ w := Nat.mod_lt _ (Nat.two_pow_pos w)
  have hfits := Nat.pow_le_pow_right (n := 2) Nat.two_pos hw
  have hval : (ofLanes w [r]).toNat = r % 2 ^ w := Nat.mod_eq_of_lt (Nat.lt_of_lt_of_le hlt hfits)
  unfold vlane
  rw [hval]
  split
  next h => simp [h]
  next h =>
    have hle : 2 ^ w ≤ 2 ^ (w * l) := Nat.pow_le_pow_right Nat.two_pos (Nat.le_mul_of_pos_right w (Nat.pos_of_ne_zero h))
    rw [Nat.div_eq_of_lt (Nat.lt_of_lt_of_le hlt hle), Nat.zero_mod]

/-- Each power of two is added where its bit is still clear, so that the sum carries nowhere. -/
theorem bit_foldl_mark (p : Nat → Bool) (n l : Nat) :
    bit ((List.range n).foldl (fun m i => if p i then m + 2 ^ i else m) 0) l = (decide (l < n) && p l) := by
  induction n generalizing l with
  | zero => simp [bit_zero]
  | succ n ih =>
    rw [List.range_succ, List.foldl_append, List.foldl_cons, List.foldl_nil]
    have hclear := ih n
    rw [decide_eq_false (Nat.lt_irrefl n), Bool.false_and] at hclear
    rcases Decidable.em (l = n) with rfl | hne
    · cases hp : p l with
      | false => simpa using hclear
      | true =>
        have hset := Nat.testBit_two_pow_add_eq ((List.range l).foldl (fun m i => if p i then m + 2 ^ i else m) 0) l
        rw [Nat.add_comm, ← bit_eq_testBit, ← bit_eq_testBit, hclear] at hset
        simpa using hset
    · have hlt : decide (l < n + 1) = decide (l < n) := decide_eq_decide.2 ⟨fun h => by omega, Nat.lt_succ_of_lt⟩
      rw [hlt, ← ih l]
      split
      · exact bit_add_two_pow_other hclear hne
      · rfl

theorem bit_ofNat_word {l : Nat} (hl : l < 64) (r : Nat) : bit (BitVec.ofNat 64 r).toNat l = bit r l := by
  rw [bit_eq_testBit, bit_eq_testBit, BitVec.toNat_ofNat, Nat.testBit_mod_two_pow, decide_eq_true hl, Bool.true_and]

/-! ### Reductions (R110) -/

section
variable (s : State) (c : CoreId) (f : FmtV)

theorem exec_vredsum : exec (.vredsum c f) s = s.vred (.vredsum c f) c f sumLanes := rfl
theorem exec_vredmin : exec (.vredmin c f) s = s.vred (.vredmin c f) c f fun et => reduceLanes et laneMinOp := rfl
theorem exec_vredmax : exec (.vredmax c f) s = s.vred (.vredmax c f) c f fun et => reduceLanes et laneMaxOp := rfl

end

theorem reduction_completes {s : State} {i : Instr} {c : CoreId} {f : FmtV} {red : Nat → List Nat → Nat}
    (hexec : exec i s = s.vred i c f red) (hvb : f.vb = 0) (het : f.etype ≠ 7) (h : CoreReady s c i 12) :
    let w := laneBits f.etype.toNat
    let vs := openValues (s.core c.key) f
    Completes i s fun t => ∃ v : BitVec 512, (∀ l, 0 < l → l < 512 / w → vlane v w l = 0) ∧
      (vs ≠ [] → vlane v w 0 = red f.etype.toNat vs % 2 ^ w) ∧
      CoreStep { s with free := t.free } t c ((s.core c.key).setV f.vd.toNat v) (seqPc s c) 12 ∧ (vs ≠ [] → t.free = s.free) := by
  have hw : laneBits f.etype.toNat ≤ 512 := Nat.le_trans (laneBits_le _) (by decide)
  refine ⟨_, hexec.trans (instr_go h (if_neg (by simpa [hvb] using het))), _, fun l hl _ => ?_, fun hopen => ?_,
    coreStep_updCore rfl .., fun _ => rfl⟩
  · rw [vlane_ofLanes_singleton hw, if_neg (Nat.ne_of_gt hl)]
  · rw [vlane_ofLanes_singleton hw, if_pos rfl, if_neg (by simpa using hopen)]

/-! ### Comparisons (R112) -/

section
variable (s : State) (c : CoreId) (f : FmtV)

theorem exec_vcmpEq : exec (.vcmpEq c f) s = s.vcmp (.vcmpEq c f) c f true (fun a b => a == b) compareKey := rfl
theorem exec_vcmpNe : exec (.vcmpNe c f) s = s.vcmp (.vcmpNe c f) c f true (fun a b => a != b) compareKey := rfl
theorem exec_vcmpLt : exec (.vcmpLt c f) s = s.vcmp (.vcmpLt c f) c f true (fun a b => a < b) compareKey := rfl
theorem exec_vcmpLe : exec (.vcmpLe c f) s = s.vcmp (.vcmpLe c f) c f true (fun a b => a ≤ b) compareKey := rfl
theorem exec_vcmpLtu : exec (.vcmpLtu c f) s = s.vcmp (.vcmpLtu c f) c f (etInt f) (fun a b => a < b) fun _ b => (b : Int) := rfl

end

/-- The predicate `v` that a comparison writes: 0 at masked lanes and beyond the lanes, and `test` at each open lane without a NaN. -/
def Compared (x : CoreSt) (f : FmtV) (test : Nat → Nat → Bool) (v : Word) : Prop :=
  let w := laneBits f.etype.toNat
  let va := vlane (x.vreg f.va.toNat) w
  let vb := vlane (x.vreg f.vb.toNat) w
  (∀ l, l < 64 → (512 / w ≤ l ∨ bit (x.preg f.p.toNat).toNat l = false) → bit v.toNat l = false) ∧
    ∀ l, l < 512 / w → bit (x.preg f.p.toNat).toNat l = true → laneNan f.etype.toNat (va l) = false →
      laneNan f.etype.toNat (vb l) = false → bit v.toNat l = test (va l) (vb l)

theorem comparison_completes {s : State} {i : Instr} {c : CoreId} {f : FmtV} {legal : Bool} {op : Int → Int → Bool} {key : Nat → Nat → Int}
    {test : Nat → Nat → Bool} (hexec : exec i s = s.vcmp i c f legal op key) (hlegal : legal = true)
    (htest : ∀ a b, op (key f.etype.toNat a) (key f.etype.toNat b) = test a b)
    (het : f.etype ≠ 7) (hpos : f.vd.toNat ≠ 0) (hlt : f.vd.toNat < 8) (h : CoreReady s c i 1) :
    Completes i s fun t => ∃ v : Word,
      CoreStep { s with free := t.free } t c ((s.core c.key).setP f.vd.toNat v) (seqPc s c) 1 ∧ Compared (s.core c.key) f test v := by
  have hmod : f.vd.toNat % 8 = f.vd.toNat := Nat.mod_eq_of_lt hlt
  have hbit : bit f.vd.toNat 3 = false := by simp [bit, Nat.div_eq_of_lt hlt]
  have hlanes : 512 / laneBits f.etype.toNat ≤ 64 := Nat.div_le_of_le_mul (by have := laneBits_ge f.etype.toNat; omega)
  refine ⟨_, hexec.trans (instr_go h (if_neg (by simpa [hlegal, hbit, hmod, hpos] using het))), _,
    coreStep_updCore (congrArg (CoreSt.setP _ · _) hmod) .., fun l hl hout => ?_, fun l hl hopen hna hnb => ?_⟩
  · rw [bit_ofNat_word hl, bit_foldl_mark]
    rcases hout with hbeyond | hmasked
    · rw [decide_eq_false (Nat.not_lt_of_le hbeyond), Bool.false_and]
    · rw [hmasked, Bool.false_and, Bool.and_false]
  · rw [bit_ofNat_word (Nat.lt_of_lt_of_le hl hlanes), bit_foldl_mark, ← htest]
    simp [hl, hopen, hna, hnb]

/-! ### The statement -/

/-- Settles O5, by what the shared bodies of the reductions and of the comparisons write. -/
theorem vectorReductionsAndComparisons : Obligations.VectorReductionsAndComparisons := by
  unfold Obligations.VectorReductionsAndComparisons
  constructor
  · intro s c f hvb het
    simp only [List.forall_mem_cons, List.not_mem_nil, false_implies, implies_true, and_true]
    exact ⟨reduction_completes (exec_vredsum s c f) hvb het, reduction_completes (exec_vredmin s c f) hvb het,
      reduction_completes (exec_vredmax s c f) hvb het⟩
  · intro s c f het hpos hlt
    exact ⟨comparison_completes (exec_vcmpEq s c f) rfl (fun _ _ => rfl) het hpos hlt,
      comparison_completes (exec_vcmpNe s c f) rfl (fun _ _ => (decide_not ..).symm) het hpos hlt,
      comparison_completes (exec_vcmpLt s c f) rfl (fun _ _ => rfl) het hpos hlt,
      comparison_completes (exec_vcmpLe s c f) rfl (fun _ _ => rfl) het hpos hlt,
      fun hint => comparison_completes (exec_vcmpLtu s c f) (decide_eq_true hint)
        (fun _ _ => decide_eq_decide.2 Int.ofNat_lt) het hpos hlt⟩

end Sys2Proof.Machine
end

section
/-! PROOF. What a Narrows port does with a character, a break and the receive timeout (16). -/

namespace Sys2Proof.Machine

/-! ### Flags and counters of a port (R10, R357) -/

theorem bit_setBit (v i n : Nat) : bit (setBit v i) n = (bit v n || n == i) := by
  rcases Decidable.em (n = i) with rfl | hne
  · unfold setBit
    split
    · simp [*]
    · have hflip := Nat.testBit_two_pow_add_eq v n
      rw [Nat.add_comm, ← bit_eq_testBit, ← bit_eq_testBit] at hflip
      simp [*]
  · simp [bit_setBit_other hne, hne]

section
variable (x : UartSt) (n : Nat)

@[simp] theorem UartSt.flag_rx : (x.flag n).rx = x.rx := rfl
@[simp] theorem UartSt.flag_rxEn : (x.flag n).rxEn = x.rxEn := rfl
@[simp] theorem UartSt.flag_muted : (x.flag n).muted = x.muted := rfl
@[simp] theorem UartSt.flag_lostOne : (x.flag n).lostOne = x.lostOne := rfl
@[simp] theorem UartSt.flag_block : (x.flag n).block = x.block := rfl
@[simp] theorem UartSt.flag_seq : (x.flag n).seq = x.seq := rfl
@[simp] theorem UartSt.flag_counts : (x.flag n).counts = x.counts := rfl
@[simp] theorem UartSt.bit_flag_flags (k : Nat) : bit (x.flag n).flags k = (bit x.flags k || k == n) := bit_setBit ..
@[simp] theorem UartSt.flag_ev_same : (x.flag n).ev.get 0 n = wrapAdd 16 (x.ev.get 0 n) 1 := Table.get_upd_same ..
@[simp] theorem UartSt.count_rx : (x.count n).rx = x.rx := rfl
@[simp] theorem UartSt.count_rxEn : (x.count n).rxEn = x.rxEn := rfl
@[simp] theorem UartSt.count_muted : (x.count n).muted = x.muted := rfl
@[simp] theorem UartSt.count_lostOne : (x.count n).lostOne = x.lostOne := rfl
@[simp] theorem UartSt.count_flags : (x.count n).flags = x.flags := rfl
@[simp] theorem UartSt.count_ev : (x.count n).ev = x.ev := rfl
@[simp] theorem UartSt.count_counts_same : (x.count n).counts.get 0 n = satAdd 32 (x.counts.get 0 n) 1 := Table.get_upd_same ..
theorem UartSt.count_counts_other {k : Nat} (h : k ≠ n) : (x.count n).counts.get 0 k = x.counts.get 0 k := Table.get_upd_other _ _ _ _ h

end

/-! ### Placing an entry (R350 to R352) -/

@[simp] theorem State.uart_emit (s : State) (code sev : Nat) (src : Source) (job : Option Nat) (vals : List Nat) (p : Nat) :
    (s.emit code sev src job vals).uart p = s.uart p := by
  rw [s.emit_only code sev src job vals]; rfl

theorem State.dmaRun_of_off {s : State} {p : Nat} (h : (s.uart p).rxEn = false) : s.dmaRun p = s := by
  simp [State.dmaRun, h]

/-- OVERRUN_BEFORE (bit 13) joins the first entry placed after a lost one (R352). -/
def UartSt.mark (x : UartSt) (e : Nat) : Nat := if x.lostOne then setBit e 13 else e

theorem UartSt.bit_mark (x : UartSt) (e : Nat) {n : Nat} (h : n ≠ 13) : bit (x.mark e) n = bit e n := by
  unfold UartSt.mark
  split
  · exact bit_setBit_other h
  · rfl

theorem UartSt.mark_count (x : UartSt) (n e : Nat) : (x.count n).mark e = x.mark e := rfl

/-- The flags and the counters that an entry moves as it is placed: a framing error, a parity error, a break, a matching address. -/
def UartSt.noteEntry (x : UartSt) (e : Nat) : UartSt :=
  let x := if bit e 9 then (x.flag 4).count 3 else x
  let x := if bit e 10 then (x.flag 5).count 4 else x
  let x := if bit e 11 then (x.flag 6).count 5 else x
  if bit e 12 then x.flag 8 else x

section
variable (x : UartSt) (e : Nat)

@[simp] theorem UartSt.noteEntry_rx : (x.noteEntry e).rx = x.rx := by simp [UartSt.noteEntry, apply_ite UartSt.rx]
@[simp] theorem UartSt.noteEntry_rxEn : (x.noteEntry e).rxEn = x.rxEn := by simp [UartSt.noteEntry, apply_ite UartSt.rxEn]
@[simp] theorem UartSt.noteEntry_muted : (x.noteEntry e).muted = x.muted := by simp [UartSt.noteEntry, apply_ite UartSt.muted]
@[simp] theorem UartSt.noteEntry_lostOne : (x.noteEntry e).lostOne = x.lostOne := by
  simp [UartSt.noteEntry, apply_ite UartSt.lostOne]

/-- An entry advances no counter but those of its errors (subindices 3 to 5). -/
theorem UartSt.noteEntry_counts_other {k : Nat} (h : k < 3) : (x.noteEntry e).counts.get 0 k = x.counts.get 0 k := by
  have hk : k ≠ 3 ∧ k ≠ 4 ∧ k ≠ 5 := by omega
  simp [UartSt.noteEntry, apply_ite UartSt.counts, apply_ite (Table.get · 0 k), UartSt.count_counts_other, hk]

theorem UartSt.bit_noteEntry_flags (n : Nat) : bit (x.noteEntry e).flags n =
    (bit x.flags n || bit e 9 && n == 4 || bit e 10 && n == 5 || bit e 11 && n == 6 || bit e 12 && n == 8) := by
  have step (b : Bool) (y z : UartSt) (k : Nat) (h : bit y.flags n = (bit z.flags n || n == k)) :
      bit (if b then y else z).flags n = (bit z.flags n || b && n == k) := by cases b <;> simp [h]
  unfold UartSt.noteEntry
  rw [step _ _ _ 8 (by simp), step _ _ _ 6 (by simp), step _ _ _ 5 (by simp), step _ _ _ 4 (by simp)]

end

theorem State.uart_placeEntry_of_room {s : State} {p : Nat} (e : Nat) (hroom : (s.uart p).rx.length < 128)
    (hoff : (s.uart p).rxEn = false) : (s.placeEntry p e).uart p =
      { s.uart p with rx := (s.uart p).rx ++ [(s.uart p).mark e], lostOne := false }.noteEntry ((s.uart p).mark e) := by
  have hnote (b : Bool) (t u : State) : (if b then t else u).uart p = if b then t.uart p else u.uart p := by cases b <;> rfl
  have hdma (t : State) (y : UartSt) (ht : t.uart p = y) (hy : y.rxEn = false) : (t.dmaRun p).uart p = y := by
    rw [State.dmaRun_of_off (ht ▸ hy), ht]
  simp only [State.placeEntry, if_neg (Nat.not_le_of_lt hroom)]
  refine hdma _ _ ?_ (by simpa using hoff)
  simp only [hnote, State.uart_updUart_same, State.uart_emit]
  rfl

theorem State.uart_placeEntry_of_full {s : State} {p : Nat} (e : Nat) (hfull : 128 ≤ (s.uart p).rx.length) :
    (s.placeEntry p e).uart p = { ((s.uart p).flag 7).count 6 with lostOne := true } := by
  simp [State.placeEntry, hfull]

/-! ### Characters and breaks (R350, R351, R353, R354) -/

/-- The port with the registers `x` samples what its line carries, and has an owner that receives it: RX_EN is set, N0 does not drive the line
without ECHO, and N1 is not the console's (R356, R365). -/
structure Receives (s : State) (p : Nat) (x : UartSt) : Prop where
  uart : s.uart p = x
  rxOn : x.ctl 0 = true
  silent : p = 0 → x.shifter = none ∨ x.ctl 5 = true
  owned : p = 1 → s.uartOwner 1 ≠ 0

/-- The data bits of a character, at the port's width. -/
def UartSt.sampled (x : UartSt) (c : RxChar) : Nat := c.data.toNat % 2 ^ x.width

/-- The entry of a character, without ADDR_MATCH and OVERRUN_BEFORE (R350). -/
def UartSt.entry (x : UartSt) (c : RxChar) : Nat :=
  x.sampled c + (if c.framing then 2 ^ 9 else 0) + (if c.parityErr then 2 ^ 10 else 0) + (if c.idleBefore then 2 ^ 14 else 0)

/-- A character of at most 9 bits carries no BREAK and no ADDR_MATCH. -/
theorem UartSt.bit_entry (x : UartSt) (c : RxChar) : bit (x.entry c) 11 = false ∧ bit (x.entry c) 12 = false := by
  have hdata : x.sampled c < 512 := Nat.lt_of_le_of_lt (Nat.mod_le ..) c.data.isLt
  have hframing : (if c.framing then 2 ^ 9 else 0) ≤ 512 := by split <;> decide
  have hparity : (if c.parityErr then 2 ^ 10 else 0) ≤ 1024 := by split <;> decide
  have hidle : (if c.idleBefore then 2 ^ 14 else 0) = 16384 ∨ (if c.idleBefore then 2 ^ 14 else 0) = 0 := by
    split
    · exact .inl rfl
    · exact .inr rfl
  simp only [UartSt.entry, bit, beq_eq_false_iff_ne]
  omega

section
variable {s : State} {port : Fin 2} {x : UartSt} (h : Receives s port.val x)
include h

theorem Receives.line_heard : ¬ (!((s.uart port.val).ctl 0) || port.val == 0 && (s.uart port.val).shifter.isSome &&
    !((s.uart port.val).ctl 5)) = true := by
  simp only [h.uart, h.rxOn, Bool.not_true, Bool.false_or, Bool.and_eq_true, beq_iff_eq, Bool.not_eq_true']
  rintro ⟨⟨hport, hbusy⟩, hecho⟩
  rcases h.silent hport with hidle | hon
  · simp [hidle] at hbusy
  · simp [hon] at hecho

theorem Receives.not_console : ¬ (port.val = 1 && s.uartOwner 1 == 0) = true := by
  simp only [Bool.and_eq_true, decide_eq_true_eq, beq_iff_eq, not_and]
  exact h.owned

/-- What a character does at a port that receives it, by the address mode and the mute (R353). -/
theorem Receives.exec_rxCharacter (c : RxChar) : exec (.rxCharacter port c) s =
    let t := s.updUart port.val (·.count 1)
    if x.ctl 2 && bit (x.sampled c) 8 then
      if x.matches_ (x.sampled c) then
        .next ((t.updUart port.val fun x => { x with muted := false }).placeEntry port.val (x.entry c + 2 ^ 12))
      else .next (t.updUart port.val fun x => { x with muted := true })
    else if x.muted && !(bit (x.sampled c) 8) then .next (t.updUart port.val (·.count 7))
    else .next (t.placeEntry port.val (x.entry c)) := by
  rw [← h.uart]
  exact (if_neg h.line_heard).trans (if_neg h.not_console)

theorem Receives.exec_rxBreak : exec (.rxBreak port) s =
    if x.muted then .next (s.updUart port.val (·.count 7)) else .next (s.placeEntry port.val 0xA00) := by
  rw [← h.uart]
  exact (if_neg h.line_heard).trans (if_neg h.not_console)

/-- A character that is no address and that the mute lets through is placed, or lost where the FIFO is full (R352). -/
theorem Receives.rxCharacter_placed (c : RxChar) (hdata : ¬ (x.ctl 2 = true ∧ bit (x.sampled c) 8 = true))
    (hpass : x.muted = false ∨ bit (x.sampled c) 8 = true) (hoff : x.rxEn = false) :
    Completes (.rxCharacter port c) s fun t =>
      let y := t.uart port.val
      y.counts.get 0 1 = satAdd 32 (x.counts.get 0 1) 1 ∧ t.mem = s.mem ∧
      (x.rx.length < 128 → y.rx = x.rx ++ [x.mark (x.entry c)] ∧ y.lostOne = false ∧
        (∀ n, n ≠ 4 → n ≠ 5 → bit y.flags n = bit x.flags n)) ∧
      (128 ≤ x.rx.length → y.rx = x.rx ∧ y.lostOne = true ∧ bit y.flags 7 = true ∧ y.ev.get 0 7 = wrapAdd 16 (x.ev.get 0 7) 1) := by
  have hunmuted : ¬ (x.muted && !(bit (x.sampled c) 8)) = true := by rcases hpass with hmute | hbit <;> simp [*]
  refine ⟨_, (h.exec_rxCharacter c).trans ((if_neg (by simpa using hdata)).trans (if_neg hunmuted)), ?_⟩
  dsimp only
  have huart : (s.updUart port.val (·.count 1)).uart port.val = x.count 1 := by simp [h.uart]
  rcases Nat.lt_or_ge x.rx.length 128 with hroom | hfull
  · obtain ⟨hbreak, haddr⟩ := x.bit_entry c
    rw [State.uart_placeEntry_of_room _ (by simpa [huart] using hroom) (by simpa [huart] using hoff), huart, x.mark_count]
    refine ⟨?_, by simp, fun _ => ⟨by simp, by simp, fun n h4 h5 => ?_⟩, fun hfull => absurd hroom (Nat.not_lt_of_le hfull)⟩
    · rw [UartSt.noteEntry_counts_other _ _ (by decide)]
      exact x.count_counts_same 1
    · simp [UartSt.bit_noteEntry_flags, UartSt.bit_mark, hbreak, haddr, beq_false_of_ne h4, beq_false_of_ne h5]
  · rw [State.uart_placeEntry_of_full _ (by simpa [huart] using hfull), huart]
    refine ⟨?_, by simp, fun hroom => absurd hroom (Nat.not_lt_of_le hfull), fun _ => ⟨rfl, rfl, ?_, ?_⟩⟩
    · exact (UartSt.count_counts_other _ _ (by decide)).trans (x.count_counts_same 1)
    · exact (x.bit_flag_flags 7 7).trans (by simp)
    · exact x.flag_ev_same 7

/-- A muted port counts and discards a character without the ninth bit. -/
theorem Receives.rxCharacter_discarded (c : RxChar) (hdata : ¬ (x.ctl 2 = true ∧ bit (x.sampled c) 8 = true))
    (hmuted : x.muted = true) (hbit : bit (x.sampled c) 8 = false) :
    Completes (.rxCharacter port c) s fun t => (t.uart port.val).rx = x.rx ∧
      (t.uart port.val).counts.get 0 7 = satAdd 32 (x.counts.get 0 7) 1 ∧ t = { s with uarts := t.uarts } := by
  refine ⟨_, (h.exec_rxCharacter c).trans ((if_neg (by simpa using hdata)).trans (if_pos (by simp [*]))), ?_⟩
  exact ⟨by simp [h.uart], by simp [h.uart, UartSt.count_counts_other], rfl⟩

theorem Receives.rxCharacter_unmutes (c : RxChar) (haddr : x.ctl 2 = true ∧ bit (x.sampled c) 8 = true)
    (hmatch : x.matches_ (x.sampled c) = true) (hoff : x.rxEn = false) (hroom : x.rx.length < 128) :
    Completes (.rxCharacter port c) s fun t => (t.uart port.val).muted = false ∧
      (t.uart port.val).rx = x.rx ++ [x.mark (x.entry c + 2 ^ 12)] ∧ t.mem = s.mem := by
  refine ⟨_, (h.exec_rxCharacter c).trans ((if_pos (by simpa using haddr)).trans (if_pos hmatch)), ?_⟩
  dsimp only
  rw [State.uart_placeEntry_of_room _ (by simpa [h.uart] using hroom) (by simpa [h.uart] using hoff)]
  simp [h.uart, UartSt.mark]

theorem Receives.rxCharacter_mutes (c : RxChar) (haddr : x.ctl 2 = true ∧ bit (x.sampled c) 8 = true)
    (hmatch : x.matches_ (x.sampled c) = false) :
    Completes (.rxCharacter port c) s fun t => (t.uart port.val).muted = true ∧ (t.uart port.val).rx = x.rx ∧
      t = { s with uarts := t.uarts } := by
  refine ⟨_, (h.exec_rxCharacter c).trans ((if_pos (by simpa using haddr)).trans (if_neg (by simp [hmatch]))), ?_⟩
  exact ⟨by simp, by simp [h.uart], rfl⟩

theorem Receives.rxBreak_discarded (hmuted : x.muted = true) :
    Completes (.rxBreak port) s fun t => (t.uart port.val).rx = x.rx ∧ t = { s with uarts := t.uarts } :=
  ⟨_, h.exec_rxBreak.trans (if_pos hmuted), by simp [h.uart], rfl⟩

theorem Receives.rxBreak_placed (hmute : x.muted = false) (hoff : x.rxEn = false) (hroom : x.rx.length < 128) :
    Completes (.rxBreak port) s fun t => (t.uart port.val).rx = x.rx ++ [x.mark 0xA00] ∧
      bit (t.uart port.val).flags 4 = true ∧ bit (t.uart port.val).flags 6 = true ∧ t.mem = s.mem := by
  refine ⟨_, h.exec_rxBreak.trans (if_neg (by simp [hmute])), ?_⟩
  have hframing : bit (x.mark 0xA00) 9 = true := x.bit_mark _ (by decide)
  have hbreak : bit (x.mark 0xA00) 11 = true := x.bit_mark _ (by decide)
  dsimp only
  rw [State.uart_placeEntry_of_room _ (h.uart ▸ hroom) (h.uart ▸ hoff), h.uart]
  simp [UartSt.bit_noteEntry_flags, hframing, hbreak]

end

/-! ### The receive timeout (R359) -/

theorem State.dmaRun_of_empty {s : State} {p : Nat} (hon : (s.uart p).rxEn = true) (hrx : (s.uart p).rx = []) :
    s.dmaRun p = s.updUart p fun x => { x with rx := [] } := by
  simp [State.dmaRun, hon, hrx, State.dmaGo]

theorem State.dmaWrite_only (s : State) (p a : Nat) (bs : List Byte) :
    s.dmaWrite p a bs = { s with holmMem := (s.dmaWrite p a bs).holmMem, out := (s.dmaWrite p a bs).out } := by
  unfold State.dmaWrite
  split <;> rfl

@[simp] theorem State.uart_dmaWrite (s : State) (p a : Nat) (bs : List Byte) (q : Nat) : (s.dmaWrite p a bs).uart q = s.uart q := by
  rw [s.dmaWrite_only]; rfl

theorem State.closeBlock_only (s : State) (p cause : Nat) : s.closeBlock p cause =
    { s with uarts := (s.closeBlock p cause).uarts, holmMem := (s.closeBlock p cause).holmMem, out := (s.closeBlock p cause).out } := by
  cases hb : (s.uart p).block with
  | none => simp [State.closeBlock, hb]
  | some b =>
    simp only [State.closeBlock, hb]
    rw [s.dmaWrite_only]
    rfl

/-- The registers that a block's closing leaves: BLOCK_DONE, and TIMEOUT_FLUSH where the timeout closed it. -/
theorem State.uart_closeBlock {s : State} {p : Nat} {b : RxBlock} (cause : Nat) (hb : (s.uart p).block = some b) :
    (s.closeBlock p cause).uart p =
      let y := { s.uart p with block := none, seq := (s.uart p).seq + 1, wptr := ceilDiv (b.place + 16 + b.used) 16 * 16 }
      if cause = 1 then (y.flag 10).flag 9 else y.flag 10 := by
  simp only [State.closeBlock, hb, State.uart_updUart_same, State.uart_dmaWrite]

theorem rxTimeout_closes {s : State} {port : Fin 2} {b : RxBlock} (hon : (s.uart port.val).rxEn = true)
    (htimeout : (s.uart port.val).timeoutEn = true) (hrx : (s.uart port.val).rx = []) (hb : (s.uart port.val).block = some b) :
    Completes (.rxTimeout port) s fun t => (t.uart port.val).block = none ∧ (t.uart port.val).seq = (s.uart port.val).seq + 1 ∧
      bit (t.uart port.val).flags 9 = true ∧ bit (t.uart port.val).flags 10 = true ∧
      t = { s with uarts := t.uarts, holmMem := t.holmMem, out := t.out } := by
  refine ⟨(s.updUart port.val fun x => { x with rx := [] }).closeBlock port.val 1, ?_, ?_⟩
  · change execRxTimeout port s = _
    simp [execRxTimeout, State.dmaRun_of_empty hon hrx, hon, htimeout]
  · dsimp only
    rw [State.uart_closeBlock 1 (b := b) (by simpa using hb)]
    exact ⟨by simp, by simp, by simp, by simp, State.closeBlock_only ..⟩

/-! ### The statement -/

/-- Settles O46, by what each command of the receiver does at a port that receives: a character by the address mode and the mute, a break by the
mute, and the timeout by the closing of a block. -/
theorem uartsReceiveCharacters : Obligations.UartsReceiveCharacters := by
  unfold Obligations.UartsReceiveCharacters
  intro s port p x hon hsilent howned mark
  have h : Receives s p x := ⟨rfl, hon, hsilent, howned⟩
  exact ⟨fun c => ⟨h.rxCharacter_placed c, h.rxCharacter_discarded c, h.rxCharacter_unmutes c, h.rxCharacter_mutes c⟩,
    h.rxBreak_discarded, h.rxBreak_placed, fun b => rxTimeout_closes⟩

end Sys2Proof.Machine
end
